-- ==== Sys2Proof/Word.lean ====
section
/-! DEFINITION. The words of the device: bytes, 32-bit and 64-bit words, and the numbers that name its units
(R13 of 01_levels.md). -/

namespace Sys2Proof

/-- One byte. -/
abbrev Byte := BitVec 8
/-- A 32-bit word: a binary32 encoding, an I32 element, a 32-bit register. -/
abbrev Word32 := BitVec 32
/-- A 64-bit word: an instruction word, an accumulator, a descriptor word, a global tensor address. -/
abbrev Word64 := BitVec 64

/-- Core number within the device, 0 to 12,287 (R13). -/
abbrev CoreId := Fin 12288
/-- Global swatch number, 0 to 191 (R13). -/
abbrev SwatchId := Fin 192
/-- Panel number, 0 to 3 (R13). -/
abbrev PanelId := Fin 4
/-- Physical torus port P0 to P5 (R213). -/
abbrev PortId := Fin 6
/-- Ethernet port 0 or 1 (R385). -/
abbrev EthId := Fin 2
/-- Control processor CP0 to CP3 (R425). -/
abbrev CpId := Fin 4
/-- DAP session slot 0 to 7 (R389). -/
abbrev SlotId := Fin 8
/-- Tile identifier T0 to T15 (R92). -/
abbrev TileId := Fin 16

/-- The two contexts of a core (R82, R150). -/
inductive CtxId where
  | job
  | filler
deriving DecidableEq, Repr, Inhabited

end Sys2Proof
end

