-- ==== Sys2Proof/Syntax.lean ====
section
/-! DEFINITION. The commands of the block: one constructor per row of spec/opcode_table.json, with the row's operands.
A command is what the environment does to the device (a datagram, a flit, a pin, a write of an object) or the moment at
which one of the device's own engines takes its next step. -/

namespace Sys2Proof

/-- The addressing of a DAP datagram (R389, Table 15.4): the port it arrives on, whether it names the port's link-local
address, its source, the header's fields, and the 16-byte GCM tag. The payload is the row's other operand; the model seals
it under the session's key and compares the tag. -/
structure DapHdr where
  port : EthId
  linkLocal : Bool
  peer : BitVec 128
  peerPort : BitVec 16
  magic : BitVec 16
  version : Byte
  length : BitVec 16
  session : BitVec 32
  seq : BitVec 64
  tag : List Byte
deriving DecidableEq, Repr

/-- A DAP request after decryption: operation and operands (Table 15.7), and the sessions' CLOSE and REPORT_ACK. -/
inductive DapBody where
  | read (index : BitVec 16) (sub ty : Byte) (staged : Bool)
  | write (index : BitVec 16) (sub ty : Byte) (value : List Byte)
  | apply (index : BitVec 16) (sub ty : Byte)
  | blkWopen (index : BitVec 16) (sub ty : Byte) (total : BitVec 64)
  | blkWdata (index : BitVec 16) (sub ty : Byte) (offset : BitVec 64) (data : List Byte)
  | blkWclose (index : BitVec 16) (sub ty : Byte) (digest : List Byte)
  | blkRopen (index : BitVec 16) (sub ty : Byte)
  | blkRdata (index : BitVec 16) (sub ty : Byte) (offset : BitVec 64) (count : BitVec 16)
  | blkRclose (index : BitVec 16) (sub ty : Byte)
  | subscribe (index : BitVec 16) (sub ty : Byte) (mask : List Byte)
  | keepalive (index : BitVec 16) (sub ty : Byte)
  | close
  | reportAck (upTo : BitVec 64)
  /-- An operation code that Table 15.7 does not list. -/
  | other (op : Byte) (index : BitVec 16) (sub ty : Byte)
deriving DecidableEq, Repr

/-- A UDP datagram of the Fleler Exchange Protocol or of the input feed as it arrives (R328, R329): port, source, its
bytes, and whether the protection tag the chapter asks for verifies. -/
structure Dgram where
  port : EthId
  peer : BitVec 128
  peerPort : BitVec 16
  bytes : List Byte
deriving DecidableEq, Repr

/-- What the input power monitor and the sensors show at the start of a 50 µs period (R53, R62, R473): mean input power in
mW, input voltage in units of 10 mV, input current in units of 0.1 A, and as binary32 in °C the hottest junction of each
panel, of the collar, and the cold plate. -/
structure PowerSample where
  mw : BitVec 32
  vin : BitVec 16
  iin : BitVec 16
  tj0 : Word32
  tj1 : Word32
  tj2 : Word32
  tj3 : Word32
  collar : Word32
  plate : Word32
deriving DecidableEq, Repr

/-- Upsets that have struck a codeword since its last access: the symbols now in error (R195). -/
structure Upset where
  addr : BitVec 52
  symbols : List (Fin 68)
deriving DecidableEq, Repr

/-- A slice definition (R231): the fields of 0x2200 that a proposal carries. -/
structure SliceDef where
  id : BitVec 16
  origin : BitVec 16
  extentM1 : BitVec 16
  wrap : Byte
  dimord : Byte
deriving DecidableEq, Repr

/-- Chip number (R223). -/
abbrev ChipId := BitVec 12

/-- Bytes 12 to 31 of a collective packet's header (Table 10.5). -/
structure CollHdr where
  entry : BitVec 16
  stream : Byte
  epoch : Byte
  issue : BitVec 32
  chunk : BitVec 32
  form : Byte
  flags : Byte
  poisonChip : BitVec 16
  res : Byte
  aflags : Byte
deriving DecidableEq, Repr

/-- What CP_MAIL carries between the devices of a slice; the manual names what passes and does not lay it out in bytes
(DEDUCED, log 12): mail of the control processors' own (R237), the re-shard (R322), the snapshot boundary (R412), and what a speaker
and the devices of its member tell each other (R326, R438). -/
inductive Mail where
  | raw (bytes : List Byte)
  | rsDigest (digest : List Byte)
  | rsGo
  | rsNogo
  /-- BLOCK_ID, VERSION, SEL, RSEL, LAST_SENT, LAST_ACK of each record that moves. -/
  | rsFields (recs : List (Nat × Nat × Nat × Nat × Nat × Nat))
  | rsDone
  | snapRequest
  | snapAt (committed : Nat)
  /-- A manifest: round, TYPE, payload. -/
  | fedManifest (round ty : Nat) (payload : List Byte)
  /-- The member's FED_STATE, incarnation, head round, floor round, head digest, members live; UDP port and address of the
  speaker. -/
  | fedState (state incarn head floor : Nat) (digest : List Byte) (live port : Nat) (addr : BitVec 128)
  /-- A member's owner map, with its incarnation and its speaker's chip, UDP port and address. -/
  | fedMap (member incarn chip port : Nat) (addr : BitVec 128) (map : List Byte)
  /-- A device's own part of the member's owner map. -/
  | fedOwn (map : List Byte)
  /-- A device's report: KIND 0 its contribution of the round is complete at every partner, 1 it has merged the round,
  2 its state of FED_STATE 2 or 5 is whole, 3 an owner has answered DELTA_GONE (R355). -/
  | fedReport (kind round : Nat)
  /-- H of the next round (R438). -/
  | fedH (h : Nat)
  /-- The fork coordinator's member measures divergence: kept side, own side, sides of Table 13.10 (R358). -/
  | fedSides (kept own : Nat) (sides : List (List Byte))
  /-- A device's squared norms: side, of its anchor less the kept side's, of the floor (R358). -/
  | fedNorm (norms : List (Nat × Nat × Nat))
deriving DecidableEq, Repr

/-- What a management message says (Table 9.8); the manual does not lay its payload out in bytes (DEDUCED, log 12). -/
inductive MgmtBody where
  | slicePropose (d : SliceDef)
  | sliceCommit (d : SliceDef)
  | sliceRefuse (reason : Nat)
  | openReq | openCheck | openReady | openGo | openFail
  | close
  | sliceFault (chip port : Nat)
  | startDigest (digest : List Byte) (committed : Nat)
  | stop
  | abort
  | cpMail (m : Mail)
deriving DecidableEq, Repr

/-- What a die's Gauge test gives (Table 18.7): coverages in units of 0.01 %, lanes passed, duration in ms, hottest junction
in units of 0.1 °C, peak input power, fail entries as KIND, UNIT, INDEX; raw contents that a custom programme places. -/
structure DieResult where
  stuckAt : BitVec 16
  transition : BitVec 16
  sram : BitVec 16
  dram : BitVec 16
  lanes : BitVec 16
  duration : BitVec 32
  tjMax : BitVec 16
  peakW : BitVec 16
  fails : List (Byte × BitVec 16 × BitVec 32)
  raw : List Byte
deriving DecidableEq, Repr

/-- A request to the cipher engine (Table 16.6), without its operation. `use` is the permitted use that the requester needs:
0 FXP, 1 snapshot, 2 stream. -/
structure CipherReq where
  slot : Fin 64
  use : Fin 3
  urgent : Bool
  first : Bool
  last : Bool
  chain : Fin 8
  aadLen : BitVec 16
  length : BitVec 32
  src : BitVec 64
  dst : BitVec 64
  tagAddr : BitVec 64
  ivHi : BitVec 64
  ivLo : BitVec 32
deriving DecidableEq, Repr

/-- The commands: one constructor per row of the opcode table. -/
inductive Instr where
  /-- POWER_LOOP_PERIOD (R53): At the start of each 50 µs timebase period the power loop reads the sample and P_avg and adjusts the panel voltage target. -/
  | powerLoopPeriod (x : PowerSample)
  /-- ROW_COUNTER_PERIOD (R52): Each 50 µs period, each panel's row counter reports its averaged fabric rate to 0x2001 and 0x2000.09. -/
  | rowCounterPeriod (r0 r1 r2 r3 : Word32)
  /-- VCORE_SETTLED (R54): The panel regulators settle at the new voltage target within 20 µs of the loop's decision. -/
  | vcoreSettled
  /-- APPLY_VOLTAGE_POWER (R63): APPLY on 0x2000 checks VCORE_MIN, VCORE_MAX and PCAP together and puts them in force from the next period. -/
  | applyVoltagePower (h : DapHdr) (b : DapBody)
  /-- PPS_EDGE (R59): A PPS_IN edge is timestamped and, when enabled, disciplines INC. -/
  | ppsEdge (eighth : Fin 8)
  /-- PPS_LOST (R59): After 1.5 s with no expected PPS_IN edge, the timebase sets PPS_LOST, enters holdover and raises EV_PPS_LOST. -/
  | ppsLost
  /-- REFCLK_LOST (R61): After 2 µs without a REFCLK edge, the timebase runs on the on-collar oscillator, the torus ports go down and the Ethernet ports drop. -/
  | refclkLost
  /-- REFCLK_RETURN (R61): After 1 ms of steady REFCLK edges, the timebase takes REFCLK back without a step and the ports restart training. -/
  | refclkReturn
  /-- RESET (R442): RESET_N goes low, or the module holds itself in reset, ending every job, session, slice and federation role. -/
  | reset (pin : Bool)
  /-- RESET_RELEASE (R443): RESET_N is seen high after its filter; the straps are sampled, the timebase starts and the mask ROM begins boot. -/
  | resetRelease (straps : BitVec 16)
  /-- FIRMWARE_VERIFY (R446): The mask ROM tries the flash banks in order and boots the first valid image. -/
  | firmwareVerify
  /-- BOOT_RETRY (R447): With BOOT_SEL 0b00 and no valid bank, the boot sequence is tried again every 10 s. -/
  | bootRetry
  /-- BOOT_REQ (R448): During an Ethernet boot the device sends BOOT_REQ to ff02::48ad every 1 s. -/
  | bootReq
  /-- BOOT_OFFER (R448): A boot server's offer is taken if its SECVER is at least FLOOR_SECVER. -/
  | bootOffer (d : Dgram)
  /-- BOOT_SEG (R448): A received segment of the boot image is stored at its offset. -/
  | bootSeg (d : Dgram)
  /-- BOOT_MISS_TIMER (R448): 100 ms after the last segment, the device sends BOOT_MISS for missing bytes, or judges the complete image under R446. -/
  | bootMissTimer
  /-- ETHERNET_BOOT_TIMEOUT (R448): If no valid image arrives within 60 s, the device retries the flash (BOOT_SEL 0b01) and sends BOOT_REQ anew. -/
  | ethernetBootTimeout
  /-- DRAM_TRAINED (R443): The DRAM is trained and every DRAM and SRAM codeword is written with zero. -/
  | dramTrained
  /-- READY (R443): The enabled torus ports have trained; EV_READY is raised and STATUS shows ready or degraded. -/
  | ready
  /-- MM (R94): An MM instruction multiplies pocket operands into a tile, initialising it first when INIT is set. -/
  | mm (core : CoreId) (c : CtxId)
  /-- GROUP_SUM_ADD (R98): An adder-tree group sum leaves the tree and is added exactly into its accumulator, with saturation judged after the addition. -/
  | groupSumAdd (core : CoreId) (c : CtxId) (tile : TileId) (elem : Fin 8192) (faults : Fin 3)
  /-- SEGMENT_CLOSURE (R102): When the term count would pass a multiple of 2^23, the bed waits for settle, folds the tile into its binary32 segment area and zeroes it. -/
  | segmentClosure (core : CoreId) (c : CtxId) (tile : TileId)
  /-- PLD (R109): A PLD initialises a tile from a bias vector or a tensor, rounding each value onto the tile's grid. -/
  | pld (core : CoreId) (c : CtxId)
  /-- DRN (R110): A DRN waits for settle, passes tile rows through the five drain stages and writes the results, freeing the tile when FREE is set. -/
  | drn (core : CoreId) (c : CtxId)
  /-- CVT (R83): A CVT converts a vector along one path of Table 4.5 under the selected rounding mode. -/
  | cvt (core : CoreId) (c : CtxId)
  /-- ADD (R132): The ribber adds two vectors under IEEE rules. -/
  | add (core : CoreId) (c : CtxId)
  /-- SUB (R132): The ribber subtracts two vectors under IEEE rules. -/
  | sub (core : CoreId) (c : CtxId)
  /-- MUL (R132): The ribber multiplies two vectors under IEEE rules. -/
  | mul (core : CoreId) (c : CtxId)
  /-- DIV (R132): The ribber divides two vectors under IEEE rules. -/
  | div (core : CoreId) (c : CtxId)
  /-- SQRT (R132): The ribber takes the IEEE square root of a vector. -/
  | sqrt (core : CoreId) (c : CtxId)
  /-- FMA (R132): The ribber computes a × b + c with a single rounding. -/
  | fma (core : CoreId) (c : CtxId)
  /-- MIN (R132): The ribber takes the NaN-propagating minimum of two vectors. -/
  | min (core : CoreId) (c : CtxId)
  /-- MAX (R132): The ribber takes the NaN-propagating maximum of two vectors. -/
  | max (core : CoreId) (c : CtxId)
  /-- MINN (R132): The ribber takes the minimum of two vectors, with a number winning over a NaN. -/
  | minn (core : CoreId) (c : CtxId)
  /-- MAXN (R132): The ribber takes the maximum of two vectors, with a number winning over a NaN. -/
  | maxn (core : CoreId) (c : CtxId)
  /-- RINT (R132): The ribber rounds each element to an integral value. -/
  | rint (core : CoreId) (c : CtxId)
  /-- ABS (R133): The ribber clears the sign bit of each element, setting no flag. -/
  | abs (core : CoreId) (c : CtxId)
  /-- NEG (R133): The ribber flips the sign bit of each element, setting no flag. -/
  | neg (core : CoreId) (c : CtxId)
  /-- CPS (R133): The ribber copies the sign of b onto a, setting no flag. -/
  | cps (core : CoreId) (c : CtxId)
  /-- MOV (R133): The ribber copies element bits unchanged from source to destination. -/
  | mov (core : CoreId) (c : CtxId)
  /-- SEL (R139): The ribber selects a or b in each lane by bit 0 of the mask element. -/
  | sel (core : CoreId) (c : CtxId)
  /-- CMP (R138): The ribber compares two vectors under a predicate and writes a U8 mask. -/
  | cmp (core : CoreId) (c : CtxId)
  /-- IADD (R134): The ribber adds I32 vectors modulo 2^32. -/
  | iadd (core : CoreId) (c : CtxId)
  /-- ISUB (R134): The ribber subtracts I32 vectors modulo 2^32. -/
  | isub (core : CoreId) (c : CtxId)
  /-- IMUL (R134): The ribber multiplies I32 vectors and keeps the low 32 bits. -/
  | imul (core : CoreId) (c : CtxId)
  /-- IMIN (R134): The ribber takes the signed minimum of I32 vectors. -/
  | imin (core : CoreId) (c : CtxId)
  /-- IMAX (R134): The ribber takes the signed maximum of I32 vectors. -/
  | imax (core : CoreId) (c : CtxId)
  /-- AND (R134): The ribber takes the bitwise AND of I32 or U8 vectors. -/
  | and (core : CoreId) (c : CtxId)
  /-- OR (R134): The ribber takes the bitwise OR of I32 or U8 vectors. -/
  | or (core : CoreId) (c : CtxId)
  /-- XOR (R134): The ribber takes the bitwise XOR of I32 or U8 vectors. -/
  | xor (core : CoreId) (c : CtxId)
  /-- NOT (R134): The ribber takes the bitwise complement of an I32 or U8 vector. -/
  | not (core : CoreId) (c : CtxId)
  /-- SHL (R134): The ribber shifts I32 elements left by b mod 32. -/
  | shl (core : CoreId) (c : CtxId)
  /-- SHRL (R134): The ribber shifts I32 elements logically right by b mod 32. -/
  | shrl (core : CoreId) (c : CtxId)
  /-- SHRA (R134): The ribber shifts I32 elements arithmetically right by b mod 32. -/
  | shra (core : CoreId) (c : CtxId)
  /-- IOTA (R134): The ribber writes d[i] := a + i × b. -/
  | iota (core : CoreId) (c : CtxId)
  /-- EXP2 (R136): The ribber approximates 2^x within 1 ulp. -/
  | exp2 (core : CoreId) (c : CtxId)
  /-- EXP (R136): The ribber approximates e^x within 2 ulp. -/
  | exp (core : CoreId) (c : CtxId)
  /-- LOG2 (R136): The ribber approximates log2 x within 1 ulp. -/
  | log2 (core : CoreId) (c : CtxId)
  /-- LOG (R136): The ribber approximates ln x within 2 ulp. -/
  | log (core : CoreId) (c : CtxId)
  /-- RCP (R136): The ribber approximates 1/x within 1 ulp. -/
  | rcp (core : CoreId) (c : CtxId)
  /-- RSQRT (R136): The ribber approximates 1/√x within 1 ulp. -/
  | rsqrt (core : CoreId) (c : CtxId)
  /-- TANH (R136): The ribber approximates tanh x within 2 ulp. -/
  | tanh (core : CoreId) (c : CtxId)
  /-- SIGM (R136): The ribber approximates the logistic sigmoid within 2 ulp. -/
  | sigm (core : CoreId) (c : CtxId)
  /-- SIN (R136): The ribber approximates sin x for |x| ≤ 2^16 and returns the default NaN beyond. -/
  | sin (core : CoreId) (c : CtxId)
  /-- COS (R136): The ribber approximates cos x for |x| ≤ 2^16 and returns the default NaN beyond. -/
  | cos (core : CoreId) (c : CtxId)
  /-- REDSUM (R142): The ribber sums each group of G lanes in the fixed pairwise tree. -/
  | redsum (core : CoreId) (c : CtxId)
  /-- REDSSQ (R142): The ribber sums the squares of each group of G lanes in tree order. -/
  | redssq (core : CoreId) (c : CtxId)
  /-- REDMAX (R142): The ribber takes the maximum of each group of lanes. -/
  | redmax (core : CoreId) (c : CtxId)
  /-- REDMIN (R142): The ribber takes the minimum of each group of lanes. -/
  | redmin (core : CoreId) (c : CtxId)
  /-- REDAMAX (R142): The ribber takes the largest magnitude of each group of lanes. -/
  | redamax (core : CoreId) (c : CtxId)
  /-- REDARGMAX (R142): The ribber gives the group-relative index of the maximum, or of the first NaN. -/
  | redargmax (core : CoreId) (c : CtxId)
  /-- PERM (R143): The ribber permutes elements by an I32 index vector and handles out-of-range lanes by STRICT. -/
  | perm (core : CoreId) (c : CtxId)
  /-- XR_READ (R146): XR reads TSTAT, TXR0, TXR1 or RSTAT into two I32 buffer elements, waiting for the tile's settle token. -/
  | xrRead (core : CoreId) (c : CtxId)
  /-- XR_WRITE (R146): XR applies a 64-bit value to the W1C fields of TSTAT or RSTAT. -/
  | xrWrite (core : CoreId) (c : CtxId)
  /-- MR_READ (R162): MR copies FMODE, FSTAT, SRSTATE or RCTL to a buffer. -/
  | mrRead (core : CoreId) (c : CtxId)
  /-- MR_WRITE (R162): MR writes FMODE, FSTAT (as W1C), SRSTATE or RCTL from a buffer. -/
  | mrWrite (core : CoreId) (c : CtxId)
  /-- MR_WRITE_IMMEDIATE (R162): MR writes FMODE, FSTAT or RCTL from an immediate. -/
  | mrWriteImmediate (core : CoreId) (c : CtxId)
  /-- MARK (R162): DBG MARK records IMM and the timebase in the core's mark register. -/
  | dbgMark (core : CoreId) (c : CtxId)
  /-- BREAK (R162): DBG BREAK stops the context when its breakpoint is armed. -/
  | dbgBreak (core : CoreId) (c : CtxId)
  /-- LDV (R163): LDV copies units from the pocket to a vector buffer. -/
  | ldv (core : CoreId) (c : CtxId)
  /-- STV (R163): STV copies units from a vector buffer to the pocket. -/
  | stv (core : CoreId) (c : CtxId)
  /-- DMA (R164): MV DMA takes a swatch descriptor, stalling if none is free, and queues the transfer in its descriptor slot under a tag. -/
  | dma (core : CoreId) (c : CtxId)
  /-- CORD (R121): MV CORD takes a swatch descriptor and starts cord-path work for the cord descriptor in its slot. -/
  | cord (core : CoreId) (c : CtxId)
  /-- CORD_COMPLETE (R121): The cord path writes its outputs and completion record and releases its swatch descriptor. -/
  | cordComplete (core : CoreId) (c : CtxId) (tag : Fin 32)
  /-- JMP (R166): BR JMP continues at TARGET. -/
  | jmp (core : CoreId) (c : CtxId)
  /-- LOOP (R166): BR LOOP runs its body CNTM1 + 1 times, adding XSTEP to the selected index register after each iteration. -/
  | loop (core : CoreId) (c : CtxId)
  /-- BRV (R168): BRV waits for the step's commit verdict and branches to TARGET on skip. -/
  | brv (core : CoreId)
  /-- SETX (R166): BR SETX sets an index register to XSTEP. -/
  | setx (core : CoreId) (c : CtxId)
  /-- BAR (R169): BAR waits for its context's completion tokens and arrives at the join of its scope. -/
  | bar (core : CoreId) (c : CtxId)
  /-- BAR_JOIN_COMPLETE (R169): When every participant of a bar join has arrived, the waiting cores pass with pocket visibility and a new phase. -/
  | barJoinComplete (core : CoreId) (c : CtxId)
  /-- BU_TILE_TASK (R290): The Blocking Unit runs a W16 matrix-product tile task on a lent bed. -/
  | buTileTask (core : CoreId)
  /-- BED_RETURN (R116): At the end of a task the bed is returned with every tile not live and its accumulators zeroed. -/
  | bedReturn (core : CoreId)
  /-- WAITD (R171): WAITD waits until no tagged transfer in TAGMASK is outstanding. -/
  | waitd (core : CoreId) (c : CtxId)
  /-- WAITC (R171): WAITC waits until no tagged collective in TAGMASK is outstanding. -/
  | waitc (core : CoreId) (c : CtxId)
  /-- STEP (R172): STEP waits for tags, the commit and any round, then adds 1 to STEPS_DONE and continues at ENTRY. -/
  | step (core : CoreId)
  /-- END (R173): END ends the Filler program until the image is loaded again. -/
  | endFiller (core : CoreId)
  /-- CONTEXT_SWITCH (R174): The core switches between the job and Filler contexts at a BAR or STEP under Table 7.14, taking 8 fabric cycles. -/
  | contextSwitch (core : CoreId)
  /-- CL_ISSUE (R176): CL ISSUE starts this core's part of a collective plan entry under a completion tag. -/
  | clIssue (core : CoreId)
  /-- LOAD (R185): COMMAND LOAD discards the image in force and starts CHECKING the received image. -/
  | load (h : DapHdr) (b : DapBody)
  /-- LOAD_CHECK_DONE (R184): The loader's checks end, placing the image (LOADED, EV_JOB_LOADED) or recording a refusal (REFUSED, EV_JOB_REFUSED). -/
  | loadCheckDone
  /-- START (R186): COMMAND START enters STARTING and sends the image digest and COMMITTED to every device of the slice. -/
  | start (h : DapHdr) (b : DapBody)
  /-- START_DIGEST (R186): A START_DIGEST message is compared, and the device enters RUNNING when every device is STARTING with the same digest and COMMITTED. -/
  | startDigest (src : ChipId) (digest : List Byte) (committed : BitVec 64)
  /-- START_TIMEOUT (R186): If the slice is not all STARTING within 10 s, the start is refused with code 0x2C. -/
  | startTimeout
  /-- STOP (R187): COMMAND STOP enters STOPPING and passes the stop to the norm-anchor device. -/
  | stop (h : DapHdr) (b : DapBody)
  /-- STOP_MESSAGE (R187): The norm-anchor device receives STOP and marks the next verdict it broadcasts. -/
  | stopMessage (src : ChipId)
  /-- ABORT (R188): COMMAND ABORT passes the abort to every device of the slice. -/
  | abort (h : DapHdr) (b : DapBody)
  /-- ABORT_MESSAGE (R188): On receipt of ABORT, a device stops issuing, cancels collectives, discards shadows and returns every resource of the job. -/
  | abortMessage (src : ChipId)
  /-- UNLOAD (R185): COMMAND UNLOAD removes the image and returns JOB_STATE to EMPTY. -/
  | unload (h : DapHdr) (b : DapBody)
  /-- DMA_REQUEST_ISSUE (R204): The swatch DMA engine issues the next request of up to 256 bytes of an active transfer. -/
  | dmaRequestIssue (core : CoreId) (c : CtxId) (tag : Fin 32)
  /-- MEMORY_REQUEST (R209): A target checks a memory request in order and serves or refuses it. -/
  | memoryRequest (src : ChipId) (id : BitVec 32) (master : BitVec 12) (job : Bool) (write : Bool) (addr : BitVec 52) (len : Fin 257) (data : List Byte) (marks : List Nat) (upsets : List Upset)
  /-- DMA_REPLY (R204): A reply or refusal for a DMA request arrives and its bytes are written. -/
  | dmaReply (id : BitVec 32) (refused : Bool) (reason : Byte) (data : List Byte) (marks : List Nat)
  /-- REQUEST_TIMEOUT (R230): A memory request without a reply after 1 ms ends as target unreachable. -/
  | requestTimeout (id : BitVec 32)
  /-- SCRUB_CODEWORD (R202): The patrol scrubber reads, corrects or poisons one codeword indivisibly. -/
  | scrubCodeword (u : Upset)
  /-- APPLY_DEBUG_DRAIN (R115): APPLY on 0xC010 starts a debug drain of a tile's raw accumulators. -/
  | applyDebugDrain (h : DapHdr) (b : DapBody)
  /-- DEBUG_DRAIN_LIMIT (R114): After 4 µs without a settle token, the debug drain reads the tile as it stands with UNSETTLED = 1. -/
  | debugDrainLimit
  /-- APPLY_VB_READ (R149): APPLY on 0xC020 reads vector-buffer bytes and ribber registers of a core. -/
  | applyVbRead (h : DapHdr) (b : DapBody)
  /-- PORT_ENABLE_WRITE (R215): A write of PORT_ENABLE starts training on enabled ports and disables the others. -/
  | portEnableWrite (h : DapHdr) (b : DapBody)
  /-- SIGNAL_DETECTED (R215): Signal appears on all 16 lanes of a port and equalisation begins. -/
  | signalDetected (p : PortId)
  /-- SIGNAL_TIMEOUT (R215): A port with no signal within 10 ms enters state 4. -/
  | signalTimeout (p : PortId)
  /-- IDENTITY_EXCHANGE (R216): After flit lock the port checks the peer's identity and enters state 3 if it is miscabled. -/
  | identityExchange (p : PortId) (chip pos : BitVec 12) (role : Fin 8)
  /-- QUALIFICATION_COMPLETE (R215): After 10 ms of test flits the port qualifies, loads credits and goes up, or goes down. -/
  | qualificationComplete (p : PortId) (ok : Bool)
  /-- LINK_RETRY (R215): A down port retries training every 1 s. -/
  | linkRetry (p : PortId)
  /-- FLIT_RECEIVED (R217): A received flit is checked for CRC and sequence, delivered or dropped with a NAK, and its ACK and credit total are taken. -/
  | flitReceived (p : PortId) (bytes : List Byte) (marks : List Nat)
  /-- FLIT_SENT (R222): An output port sends the next flit by arbitration, spending a credit, or an idle flit. -/
  | flitSent (p : PortId)
  /-- RETRAIN_COMPLETE (R218): A retrain that completes within 2 ms keeps sequence numbers, replay buffer and credits. -/
  | retrainComplete (p : PortId)
  /-- RETRAIN_TIMEOUT (R218): A retrain not done within 2 ms takes the port down and discards its replay buffer. -/
  | retrainTimeout (p : PortId)
  /-- PACKET_ARRIVAL (R229): The Purl router checks a packet arriving from a port and forwards, delivers or discards it. -/
  | packetArrival (p : PortId)
  /-- APPLY_TORUS (R225): APPLY on 0x2100 sets the jersey shape and axis map, and the identity exchange is repeated. -/
  | applyTorus (h : DapHdr) (b : DapBody)
  /-- APPLY_SLICE (R231): APPLY on 0x2200 proposes a slice, enters PROPOSED and sends SLICE_PROPOSE to the coordinator. -/
  | applySlice (h : DapHdr) (b : DapBody)
  /-- SLICE_PROPOSE (R232): The coordinator collects a proposal and sends SLICE_COMMIT or SLICE_REFUSE when all have arrived. -/
  | slicePropose (src : ChipId) (d : SliceDef)
  /-- SLICE_COMMIT (R232): A member installs unicast entries, writes SLICE_MAP and enters CREATED. -/
  | sliceCommit (src : ChipId) (d : SliceDef)
  /-- SLICE_REFUSE (R232): A member returns to NONE with SLICE_REASON set. -/
  | sliceRefuse (src : ChipId) (reason : Byte)
  /-- SLICE_PROPOSE_TIMEOUT (R232): The coordinator sends SLICE_REFUSE with reason 8 when proposals are missing 10 s after its APPLY. -/
  | sliceProposeTimeout
  /-- SLICE_MEMBER_TIMEOUT (R232): A member with no SLICE_COMMIT or SLICE_REFUSE within 12 s refuses itself with reason 8. -/
  | sliceMemberTimeout
  /-- OPEN (R233): Slice COMMAND OPEN sends OPEN_REQ to the coordinator. -/
  | openSlice (h : DapHdr) (b : DapBody)
  /-- OPEN_REQ (R233): The coordinator sends OPEN_CHECK to every member. -/
  | openReq (src : ChipId)
  /-- OPEN_CHECK (R233): A member enters OPENING and replies OPEN_READY once its slice ports are up. -/
  | openCheck (src : ChipId)
  /-- OPEN_READY (R233): The coordinator records readiness and sends OPEN_GO when every member is ready. -/
  | openReady (src : ChipId)
  /-- OPEN_GO (R233): A member enters OPEN, sets OPEN and raises EV_SLICE_OPEN. -/
  | openGo (src : ChipId)
  /-- OPEN_FAIL (R233): A member returns to CREATED with reason 9. -/
  | openFail (src : ChipId)
  /-- OPEN_TIMEOUT (R233): If readiness is incomplete 1 s after OPEN_CHECK, the coordinator sends OPEN_FAIL. -/
  | openTimeout
  /-- CLOSE (R234): Slice COMMAND CLOSE floods CLOSE and leaves open mode. -/
  | close (h : DapHdr) (b : DapBody)
  /-- CLOSE_FLOOD (R234): A member that receives the CLOSE flood forwards it, returns to CREATED and raises EV_SLICE_CLOSED. -/
  | closeFlood (src : ChipId)
  /-- SLICE_FAULT (R234): A member that receives the SLICE_FAULT flood forwards it, records FAULT_CHIP and leaves open mode. -/
  | sliceFault (src : ChipId) (fault : ChipId) (port : PortId)
  /-- DISSOLVE (R235): Slice COMMAND DISSOLVE removes the unicast entries, clears SLICE_MAP and sets NONE. -/
  | dissolve (h : DapHdr) (b : DapBody)
  /-- MGMT_QUEUE (R236): A management message enters the CP receive queue, or waits for credits when the queue is full. -/
  | mgmtQueue
  /-- CP_MAIL (R237): A firmware-to-firmware CP_MAIL message is delivered to the control processors. -/
  | cpMail (src : ChipId) (m : Mail)
  /-- CREQ (R252): A receiver takes a slot request and grants a slot or queues the request. -/
  | creq (port : PortId) (h : CollHdr)
  /-- SLOT_GRANT (R253): A freed or newly grantable slot goes to a waiting CREQ by the fixed orders, and CGNT is sent. -/
  | slotGrant
  /-- CGNT (R251): A sender that receives a grant sends the CHUNK. -/
  | cgnt (port : PortId) (h : CollHdr)
  /-- CHUNK (R251): A receiver checks the chunk's residue and its epoch, then answers CACK or CNAK. -/
  | chunk (port : PortId) (h : CollHdr) (data : List Byte) (marks : List Nat)
  /-- CACK (R251): The sender frees its copy of an acknowledged chunk. -/
  | cack (port : PortId) (h : CollHdr)
  /-- CNAK (R251): The sender resends the chunk from its copy with RESEND set. -/
  | cnak (port : PortId) (h : CollHdr)
  /-- OPERAND_ADD (R243): A node adds the next operand of a chunk in fixed order and forwards or writes the result. -/
  | operandAdd (entry : BitVec 16) (issue : BitVec 32) (chunk : BitVec 32) (faults : Fin 3)
  /-- FUSED_CHECK_FAIL (R263): A late check failure at a fused all-reduce root keeps the result, sends RETRACT and CRED. -/
  | fusedCheckFail (entry : BitVec 16) (issue : BitVec 32) (chunk : BitVec 32)
  /-- RETRACT (R263): The norm-anchor device withholds the commit verdict until the matching RESOLVE. -/
  | retract (src : ChipId) (h : CollHdr)
  /-- CRED (R263): Each contributor sends its chunk again with REREDUCE set. -/
  | cred (port : PortId) (h : CollHdr)
  /-- RESOLVE (R263): The norm-anchor device closes the RETRACT and may form the verdict. -/
  | resolve (src : ChipId) (h : CollHdr)
  /-- COLLECTIVE_TAG_COMPLETE (R261): A device completes an issue's tag when every role it holds in the issue is done. -/
  | collectiveTagComplete (entry : BitVec 16) (issue : BitVec 32)
  /-- EPOCH_ADVANCE (R265): A pending epoch advance takes effect once the old epoch has drained. -/
  | epochAdvance
  /-- NORM_LEAF (R281): When its conditions hold, the device issues its leaf of the system norm reduction. -/
  | normLeaf
  /-- VERDICT_FORM (R282): The norm-anchor device forms the verdict from the verified norm and broadcasts entry 0xFFFF. -/
  | verdictForm
  /-- VERDICT_RECEIVED (R283): A device checks the verdict and acts on it: counts it, commits or discards, and replays when asked. -/
  | verdictReceived
  /-- BU_UPDATE_START (R284): The Blocking Unit starts a layer's speculative update into shadow slots once the gradient has arrived. -/
  | buUpdateStart (layer : Fin 524288)
  /-- LAYER_COMMIT (R292): With the shadows complete and pins at zero, the layer's records FLIP, working copies regenerate and stream records are queued. -/
  | layerCommit (layer : Fin 524288)
  /-- COMMIT_STALL (R294): A flip that has waited 100 ms for pins raises EV_COMMIT_STALL. -/
  | commitStall (record : Fin 1048576)
  /-- APPLY_HYPERPARAMETERS (R300): APPLY on 0x3200 range-checks a hyperparameter set and puts it in force from the next update. -/
  | applyHyperparameters (h : DapHdr) (b : DapBody)
  /-- APPLY_NORM_POLICY (R301): APPLY on 0x3300 sets CLIP, ABS_LIMIT and CLIP_MODE for the next verdict. -/
  | applyNormPolicy (h : DapHdr) (b : DapBody)
  /-- FEED_PACK_ROW (R316): The feed packs a pass's row for a channel from emitted samples and publishes it. -/
  | feedPackRow (channel : Fin 64)
  /-- FEED_REQ (R363): The feed sends a sample request to a data server, keeping up to FETCH_AHEAD outstanding. -/
  | feedReq (stream : Fin 5)
  /-- FEED_REPLY (R364): A data server's reply is checked against outstanding requests and its tokens stored. -/
  | feedReply (d : Dgram)
  /-- FEED_TIMEOUT (R317): A lost feed request is sent again after FEED_TIMEOUT. -/
  | feedTimeout (ep : Fin 16) (num : BitVec 32)
  /-- APPLY_FEED (R324): APPLY on 0x3100 sets the feed timers and endpoints from the next request. -/
  | applyFeed (h : DapHdr) (b : DapBody)
  /-- APPLY_RESHARD (R321): APPLY on 0x3102 checks and arms a re-shard plan. -/
  | applyReshard (h : DapHdr) (b : DapBody)
  /-- RESHARD_BOUNDARY (R322): At the armed step boundary each device sends its plan digest to the norm-anchor device. -/
  | reshardBoundary
  /-- RESHARD_GO (R322): On go, the device requests the epoch advance and the old owners send record fields. -/
  | reshardGo (src : ChipId)
  /-- RESHARD_NOGO (R323): On no-go, the plan is disarmed with RS_STATE 5 and EV_RESHARD_REFUSED. -/
  | reshardNogo (src : ChipId)
  /-- RESHARD_DIGEST_TIMEOUT (R322): The norm-anchor device sends no-go when the digests have not agreed after 1 s. -/
  | reshardDigestTimeout
  /-- RESHARD_MOVE_DONE (R322): Once the moves are verified, new owners install records, old owners MOVE, and the new epoch and roots take effect. -/
  | reshardMoveDone
  /-- FOUND (R337): COMMAND FOUND starts a federation at round 0. -/
  | found (h : DapHdr) (b : DapBody)
  /-- FED_JOIN (R337): COMMAND JOIN checks the exchange areas and starts sending JOIN to the seeds. -/
  | fedJoin (h : DapHdr) (b : DapBody)
  /-- FED_LEAVE (R356): COMMAND LEAVE sends LEAVE and ends this member's role. -/
  | fedLeave (h : DapHdr) (b : DapBody)
  /-- JOIN_RESEND (R337): The joining speaker resends JOIN every 1 s. -/
  | joinResend
  /-- JOIN_TIMEOUT (R337): After 30 s with no answer, the member returns to FED_STATE 0 with reason 5. -/
  | joinTimeout
  /-- JOIN (R338): A live speaker accepts or refuses a JOIN. -/
  | join (d : Dgram)
  /-- JOIN_ACCEPT (R339): The joining member enters FED_STATE 2 and requests state from its donor. -/
  | joinAccept (d : Dgram)
  /-- JOIN_REFUSE (R337): The joining member returns to FED_STATE 0 and raises EV_FXP_REFUSED. -/
  | joinRefuse (d : Dgram)
  /-- OWNER_MAP (R327): A received owner map updates the partners of each block. -/
  | ownerMap (d : Dgram)
  /-- HEARTBEAT_TIMER (R356): The speaker sends HEARTBEAT every HB_INTERVAL. -/
  | heartbeatTimer
  /-- HEARTBEAT (R356): A heartbeat refreshes the sender's liveness and head round. -/
  | heartbeat (d : Dgram)
  /-- MEMBER_TIMEOUT (R356): A member with no heartbeat within MEMBER_TIMEOUT leaves the view, raising EV_MEMBER_LOST. -/
  | memberTimeout (member : Fin 64)
  /-- LEAVE (R356): A received LEAVE marks the sender as departing. -/
  | leave (d : Dgram)
  /-- CONTRIBUTION (R341): After the H-th counted step, each device forms, encodes and sends its compressed deltas. -/
  | contribution
  /-- DELTA (R331): A received DELTA fragment is stored, reserving pool slots on the first fragment. -/
  | delta (d : Dgram)
  /-- PARITY (R332): A parity datagram rebuilds a single missing fragment of its group. -/
  | parity (d : Dgram)
  /-- SACK (R334): A received SACK releases covered fragments from the window and triggers resends of lost ones. -/
  | sack (d : Dgram)
  /-- SACK_TIMER (R333): 200 µs after an uncovered fragment arrives, the receiver sends a SACK. -/
  | sackTimer (member : Byte) (chip : BitVec 16) (num : BitVec 32)
  /-- RTO_EXPIRY (R335): An unacknowledged fragment is resent when RTO expires; after 64 resends the transfer is abandoned. -/
  | rtoExpiry (member : Byte) (chip : BitVec 16) (peer : BitVec 128) (peerPort : BitVec 16) (num frag : BitVec 32)
  /-- DELTA_REQ (R355): An owner answers with the requested records from its keep ring, or with DELTA_GONE. -/
  | deltaReq (d : Dgram)
  /-- DELTA_GONE (R355): The requesting member adopts the head state in FED_STATE 5. -/
  | deltaGone (d : Dgram)
  /-- CONTRIB_DONE (R348): The coordinator records a contribution and closes the round when all live members are done. -/
  | contribDone (d : Dgram)
  /-- ROUND_DEADLINE (R348): ROUND_DEADLINE after the first CONTRIB_DONE, the coordinator closes the round. -/
  | roundDeadline
  /-- COORD_TAKEOVER (R350): After k × COORD_TIMEOUT with no ROUND_CLOSE, a speaker issues it itself with TAKEOVER. -/
  | coordTakeover
  /-- ROUND_CLOSE (R351): A received manifest is kept in the chain and queued or merged. -/
  | roundClose (d : Dgram)
  /-- MANIFEST_MERGE (R352): Each device merges a manifest into every federation block and commits the new anchor. -/
  | manifestMerge
  /-- CHAIN_REQ (R351): A speaker answers with the requested manifest from its chain. -/
  | chainReq (d : Dgram)
  /-- FORK_DECISION (R358): The fork coordinator gathers each side's chain, measures divergence and chooses merge or adopt. -/
  | forkDecision
  /-- FORK_CLOSE (R361): A member fetches what it needs and applies the fork close as the manifest of round N. -/
  | forkClose (d : Dgram)
  /-- STATE_REQ (R339): A partner answers with a STATE_FRAG transfer of anchor, momentum and floor. -/
  | stateReq (d : Dgram)
  /-- STATE_FRAG (R339): Received state is written into anchor, exchange area and master. -/
  | stateFrag (d : Dgram)
  /-- APPLY_FEDERATION (R367): APPLY on 0x4000 sets membership, timers and H bounds. -/
  | applyFederation (h : DapHdr) (b : DapBody)
  /-- APPLY_COMPRESSION (R368): APPLY on 0x4100 sets FORM, TOPK and EF_ENABLE for the next contribution. -/
  | applyCompression (h : DapHdr) (b : DapBody)
  /-- APPLY_OUTER_RULE (R369): APPLY on 0x4200 sets ETA_O, MU_O, LAMBDA and S_MAX for the next manifest issued. -/
  | applyOuterRule (h : DapHdr) (b : DapBody)
  /-- TWTT_INTERVAL (R373): Every TWTT_INTERVAL a device sends a burst of four TIME_PROBEs to the reference. -/
  | twttInterval
  /-- PROBE_INTERVAL (R379): Every PROBE_INTERVAL a device probes each active peer for round-trip time. -/
  | probeInterval
  /-- TIME_PROBE (R374): A device answers a probe with TIME_REPLY stamped T2 and T3. -/
  | timeProbe (d : Dgram)
  /-- TIME_REPLY (R375): A reply updates the round-trip estimator and, for TWTT, the offset discipline. -/
  | timeReply (d : Dgram)
  /-- REFERENCE_SILENT (R378): After 10 intervals with no reply from the TWTT reference, the device goes into holdover. -/
  | referenceSilent
  /-- PTP_MESSAGE (R372): A PTP message from the followed grandmaster is used to label PPS seconds. -/
  | ptpMessage (port : EthId) (domain : Byte) (gm time : BitVec 64)
  /-- TOD_NEXT (R372): A write of TOD_NEXT gives the TAI second of the next PPS_IN edge. -/
  | todNext (h : DapHdr) (b : DapBody)
  /-- APPLY_SITE_TIME (R382): APPLY on 0x1300 sets the time mode and time parameters from the next interval. -/
  | applySiteTime (h : DapHdr) (b : DapBody)
  /-- HELLO (R391): The device answers a HELLO with a signed CHALLENGE, or with REFUSE when retired or disabled. -/
  | hello (h : DapHdr) (hello : List Byte)
  /-- PROOF (R390): The device verifies the station's key and signature and sends ACCEPT with a slot, or REFUSE. -/
  | proof (h : DapHdr) (pub sig : List Byte)
  /-- CHALLENGE_TIMEOUT (R391): A CHALLENGE with no valid PROOF within 2 s is forgotten. -/
  | challengeTimeout (number : BitVec 29)
  /-- READ (R395): DAP READ returns an object's value or staged value, clearing RC objects. -/
  | read (h : DapHdr) (b : DapBody)
  /-- WRITE (R397): DAP WRITE to an object with no row of its own, staging ST values per session. -/
  | write (h : DapHdr) (b : DapBody)
  /-- BLK_WOPEN (R400): Opens a block write of a DOMAIN object. -/
  | blkWopen (h : DapHdr) (b : DapBody)
  /-- BLK_WDATA (R400): Stores a segment of a block write. -/
  | blkWdata (h : DapHdr) (b : DapBody)
  /-- BLK_WCLOSE (R400): Checks coverage, digest and state, then gives the object its bytes in one action. -/
  | blkWclose (h : DapHdr) (b : DapBody)
  /-- BLK_ROPEN (R401): Snapshots an object's value into the session's read buffer. -/
  | blkRopen (h : DapHdr) (b : DapBody)
  /-- BLK_RDATA (R401): Returns bytes from the read snapshot. -/
  | blkRdata (h : DapHdr) (b : DapBody)
  /-- BLK_RCLOSE (R401): Releases the read snapshot. -/
  | blkRclose (h : DapHdr) (b : DapBody)
  /-- SUBSCRIBE (R403): Replaces the session's event subscription mask. -/
  | subscribe (h : DapHdr) (b : DapBody)
  /-- KEEPALIVE (R394): Keeps a DAP session alive without other effect. -/
  | keepalive (h : DapHdr) (b : DapBody)
  /-- DAP_CLOSE (R394): Ends the session after its earlier requests have been executed. -/
  | dapClose (h : DapHdr) (b : DapBody)
  /-- SESSION_IDLE_TIMEOUT (R394): A session with no valid request for SESSION_IDLE seconds ends. -/
  | sessionIdleTimeout (slot : Fin 8)
  /-- CLOSE_SLOT (R394): A write of CLOSE_SLOT ends the named session. -/
  | closeSlot (h : DapHdr) (b : DapBody)
  /-- REPORT_ACK (R403): The station acknowledges reports up to a SEQ. -/
  | reportAck (h : DapHdr) (b : DapBody)
  /-- REPORT_RESEND (R403): Every 100 ms the device resends unacknowledged reports. -/
  | reportResend (slot : Fin 8)
  /-- ARP_REQUEST (R386): A port answers an ARP request for its address. -/
  | arpRequest (port : EthId) (addr : BitVec 32)
  /-- NEIGHBOUR_SOLICITATION (R386): A port answers an IPv6 Neighbour Solicitation. -/
  | neighbourSolicitation (port : EthId) (addr : BitVec 128)
  /-- ECHO_REQUEST (R386): A port answers an ICMP or ICMPv6 echo request. -/
  | echoRequest (port : EthId) (peer addr : BitVec 128) (data : List Byte)
  /-- FRAME_DISCARD (R386): Any other received frame or packet is discarded and counted. -/
  | frameDiscard (port : EthId) (fcs : Bool)
  /-- APPLY_ETHERNET_PORT (R388): APPLY on 0x1200 or 0x1201 sets media, speed, addresses and VLAN, retraining the link if needed. -/
  | applyEthernetPort (port : EthId) (h : DapHdr) (b : DapBody)
  /-- APPLY_DAP_SESSION (R405): APPLY on 0x1100 sets DAP_PORT and SESSION_IDLE. -/
  | applyDapSession (h : DapHdr) (b : DapBody)
  /-- APPLY_LIFECYCLE (R450): APPLY on 0x1001 performs a listed lifecycle transition with its token. -/
  | applyLifecycle (h : DapHdr) (b : DapBody)
  /-- APPLY_KEYS (R404): APPLY on 0x1002 enrols or removes a key in a slot. -/
  | applyKeys (h : DapHdr) (b : DapBody)
  /-- SERVICE_EXPIRY (R451): After VALID_S seconds the device leaves SERVICE for FIELD. -/
  | serviceExpiry
  /-- ATT_REPORT (R454): A read of ATT_REPORT forms and signs a new attestation report. -/
  | attReport (h : DapHdr) (b : DapBody)
  /-- STREAM_SEG (R411): The device sends the next stretch of the stream ring to the recorder. -/
  | streamSeg
  /-- STREAM_ACK (R411): A DURABLE value frees ring bytes below it. -/
  | streamAck (d : Dgram)
  /-- STREAM_RESUME (R411): The device resends the stream from FROM when it is in range. -/
  | streamResume (d : Dgram)
  /-- SNAP_NOW (R412): SNAP_COMMAND NOW asks the norm-anchor device to fix SNAP_AT at COMMITTED + 2. -/
  | snapNow (h : DapHdr) (b : DapBody)
  /-- SNAP_CANCEL (R415): SNAP_COMMAND CANCEL ends a snapshot and releases its held blocks. -/
  | snapCancel (h : DapHdr) (b : DapBody)
  /-- SNAPSHOT_BOUNDARY (R413): At the snapshot boundary every owned block is held and read in record order. -/
  | snapshotBoundary
  /-- SNAP_SEG (R415): A snapshot segment is encrypted and sent as a SNAP_SEG transfer. -/
  | snapSeg
  /-- SNAP_DONE (R415): The endpoint's answer ends the snapshot as stored or failed. -/
  | snapDone (d : Dgram)
  /-- SNAP_TIMEOUT (R415): With no SNAP_DONE after SNAP_TIMEOUT, the snapshot fails. -/
  | snapTimeout
  /-- APPLY_EXPORT (R421): APPLY on 0x5000 sets the stream and snapshot parameters. -/
  | applyExport (h : DapHdr) (b : DapBody)
  /-- APPLY_KEY_SLOT (R422): APPLY on 0x5100 unwraps a key blob into a slot, or empties it. -/
  | applyKeySlot (h : DapHdr) (b : DapBody)
  /-- ENCRYPT (R418): The cipher engine encrypts a message part under a slot, forming the IV itself. -/
  | encrypt (q : CipherReq) (stop : Option (BitVec 32))
  /-- DECRYPT (R420): The cipher engine decrypts and writes DST only after the tag matches. -/
  | decrypt (q : CipherReq) (stop : Option (BitVec 32))
  /-- UNWRAP (R416): The cipher engine unwraps a key blob into a slot. -/
  | unwrap (slot : Fin 64) (src : BitVec 64)
  /-- CIPHER_RESUME (R419): A suspended message resumes when no urgent request is queued. -/
  | cipherResume
  /-- EVACK (R426): A CP read of EVACK delivers the highest deliverable source and makes it active. -/
  | evack (cp : CpId)
  /-- EVDONE (R427): A CP write of EVDONE completes an active source, or counts as spurious. -/
  | evdone (cp : CpId) (value : Word64)
  /-- EVCP_WRITE (R426): A write of EVCP sets FLOOR, ONLINE and MASK, and routes held occurrences when a CP comes online. -/
  | evcpWrite (cp : CpId) (value : Word64)
  /-- SLEEP (R428): A CP sleep instruction stops the CP until an occurrence is raised at it. -/
  | sleep (cp : CpId)
  /-- APPLY_EVENT_SOURCE (R432): APPLY on 0x2400 sets a source's priority and targets. -/
  | applyEventSource (h : DapHdr) (b : DapBody)
  /-- CLEAR (R436): A write of CLEAR zeroes the Tension figures and histograms. -/
  | clear (h : DapHdr) (b : DapBody)
  /-- APPLY_TENSION (R439): APPLY on 0x6000 sets XCH_TARGET and the Tension export parameters. -/
  | applyTension (h : DapHdr) (b : DapBody)
  /-- FW_STAGE (R449): FW_COMMAND STAGE checks FW_IMAGE and writes it to the inactive bank as pending. -/
  | fwStage (h : DapHdr) (b : DapBody)
  /-- FW_COMMIT (R449): FW_COMMAND COMMIT raises FLOOR_SECVER to RUNNING_SECVER. -/
  | fwCommit (h : DapHdr) (b : DapBody)
  /-- FW_CANCEL (R449): FW_COMMAND CANCEL removes the pending mark. -/
  | fwCancel (h : DapHdr) (b : DapBody)
  /-- GAUGE_SHUTDOWN (R462): GAUGE_COMMAND SHUTDOWN starts the shutdown sequence. -/
  | gaugeShutdown (h : DapHdr) (b : DapBody)
  /-- GAUGE_TEST (R456): GAUGE_COMMAND TEST starts a Gauge run. -/
  | gaugeTest (h : DapHdr) (b : DapBody)
  /-- RUN_CUSTOM (R460): GAUGE_COMMAND RUN_CUSTOM runs a checked custom Gauge programme. -/
  | runCustom (h : DapHdr) (b : DapBody)
  /-- GAUGE_DIE_DONE (R457): A die's test ends and the next die starts, or the record is rewritten after the last. -/
  | gaugeDieDone (d : DieResult)
  /-- GAUGE_TEMPERATURE_STOP (R458): A junction of 100 °C stops the Gauge run at once, leaving RESULT 2. -/
  | gaugeTemperatureStop
  /-- SHUTDOWN_REQ_N (R462): SHUTDOWN_REQ_N low starts the shutdown, which runs to its end. -/
  | shutdownReqN (level : Bool)
  /-- SHUTDOWN_GRACE (R463): At the end of the grace, the job is aborted and the shutdown proceeds. -/
  | shutdownGrace
  /-- INPUT_POWER_GOOD (R475): The input rises above 47.0 V and the module runs its regulators. -/
  | inputPowerGood
  /-- INPUT_UNDERVOLTAGE (R475): The input stays below 45.0 V for more than 100 µs and the module holds itself in reset. -/
  | inputUndervoltage
  /-- INPUT_OVERVOLTAGE (R475): The input rises above 56.0 V; the regulators switch off until it returns below 54.5 V. -/
  | inputOvervoltage
  /-- THERM_ALERT (R477): THERM_ALERT_N is driven or released as the junction or plate crosses its thresholds. -/
  | thermAlert
  /-- THERMAL_HOLD (R477): At a junction of 100 °C, the power loop holds the target at VCORE_MIN until below 97 °C. -/
  | thermalHold
  /-- THERMAL_TRIP (R477): At 110 °C the regulators switch off, THERM_TRIPS rises, FORCE_FULL is set and reset is held. -/
  | thermalTrip
  /-- FL_PROG_N (R472): With RESET_N and FL_PROG_N low, the banks partition is connected to the flash pins. -/
  | flProgN (level : Bool) (straps : BitVec 16)
  /-- I2C_POINTER_WRITE (R473): A one-byte I²C write sets the register pointer. -/
  | i2cPointerWrite (pointer : Byte)
  /-- I2C_READ (R473): An I²C read returns the pointed register and advances the pointer. -/
  | i2cRead
  /-- APPLY_BOARD (R479): APPLY on 0x2003 sets EVENT_EN, EVENT_LEVEL and PPS_OUT_EN from the next period. -/
  | applyBoard (h : DapHdr) (b : DapBody)
  /-- FLIT_LOCK_LOST (R218): A torus port loses flit lock on its receive side and starts a retrain. -/
  | flitLockLost (p : PortId)
  /-- ETHERNET_LINK_UP (R388): An Ethernet port completes training or auto-negotiation and LINK_STATE shows up at 400G, 200G or 100G. -/
  | ethernetLinkUp (port : EthId) (mode : Fin 3)
  /-- ETHERNET_LINK_DOWN (R388): An Ethernet port loses its link, goes to LINK_STATE 0 and counts in LINK_DOWNS. -/
  | ethernetLinkDown (port : EthId)
  /-- INPUT_OVERVOLTAGE_CLEARED (R475): The input falls back below 54.5 V after an overvoltage, and the module runs its regulators again. -/
  | inputOvervoltageCleared
  /-- REGULATORS_IN_REGULATION (R442): The module's own regulators come into regulation and the module stops holding itself in reset. -/
  | regulatorsInRegulation (straps : BitVec 16)
  /-- PPS_OUT_PULSE (R470): While PPS_OUT_EN is 1 and TB_STATE is 1 to 4, PPS_OUT rises at each whole second of the timebase and stays high for 10 ms. -/
  | ppsOutPulse
deriving DecidableEq, Repr

end Sys2Proof
end

