-- ==== Sys2Proof/Config.lean ====
section
/-! DEFINITION. What the manual leaves open: free values, each an opaque constant without a body, so that no proof can
see which value it is; and what each device is made with (factory data, fuses, keys). -/

namespace Sys2Proof.Config

/-- A free number; the step applies it to a counter of the state and advances the counter (DESIGN CHOICE, log 4). -/
opaque freeNat : Nat → Nat
/-- A byte whose value the manual leaves open ("—" of R7): generation of the loss, address (R457, R204, R309) (DESIGN CHOICE, log 4). -/
opaque freeByte : Nat → Nat → Byte
/-- What counter `key` shows after it has passed its width with value `v`; the manual fixes saturation for the counters
of 0x6100 only (R433) (DESIGN CHOICE, log 8). -/
opaque counterPast : Nat → Nat → Nat
/-- Bytes of a nonce, an ephemeral key or another value the device draws (R390, R450): draw number, index (DESIGN CHOICE, log 4). -/
opaque drawn : Nat → Nat → Byte

/-- The increment that the on-collar oscillator adds per cycle (R61), 8 integer and 32 fraction bits of nanoseconds. -/
opaque oscInc : BitVec 40

/-- Module serial number (R404) (DESIGN CHOICE, log 3). -/
opaque serial : List Byte
/-- Certificate of the device key (R454). -/
opaque deviceCert : List Byte
/-- Ed448 identity private key; it never leaves the device. -/
opaque identitySecret : List Byte
/-- X448 wrapping private key number `n` (one per generation, R416, R450). -/
opaque wrapSecret : Nat → List Byte
/-- MAC address of Ethernet port `e` (R387). -/
opaque mac : EthId → Nat
/-- Root key `n` in 0 to 3: state, role, public key (R445, R465). -/
opaque rootKeyState : Nat → Nat
opaque rootKeyRole : Nat → Nat
opaque rootKey : Nat → List Byte

/-- Rows, columns and terms of the tiles into which the Blocking Unit cuts a product of an m × k and a k × n matrix; R289
gives upper bounds only (DESIGN CHOICE, log 17). -/
opaque buTile : Nat → Nat → Nat → Nat × Nat × Nat

/-- Slots of the local ring of feed source `id`, and the length that the 64 bytes before a slot's tokens give; R319 states
neither place. The 64 bytes that the feed writes there for a sample of a length (DESIGN CHOICE, log 54). -/
opaque ringSlots : Nat → Nat
/-- DESIGN CHOICE, log 54. -/
opaque slotLength : List Byte → Nat
/-- DESIGN CHOICE, log 54. -/
opaque slotHead : Nat → Nat → Byte

/-- Bank `n` of the module flash as it left the factory (R444, R446). -/
opaque bank : Nat → List Byte
/-- Digest of the firmware that runs at the reset state (R446; DESIGN CHOICE, log 6). -/
opaque fwDigest : List Byte

end Sys2Proof.Config
end

