-- ==== Sys2Proof/Machine/Sparse.lean ====
section
/-! DEFINITION. Sparse maps in one canonical form: a list of (key, value) pairs with strictly rising keys and no
entry equal to the value an unlisted key has. Memories, register files and object tables are such maps, so equal
contents are equal data. -/

namespace Sys2Proof

/-- A map from numbers, as a list of (key, value) pairs. -/
abbrev Sparse (α : Type) := List (Nat × α)

/-- The value at key `k`; an unlisted key has the value `d k`. -/
def Sparse.get {α : Type} (d : Nat → α) : Sparse α → Nat → α
  | [], k => d k
  | (a, v) :: m, k => if a = k then v else Sparse.get d m k

/-- Remove every entry of key `k` from a list of pairs. -/
def Sparse.erase {α : Type} : Sparse α → Nat → Sparse α
  | [], _ => []
  | (a, v) :: m, k => if a = k then Sparse.erase m k else (a, v) :: Sparse.erase m k

/-- Put `(k, v)` into its place by rising key, replacing an entry of the same key. -/
def Sparse.put {α : Type} : Sparse α → Nat → α → Sparse α
  | [], k, v => [(k, v)]
  | (a, w) :: m, k, v =>
    if k < a then (k, v) :: (a, w) :: m
    else if k = a then (k, v) :: m
    else (a, w) :: Sparse.put m k v

/-- Write `v` at key `k`. Writing the value that an unlisted key has removes the entry. -/
def Sparse.set {α : Type} [DecidableEq α] (d : Nat → α) (m : Sparse α) (k : Nat) (v : α) : Sparse α :=
  if v = d k then Sparse.erase m k else Sparse.put m k v

/-- Keys rise strictly above `lo`. -/
def Sparse.rising {α : Type} : Nat → Sparse α → Bool
  | _, [] => true
  | lo, (a, _) :: m => decide (lo ≤ a) && Sparse.rising (a + 1) m

/-- The canonical form: keys strictly rising, and no entry equal to what its key has when it is not listed. -/
def Sparse.wf {α : Type} [DecidableEq α] (d : Nat → α) (m : Sparse α) : Bool :=
  Sparse.rising 0 m && m.all (fun e => decide (e.2 ≠ d e.1))

/-- Write a list of values at `k`, `k + 1`, and so on. -/
def Sparse.setList {α : Type} [DecidableEq α] (d : Nat → α) : Sparse α → Nat → List α → Sparse α
  | m, _, [] => m
  | m, k, v :: vs => Sparse.setList d (Sparse.set d m k v) (k + 1) vs

/-- Read `n` values from key `k` upward. -/
def Sparse.getList {α : Type} (d : Nat → α) (m : Sparse α) (k n : Nat) : List α :=
  (List.range n).map (fun i => Sparse.get d m (k + i))

/-- Drop every key that `p` holds of. -/
def Sparse.drop {α : Type} (p : Nat → Bool) (m : Sparse α) : Sparse α :=
  m.filter (fun e => !p e.1)

end Sys2Proof
end

