-- ==== Sys2Proof/Machine/Bytes.lean ====
section
/-! DEFINITION. Byte orders and bit fields: values in memory are least significant byte first, fields of messages
most significant byte first (R4 of 00_scope.md). -/

namespace Sys2Proof

/-- The `n` bytes of `v`, least significant first. -/
def leBytes : Nat → Nat → List Byte
  | 0, _ => []
  | n + 1, v => BitVec.ofNat 8 v :: leBytes n (v / 256)

/-- The number whose bytes, least significant first, are `bs`. -/
def ofLe : List Byte → Nat
  | [] => 0
  | b :: bs => b.toNat + 256 * ofLe bs

/-- The `n` bytes of `v`, most significant first. -/
def beBytes (n v : Nat) : List Byte := (leBytes n v).reverse

/-- The number whose bytes, most significant first, are `bs`. -/
def ofBe (bs : List Byte) : Nat := ofLe bs.reverse

/-- `n` bytes of `bs` from offset `o` (shorter at the end of the list). -/
def slice (bs : List Byte) (o n : Nat) : List Byte := (bs.drop o).take n

/-- The field of `n` bytes at `o`, least significant byte first. -/
def leAt (bs : List Byte) (o n : Nat) : Nat := ofLe (slice bs o n)

/-- The field of `n` bytes at `o`, most significant byte first. -/
def beAt (bs : List Byte) (o n : Nat) : Nat := ofBe (slice bs o n)

/-- `n` zero bytes. -/
def zeros (n : Nat) : List Byte := List.replicate n 0

/-- `bs` cut or padded with zeros to `n` bytes. -/
def padTo (n : Nat) (bs : List Byte) : List Byte := bs.take n ++ zeros (n - bs.length)

/-- Every byte of the list is zero. -/
def allZero (bs : List Byte) : Bool := bs.all (fun b => b == 0)

/-- `⌈a / b⌉`. -/
def ceilDiv (a b : Nat) : Nat := (a + b - 1) / b

/-- `a` rounded up to a multiple of `b`. -/
def roundUp (a b : Nat) : Nat := ceilDiv a b * b

/-- Bits `hi` down to `lo` of a number. -/
def bits (v hi lo : Nat) : Nat := v / 2 ^ lo % 2 ^ (hi + 1 - lo)

/-- Bit `i` of a number. -/
def bit (v i : Nat) : Bool := v / 2 ^ i % 2 == 1

/-- The number with bit `i` set. -/
def setBit (v i : Nat) : Nat := v ||| 2 ^ i

/-- The number with bit `i` clear. -/
def clrBit (v i : Nat) : Nat := if bit v i then v - 2 ^ i else v

/-- A two's complement field of `w` bits as an integer. -/
def signed (w v : Nat) : Int := if v < 2 ^ (w - 1) then (v : Int) else (v : Int) - 2 ^ w

/-- The field of `w` bits that holds an integer in two's complement. -/
def unsigned (w : Nat) (i : Int) : Nat := (i % (2 ^ w : Int)).toNat

/-- ASCII text as bytes. -/
def ascii (t : String) : List Byte := t.toList.map (fun c => BitVec.ofNat 8 c.toNat)

/-- XOR of two byte strings, the shorter padded with zeros to the longer (R332). -/
def xorBytes : List Byte → List Byte → List Byte
  | [], ys => ys
  | xs, [] => xs
  | x :: xs, y :: ys => (x ^^^ y) :: xorBytes xs ys

/-- Cut a list into pieces of `n` (`fuel` bounds the pieces). -/
def chunksOf {α : Type} (n : Nat) : Nat → List α → List (List α)
  | 0, _ => []
  | _ + 1, [] => []
  | f + 1, xs => xs.take n :: chunksOf n f (xs.drop n)

/-- The element at `i`, or the default. -/
def nth {α : Type} (d : α) (xs : List α) (i : Nat) : α := xs.getD i d

/-- Replace the element at `i`. -/
def setNth {α : Type} (xs : List α) (i : Nat) (v : α) : List α := xs.set i v

/-- Put `x` into a sorted list without repeats. -/
def insNat (x : Nat) : List Nat → List Nat
  | [] => [x]
  | y :: ys => if x < y then x :: y :: ys else if x = y then y :: ys else y :: insNat x ys

/-- The numbers `lo, lo + 1, …` of `n` of them. -/
def rangeFrom (lo n : Nat) : List Nat := (List.range n).map (lo + ·)

/-- Put an element into a list in order, before the first that it does not follow. -/
def insertBy {α : Type} (le : α → α → Bool) (a : α) : List α → List α
  | [] => [a]
  | b :: bs => if le a b then a :: b :: bs else b :: insertBy le a bs

/-- A list in order; equal elements keep theirs. -/
def sortBy {α : Type} (le : α → α → Bool) (xs : List α) : List α := xs.foldr (insertBy le) []

/-- Numbers in ascending order. -/
def ascending (xs : List Nat) : List Nat := sortBy (fun a b => decide (a ≤ b)) xs

end Sys2Proof
end

