-- ==== Sys2Proof/Machine/Flags.lean ====
section
/-! DEFINITION. The sticky flags of FSTAT (Table 4.9) and the other flag computations: the W1C rule, the residue of an
accumulator, and the tile flags of TSTAT (Table 5.2). -/

namespace Sys2Proof

/-- A set of flags, as the bits of FSTAT 6:0. -/
abbrev Flg := Nat

namespace Fl
/-- Inexact. -/
def NX : Flg := 1
/-- Underflow: tiny after rounding and inexact (R67). -/
def UF : Flg := 2
/-- Overflow. -/
def OF : Flg := 4
/-- Division by zero. -/
def DZ : Flg := 8
/-- Invalid operation. -/
def NV : Flg := 16
/-- A conversion to a short format saturated. -/
def CSAT : Flg := 32
/-- A non-NaN input was converted to NaV under NAVOVF = 1. -/
def NAVG : Flg := 64
end Fl

/-- The flag when the condition holds. -/
def Flg.on (c : Bool) (f : Flg) : Flg := if c then f else 0

/-- Union of a list of flag sets. -/
def Flg.union (fs : List Flg) : Flg := fs.foldl (· ||| ·) 0

/-- Write-one-to-clear: bits of `w` inside `mask` clear (R8, R9). -/
def w1c (mask old w : Nat) : Nat := old &&& ((old ||| (w &&& mask)) ^^^ (w &&& mask))

/-- The 8-bit residue of R117: a 64-bit pattern read as unsigned, modulo 255. -/
def residue (v : Nat) : Nat := v % 2 ^ 64 % 255

namespace Tf
/-- Table 5.2: SAT, IVP, NVP, SEG, SOF, SNX, RXE. -/
def SAT : Nat := 1
def IVP : Nat := 2
def NVP : Nat := 4
def SEG : Nat := 8
def SOF : Nat := 32
def SNX : Nat := 64
def RXE : Nat := 128
/-- The W1C bits of TSTAT. -/
def W1C : Nat := 0xEF
end Tf

end Sys2Proof
end

