-- ==== Sys2Proof/Machine/Float.lean ====
section
/-! DEFINITION. Arithmetic of the long formats binary32, binary16 and W16 (R64, R66 to R69, R76 to R79): encodings,
rounding with tininess detected after rounding, and the IEEE operations of Table 6.3. Values are exact: a magnitude
`m * 2 ^ e` with `m` a natural number. -/

namespace Sys2Proof

/-- A long format: exponent bits, fraction bits. -/
structure FFmt where
  eb : Nat
  fb : Nat
deriving DecidableEq, Repr

/-- Table 4.1. -/
def b32 : FFmt := ⟨8, 23⟩
def b16 : FFmt := ⟨5, 10⟩
def w16 : FFmt := ⟨8, 7⟩

namespace FFmt
def bias (f : FFmt) : Nat := 2 ^ (f.eb - 1) - 1
/-- Exponent of the smallest normal. -/
def emin (f : FFmt) : Int := 1 - (f.bias : Int)
/-- Code of +Inf. -/
def inf (f : FFmt) : Nat := (2 ^ f.eb - 1) * 2 ^ f.fb
/-- Code of the sign bit alone. -/
def sgn (f : FFmt) : Nat := 2 ^ (f.eb + f.fb)
/-- The quiet bit (R68). -/
def qbit (f : FFmt) : Nat := 2 ^ (f.fb - 1)
/-- The default NaN (R68). -/
def dnan (f : FFmt) : Nat := f.inf + f.qbit
/-- All the bits of the format. -/
def bitsN (f : FFmt) : Nat := f.eb + f.fb + 1
end FFmt

/-- A value: a NaN with its code, an infinity, or an exact finite value of magnitude `m * 2 ^ e`. -/
inductive FV where
  | nan (code : Nat)
  | inf (neg : Bool)
  | fin (neg : Bool) (m : Nat) (e : Int)
deriving DecidableEq, Repr

/-- The code is negative. -/
def FFmt.neg (f : FFmt) (c : Nat) : Bool := c / f.sgn % 2 == 1

/-- Read a code (R64). -/
def FFmt.dec (f : FFmt) (c : Nat) : FV :=
  let s := f.neg c
  let e := c / 2 ^ f.fb % 2 ^ f.eb
  let fr := c % 2 ^ f.fb
  if e = 2 ^ f.eb - 1 then (if fr = 0 then .inf s else .nan c)
  else if e = 0 then .fin s fr (f.emin - (f.fb : Int))
  else .fin s (2 ^ f.fb + fr) ((e : Int) - (f.bias : Int) - (f.fb : Int))

/-- The code is a NaN; the code is a signalling NaN. -/
def FFmt.isNaN (f : FFmt) (c : Nat) : Bool := decide (f.inf < c % f.sgn)
def FFmt.isSNaN (f : FFmt) (c : Nat) : Bool := f.isNaN c && decide (c % f.sgn < f.dnan)
/-- A NaN with its quiet bit set. -/
def FFmt.quiet (f : FFmt) (c : Nat) : Nat := c ||| f.qbit

/-- Rounding modes of Table 4.4; stochastic rounding carries its draw (R79). -/
inductive RMode where
  | rne | rtz | rup | rdn | rna
  | sr (draw : Nat)
deriving DecidableEq, Repr

/-- The mode of a code 0 to 4. -/
def RMode.ofCode (c : Nat) : RMode :=
  match c with
  | 1 => .rtz | 2 => .rup | 3 => .rdn | 4 => .rna | _ => .rne

/-- Whether the magnitude `n + rem / 2 ^ k` (0 ≤ rem < 2 ^ k) rounds away from zero to `n + 1`. -/
def RMode.up (md : RMode) (neg : Bool) (n rem k : Nat) : Bool :=
  match md with
  | .rne => decide (2 ^ k < 2 * rem) || (decide (2 * rem = 2 ^ k) && decide (n % 2 = 1))
  | .rna => decide (2 ^ k ≤ 2 * rem)
  | .rtz => false
  | .rup => !neg && decide (rem ≠ 0)
  | .rdn => neg && decide (rem ≠ 0)
  | .sr r => decide (2 ^ 16 ≤ 2 ^ 16 * rem / 2 ^ k + r)

/-- Round the magnitude `m * 2 ^ e` to a multiple of `2 ^ q`: the multiple, and whether it is inexact. -/
def roundAt (md : RMode) (neg : Bool) (m : Nat) (e q : Int) : Nat × Bool :=
  if q ≤ e then (m * 2 ^ (e - q).toNat, false)
  else
    let k := (q - e).toNat
    let n := m / 2 ^ k
    let rem := m % 2 ^ k
    (if md.up neg n rem k then n + 1 else n, decide (rem ≠ 0))

/-- Exponent of a non-zero magnitude: `2 ^ x ≤ m * 2 ^ e < 2 ^ (x + 1)`. -/
def expOf (m : Nat) (e : Int) : Int := (Nat.log2 m : Int) + e

/-- The magnitude code on a grid with `fb` fraction bits and smallest normal exponent `emin`, exponent unbounded above:
the code, inexact, and tiny after rounding (R67, R78). `m` is not zero. -/
def roundGrid (fb : Nat) (emin : Int) (md : RMode) (neg : Bool) (m : Nat) (e : Int) : Nat × Bool × Bool :=
  let x := expOf m e
  let t := if x < emin then emin else x
  let r := roundAt md neg m e (t - (fb : Int))
  let u := roundAt md neg m e (x - (fb : Int))
  let tiny := decide (x < emin) && !(decide (u.1 = 2 ^ (fb + 1)) && decide (x + 1 = emin))
  ((t - emin).toNat * 2 ^ fb + r.1, r.2, tiny)

/-- Overflow result of a long format (R66): ±Inf, or the largest finite code where the mode rounds toward zero. -/
def ovfCode (f : FFmt) (md : RMode) (neg : Bool) : Nat :=
  match md with
  | .rtz => f.inf - 1
  | .rup => if neg then f.inf - 1 else f.inf
  | .rdn => if neg then f.inf else f.inf - 1
  | _ => f.inf

/-- Sign bit of a format. -/
def signCode (f : FFmt) (neg : Bool) : Nat := if neg then f.sgn else 0

/-- Round an exact finite value once to a long format: code and flags (R66, R67). A zero keeps its sign. -/
def encF (f : FFmt) (md : RMode) (neg : Bool) (m : Nat) (e : Int) : Nat × Flg :=
  if m = 0 then (signCode f neg, 0)
  else
    let r := roundGrid f.fb f.emin md neg m e
    if f.inf ≤ r.1 then (signCode f neg + ovfCode f md neg, Fl.OF ||| Fl.NX)
    else (signCode f neg + r.1, Flg.on r.2.1 Fl.NX ||| Flg.on (r.2.1 && r.2.2) Fl.UF)

/-- Signed exact value `z * 2 ^ e`, with the sign of an exact zero given. -/
def encInt (f : FFmt) (md : RMode) (zeroNeg : Bool) (z : Int) (e : Int) : Nat × Flg :=
  if z = 0 then (signCode f zeroNeg, 0) else encF f md (decide (z < 0)) z.natAbs e

/-- The invalid-operation result (R68). -/
def invalid (f : FFmt) : Nat × Flg := (f.dnan, Fl.NV)

/-- NaN rule of R68 over the operands in order: the first NaN quieted, NV for any signalling one. -/
def nanOf (f : FFmt) (cs : List Nat) : Option (Nat × Flg) :=
  match cs.find? f.isNaN with
  | none => none
  | some c => some (f.quiet c, Flg.on (cs.any f.isSNaN) Fl.NV)

/-- Signed integer of a finite value at exponent `q` not above its own. -/
def scaledTo (neg : Bool) (m : Nat) (e q : Int) : Int :=
  let v : Int := (m * 2 ^ (e - q).toNat : Nat)
  if neg then -v else v

/-- Exact sum of two finite values, rounded once. -/
def addFin (f : FFmt) (md : RMode) (na : Bool) (ma : Nat) (ea : Int) (nb : Bool) (mb : Nat) (eb : Int) : Nat × Flg :=
  let q := if ea < eb then ea else eb
  let z := scaledTo na ma ea q + scaledTo nb mb eb q
  let zneg := if ma = 0 ∧ mb = 0 ∧ na = nb then na else decide (md = .rdn)
  encInt f md zneg z q

/-- addition -/
def fadd (f : FFmt) (md : RMode) (a b : Nat) : Nat × Flg :=
  match nanOf f [a, b] with
  | some r => r
  | none =>
    match f.dec a, f.dec b with
    | .inf x, .inf y => if x = y then (a, 0) else invalid f
    | .inf _, _ => (a, 0)
    | _, .inf _ => (b, 0)
    | .fin na ma ea, .fin nb mb eb => addFin f md na ma ea nb mb eb
    | _, _ => invalid f

/-- The code with its sign flipped. -/
def fneg (f : FFmt) (a : Nat) : Nat := if f.neg a then a - f.sgn else a + f.sgn

/-- subtraction: the NaN rule takes the operands as given. -/
def fsub (f : FFmt) (md : RMode) (a b : Nat) : Nat × Flg :=
  match nanOf f [a, b] with
  | some r => r
  | none => fadd f md a (fneg f b)

/-- multiplication -/
def fmul (f : FFmt) (md : RMode) (a b : Nat) : Nat × Flg :=
  match nanOf f [a, b] with
  | some r => r
  | none =>
    let s := f.neg a != f.neg b
    match f.dec a, f.dec b with
    | .fin _ ma ea, .fin _ mb eb => encF f md s (ma * mb) (ea + eb)
    | .inf _, .fin _ mb _ => if mb = 0 then invalid f else (signCode f s + f.inf, 0)
    | .fin _ ma _, .inf _ => if ma = 0 then invalid f else (signCode f s + f.inf, 0)
    | _, _ => (signCode f s + f.inf, 0)

/-- An exact quotient's leading bits with a sticky bit below them, enough for one correct rounding. -/
def quot (m d : Nat) (extra : Nat) : Nat × Nat :=
  let k := Nat.log2 d + extra
  let q := m * 2 ^ k / d
  (4 * q + (if m * 2 ^ k % d = 0 then 0 else 1), k + 2)

/-- division -/
def fdiv (f : FFmt) (md : RMode) (a b : Nat) : Nat × Flg :=
  match nanOf f [a, b] with
  | some r => r
  | none =>
    let s := f.neg a != f.neg b
    match f.dec a, f.dec b with
    | .inf _, .inf _ => invalid f
    | .inf _, _ => (signCode f s + f.inf, 0)
    | _, .inf _ => (signCode f s, 0)
    | .fin _ ma ea, .fin _ mb eb =>
      if mb = 0 then (if ma = 0 then invalid f else (signCode f s + f.inf, Fl.DZ))
      else
        let q := quot ma mb (f.fb + 4)
        encF f md s q.1 (ea - eb - (q.2 : Int))
    | _, _ => invalid f

/-- Integer square root by bits from bit `i` down. -/
def isqrtFrom (n : Nat) : Nat → Nat → Nat
  | 0, r => r
  | i + 1, r => isqrtFrom n i (if (r + 2 ^ i) * (r + 2 ^ i) ≤ n then r + 2 ^ i else r)

/-- `⌊√n⌋`. -/
def isqrt (n : Nat) : Nat := isqrtFrom n (Nat.log2 n / 2 + 1) 0

/-- squareRoot -/
def fsqrt (f : FFmt) (md : RMode) (a : Nat) : Nat × Flg :=
  match nanOf f [a] with
  | some r => r
  | none =>
    match f.dec a with
    | .inf s => if s then invalid f else (a, 0)
    | .fin s m e =>
      if m = 0 then (a, 0)
      else if s then invalid f
      else
        let k : Nat := 2 * (f.fb + 4)
        let odd : Nat := if e % 2 = 0 then 0 else 1
        let n := m * 2 ^ (k + odd)
        let r := isqrt n
        encF f md false (4 * r + (if r * r = n then 0 else 1)) ((e - (odd : Int) - (k : Int)) / 2 - 2)
    | .nan _ => invalid f

/-- fusedMultiplyAdd: `a * b + c` rounded once (R68 for its NaN rules). -/
def ffma (f : FFmt) (md : RMode) (a b c : Nat) : Nat × Flg :=
  let s := f.neg a != f.neg b
  let zeroInf : Bool :=
    match f.dec a, f.dec b with
    | .inf _, .fin _ mb _ => mb == 0
    | .fin _ ma _, .inf _ => ma == 0
    | _, _ => false
  match nanOf f [a, b, c] with
  | some r => (r.1, r.2 ||| Flg.on zeroInf Fl.NV)
  | none =>
    if zeroInf then invalid f
    else
      match f.dec a, f.dec b, f.dec c with
      | .fin _ ma ea, .fin _ mb eb, .fin nc mc ec => addFin f md s (ma * mb) (ea + eb) nc mc ec
      | .fin .., .fin .., _ => (c, 0)
      | _, _, .inf nc => if s = nc then (c, 0) else invalid f
      | _, _, _ => (signCode f s + f.inf, 0)

/-- Order of the numbers of a format with -0 below +0. -/
def totalKey (f : FFmt) (c : Nat) : Int :=
  if f.neg c then -((c % f.sgn : Nat) : Int) - 1 else ((c % f.sgn : Nat) : Int)

/-- Order of the numbers of a format with the two zeros equal. -/
def numKey (f : FFmt) (c : Nat) : Int :=
  if f.neg c then -((c % f.sgn : Nat) : Int) else ((c % f.sgn : Nat) : Int)

/-- The smaller, or the larger, of two numbers. -/
def pick (f : FFmt) (larger : Bool) (a b : Nat) : Nat :=
  if larger then (if totalKey f a < totalKey f b then b else a)
  else (if totalKey f b < totalKey f a then b else a)

/-- minimum and maximum: NaN-propagating. -/
def fminmax (f : FFmt) (larger : Bool) (a b : Nat) : Nat × Flg :=
  match nanOf f [a, b] with
  | some r => r
  | none => (pick f larger a b, 0)

/-- minimumNumber and maximumNumber: a number wins over a NaN (R68). -/
def fminmaxNum (f : FFmt) (larger : Bool) (a b : Nat) : Nat × Flg :=
  let fl := Flg.on (f.isSNaN a || f.isSNaN b) Fl.NV
  if f.isNaN a then (if f.isNaN b then (f.quiet a, fl) else (b, fl))
  else if f.isNaN b then (a, fl)
  else (pick f larger a b, 0)

/-- roundToIntegralExact -/
def frint (f : FFmt) (md : RMode) (a : Nat) : Nat × Flg :=
  match nanOf f [a] with
  | some r => r
  | none =>
    match f.dec a with
    | .fin s m e =>
      if 0 ≤ e then (a, 0)
      else
        let r := roundAt md s m e 0
        ((encF f .rne s r.1 0).1, Flg.on r.2 Fl.NX)
    | _ => (a, 0)

/-- A NaN moved between long formats: sign kept, top fraction bits kept, quiet bit set (Table 4.5). -/
def moveNaN (src dst : FFmt) (c : Nat) : Nat :=
  let fr := c % 2 ^ src.fb
  let fr' := if src.fb ≤ dst.fb then fr * 2 ^ (dst.fb - src.fb) else fr / 2 ^ (src.fb - dst.fb)
  dst.quiet (signCode dst (src.neg c) + dst.inf + fr')

/-- convertFormat between long formats (Table 4.5). -/
def fcvt (src dst : FFmt) (md : RMode) (c : Nat) : Nat × Flg :=
  match src.dec c with
  | .nan _ => (moveNaN src dst c, Flg.on (src.isSNaN c) Fl.NV)
  | .inf s => (signCode dst s + dst.inf, 0)
  | .fin s m e => encF dst md s m e

/-- I32 to binary32 (Table 4.5). -/
def i32ToF (md : RMode) (v : Nat) : Nat × Flg := encInt b32 md false (signed 32 v) 0

/-- binary32 to I32 (Table 4.5): a NaN gives 0, a value out of range the nearer end, both with NV. -/
def fToI32 (md : RMode) (c : Nat) : Nat × Flg :=
  match b32.dec c with
  | .nan _ => (0, Fl.NV)
  | .inf s => (if s then 2 ^ 31 else 2 ^ 31 - 1, Fl.NV)
  | .fin s m e =>
    let r := roundAt md s m e 0
    if s then (if 2 ^ 31 < r.1 then (2 ^ 31, Fl.NV) else (unsigned 32 (-(r.1 : Int)), Flg.on r.2 Fl.NX))
    else (if 2 ^ 31 ≤ r.1 then (2 ^ 31 - 1, Fl.NV) else (r.1, Flg.on r.2 Fl.NX))

/-- Comparison outcome of two codes (R138). -/
inductive Ord4 where
  | lt | eq | gt | un
deriving DecidableEq, Repr

/-- Quiet comparison by value; NV only for a signalling NaN. -/
def fcmp (f : FFmt) (a b : Nat) : Ord4 × Flg :=
  if f.isNaN a || f.isNaN b then (.un, Flg.on (f.isSNaN a || f.isSNaN b) Fl.NV)
  else if numKey f a < numKey f b then (.lt, 0)
  else if numKey f b < numKey f a then (.gt, 0)
  else (.eq, 0)

/-- A predicate of CMP (Table 7.9) holds of an outcome. -/
def Ord4.holds (o : Ord4) (pred : Nat) : Bool :=
  match pred with
  | 0 => o == .eq
  | 1 => o != .eq
  | 2 => o == .lt
  | 3 => o == .lt || o == .eq
  | 4 => o == .gt
  | 5 => o == .gt || o == .eq
  | 6 => o == .un
  | _ => o != .un

end Sys2Proof
end

