-- ==== Sys2Proof/Machine/Formats.lean ====
section
/-! DEFINITION. The short formats V8, G8, BQ8, the block-scaled forms BV8 and BQ8, stochastic rounding's generator, and
the conversion paths of Table 4.5 (R64, R65, R70 to R86). -/

namespace Sys2Proof

/-- A short format: exponent bits, fraction bits, bias, signed. -/
structure SFmt where
  eb : Nat
  fb : Nat
  bias : Nat
  sg : Bool
deriving DecidableEq, Repr

/-- Table 4.1. -/
def v8 : SFmt := ⟨4, 3, 7, true⟩
def g8 : SFmt := ⟨5, 2, 15, true⟩
def bq8 : SFmt := ⟨4, 4, 7, false⟩

namespace SFmt
/-- The NaV code (Table 4.2). -/
def nav (f : SFmt) : Nat := if f.sg then 0x80 else 0xFF
/-- The largest finite magnitude code (Table 4.3). -/
def maxMag (f : SFmt) : Nat := if f.sg then 0x7F else 0xFE
def emin (f : SFmt) : Int := 1 - (f.bias : Int)
end SFmt

/-- Read a short code: none for NaV, else sign, magnitude and exponent (R65). -/
def SFmt.dec (f : SFmt) (c : Nat) : Option (Bool × Nat × Int) :=
  if c % 256 = f.nav then none
  else
    let s := f.sg && decide (128 ≤ c % 256)
    let mag := if f.sg then c % 128 else c % 256
    let e := mag / 2 ^ f.fb
    let fr := mag % 2 ^ f.fb
    if e = 0 then some (s, fr, f.emin - (f.fb : Int))
    else some (s, 2 ^ f.fb + fr, (e : Int) - (f.bias : Int) - (f.fb : Int))

/-- Exact widening to binary32; NaV gives the default NaN with no flag (R70). `sc` is a block scale. An element beyond
binary32 gives ±Inf with OF and NX (Table 4.5). -/
def SFmt.widen (f : SFmt) (sc : Int) (c : Nat) : Nat × Flg :=
  match f.dec c with
  | none => (b32.dnan, 0)
  | some (s, m, e) => if m = 0 then (0, 0) else encF b32 .rne s m (e + sc)

/-- Overflow outcome of a short format (Table 4.7). -/
def shortOvf (f : SFmt) (navovf neg : Bool) : Nat × Flg :=
  if navovf then (f.nav, Fl.NAVG)
  else ((if f.sg && neg then 0x80 else 0) + f.maxMag, Fl.CSAT)

/-- Convert the binary32 code `c`, times `2 ^ -sc`, into a short format (Table 4.7). `blk`: an element of a block-scaled
group, whose stochastic round-up past the largest code is clamped without a flag of its own (R74). -/
def toShort (f : SFmt) (md : RMode) (navovf blk : Bool) (sc : Int) (c : Nat) : Nat × Flg :=
  match b32.dec c with
  | .nan _ => (f.nav, Flg.on (b32.isSNaN c) Fl.NV)
  | .inf s => if !f.sg && s then (f.nav, Fl.NV) else shortOvf f navovf s
  | .fin s m e =>
    if m = 0 then (0, 0)
    else if !f.sg && s then (f.nav, Fl.NV)
    else
      let r := roundGrid f.fb f.emin md s m (e - sc)
      if f.maxMag < r.1 then
        (if blk then ((if f.sg && s then 0x80 else 0) + f.maxMag, Fl.NX)
         else ((shortOvf f navovf s).1, Fl.OF ||| Fl.NX ||| (shortOvf f navovf s).2))
      else ((if r.1 = 0 then 0 else if f.sg && s then 0x80 + r.1 else r.1),
            Flg.on r.2.1 Fl.NX ||| Flg.on (r.2.1 && r.2.2) Fl.UF)

/-- Largest finite magnitude code of a list of binary32 codes. -/
def maxFinite (xs : List Nat) : Nat :=
  xs.foldl (fun a c => let g := c % 2 ^ 31; if g < b32.inf && a < g then g else a) 0

/-- The shared scale of a group (R73). `fb` is 3 for BV8 and 4 for BQ8. -/
def groupScale (fb : Nat) (xs : List Nat) : Int :=
  match b32.dec (maxFinite xs) with
  | .fin _ m e =>
    if m = 0 then 0
    else
      let x := expOf m e
      let r := (roundAt .rne false m e (x - (fb : Int))).1
      let s := if 8 * r ≤ 15 * 2 ^ fb then x - 8 else x - 7
      if s < -128 then -128 else s
  | _ => 0

/-! ### The stochastic-rounding generator (R80, R81) -/

/-- One advance of SRSTATE. -/
def srAdvance (b : Nat) : Nat :=
  let f := (b / 2 ^ 63 + b / 2 ^ 62 + b / 2 ^ 60 + b / 2 ^ 59) % 2
  b * 2 % 2 ^ 64 + f

/-- `n` advances. -/
def srAdvances : Nat → Nat → Nat
  | 0, b => b
  | n + 1, b => srAdvances n (srAdvance b)

/-- A draw: the state after 16 advances, and its value. -/
def srDraw (b : Nat) : Nat × Nat := let b' := srAdvances 16 b; (b', b' % 2 ^ 16)

/-- The state after `n` draws. -/
def srAfter : Nat → Nat → Nat
  | 0, b => b
  | n + 1, b => srAfter n (srDraw b).1

/-- What SRSTATE stores for a value written or loaded (R80). -/
def srStore (v : Nat) : Nat := if v % 2 ^ 64 = 0 then 1 else v % 2 ^ 64

/-- A rounding selection: a static mode, or stochastic rounding that draws per element. -/
inductive RSel where
  | mode (m : RMode)
  | sr
deriving DecidableEq, Repr

/-- Convert a list of codes by `cv`, drawing once per element under stochastic rounding (R81): results, flags, SRSTATE. -/
def convList (sel : RSel) (cv : RMode → Nat → Nat × Flg) : Nat → List Nat → List Nat × Flg × Nat
  | sr, [] => ([], 0, sr)
  | sr, x :: xs =>
    let d := match sel with
      | .mode m => (m, sr)
      | .sr => (RMode.sr (srDraw sr).2, (srDraw sr).1)
    let r := cv d.1 x
    let t := convList sel cv d.2 xs
    (r.1 :: t.1, r.2 ||| t.2.1, t.2.2)

/-- Cut a list into groups of 32. -/
def groups32 (xs : List Nat) : List (List Nat) := chunksOf 32 xs.length xs

/-- Convert binary32 codes into a block-scaled form: element codes, scale bytes, flags, SRSTATE (R72 to R74). -/
def toBlocks (f : SFmt) (navovf : Bool) (sel : RSel) : Nat → List (List Nat) → List Nat × List Nat × Flg × Nat
  | sr, [] => ([], [], 0, sr)
  | sr, g :: gs =>
    let s := groupScale f.fb g
    let r := convList sel (fun md c => toShort f md navovf true s c) sr g
    let t := toBlocks f navovf sel r.2.2 gs
    (r.1 ++ t.1, unsigned 8 s :: t.2.1, r.2.1 ||| t.2.2.1, t.2.2.2)

/-- Widen block-scaled codes with their scale bytes. -/
def fromBlocks (f : SFmt) (codes scales : List Nat) : List Nat × Flg :=
  let r := (List.range codes.length).map
    (fun i => f.widen (signed 8 (nth 0 scales (i / 32))) (nth 0 codes i))
  (r.map Prod.fst, Flg.union (r.map Prod.snd))

/-! ### Format codes (Table 7.2) -/

/-- Width in bytes of a format code; BV8 and BQ8 count their element bytes. -/
def fmtWidth (c : Nat) : Nat :=
  match c with
  | 2 => 2 | 3 => 2 | 4 => 4 | 5 => 4 | _ => 1

/-- The long format of a code 2, 3 or 4. -/
def longFmt (c : Nat) : FFmt := if c = 2 then b16 else if c = 3 then w16 else b32

/-- Widen one element of format 0 to 4 to binary32 exactly, with the flags of Table 4.5. -/
def widenEl (fmt c : Nat) : Nat × Flg :=
  match fmt with
  | 0 => v8.widen 0 c
  | 1 => g8.widen 0 c
  | 2 => fcvt b16 b32 .rne c
  | 3 => fcvt w16 b32 .rne c
  | _ => (c, 0)

/-- Convert one binary32 code to format 0 to 5. -/
def narrowEl (fmt : Nat) (navovf : Bool) (md : RMode) (c : Nat) : Nat × Flg :=
  match fmt with
  | 0 => toShort v8 md navovf false 0 c
  | 1 => toShort g8 md navovf false 0 c
  | 2 => fcvt b32 b16 md c
  | 3 => fcvt b32 w16 md c
  | 5 => fToI32 md c
  | _ => (c, 0)

/-- The rounding selection of a conversion: RM code, FMODE, destination format code (Table 4.4, R87). -/
def cvtSel (rm fmode fmt : Nat) : RSel :=
  let short := fmt == 0 || fmt == 1 || fmt == 7 || fmt == 8
  match rm with
  | 5 => .sr
  | 7 =>
    if short then
      (match fmode / 32 % 4 with
       | 1 => .mode .rtz
       | 2 => .sr
       | _ => .mode .rne)
    else .mode (RMode.ofCode (fmode % 8))
  | c => .mode (RMode.ofCode c)

/-- The rounding of an arithmetic operation: RM 0 to 4 static, 7 FMODE.RND (R77, R161). -/
def opMode (rm fmode : Nat) : RMode := if rm = 7 then RMode.ofCode (fmode % 8) else RMode.ofCode rm

/-- FMODE.NAVOVF. -/
def navOvf (fmode : Nat) : Bool := bit fmode 7

/-- Elements of width `w` from bytes, least significant byte first (R4). -/
def elemsOf (w : Nat) : Nat → List Byte → List Nat
  | 0, _ => []
  | n + 1, bs => ofLe (bs.take w) :: elemsOf w n (bs.drop w)

/-- Bytes of elements of width `w`. -/
def bytesOfElems (w : Nat) (xs : List Nat) : List Byte := xs.flatMap (fun x => leBytes w x)

end Sys2Proof
end

