-- ==== Sys2Proof/Machine/Approx.lean ====
section
/-! DEFINITION. The transcendental approximations of R135 to R137 and the activation functions 2 and 3 of R111. The manual
fixes bounds, exact results and special cases, and leaves the bits inside a bound open: each result is a free value,
taken where it lies inside the bound, and otherwise the correctly rounded value stands in for it (DESIGN CHOICE, log 7). Real functions
are evaluated in fixed point with 200 fraction bits. -/

namespace Sys2Proof

/-- Free bits of an approximation: operation code, input code. -/
opaque Config.approx : Nat → Nat → Nat
/-- Free flags of a result whose flags the manual does not give: operation code, input code. -/
opaque Config.approxFlags : Nat → Nat → Nat

/-- Fixed point one. -/
def fixOne : Nat := 2 ^ 200
/-- ln 2, log2 e and π in fixed point. -/
def fixLn2 : Nat := 0xb17217f7d1cf79abc9e3b39803f2f6af40f343267298b62d8a
def fixLog2e : Nat := 0x171547652b82fe1777d0ffda0d23a7d11d6aef551bad2b4b116
def fixPi : Nat := 0x3243f6a8885a308d313198a2e03707344a4093822299f31d008

/-- Taylor terms of e^t: fuel, next index, present term, sum. -/
def taylorExp (t : Nat) : Nat → Nat → Nat → Nat → Nat
  | 0, _, _, acc => acc
  | n + 1, k, term, acc => taylorExp t n (k + 1) (term * t / fixOne / (k + 1)) (acc + term)

/-- 2^z for a fixed-point z. -/
def exp2Fix (z : Int) : Nat :=
  let n := z / (fixOne : Int)
  let f := (z % (fixOne : Int)).toNat
  let m := taylorExp (f * fixLn2 / fixOne) 70 0 fixOne 0
  if 0 ≤ n then m * 2 ^ n.toNat else m / 2 ^ (-n).toNat

/-- e^z for a fixed-point z. -/
def expFix (z : Int) : Nat := exp2Fix (z * (fixLog2e : Int) / (fixOne : Int))

/-- Terms of atanh: z, z², fuel, index, power, sum. -/
def atanhTerms (z2 : Nat) : Nat → Nat → Nat → Nat → Nat
  | 0, _, _, acc => acc
  | n + 1, k, pw, acc => atanhTerms z2 n (k + 1) (pw * z2 / fixOne) (acc + pw / (2 * k + 1))

/-- ln v for a positive fixed-point v. -/
def lnFix (v : Nat) : Int :=
  let k : Int := (Nat.log2 v : Int) - 200
  let t := if 0 ≤ k then v / 2 ^ k.toNat else v * 2 ^ (-k).toNat
  let z := (t - fixOne) * fixOne / (t + fixOne)
  2 * (atanhTerms (z * z / fixOne) 75 0 z 0 : Int) + k * (fixLn2 : Int)

/-- Taylor terms of sin (from the first power) or cos (from the zeroth): fuel, next power, term, sign, sum. -/
def taylorTrig (r2 : Nat) : Nat → Nat → Nat → Bool → Int → Int
  | 0, _, _, _, acc => acc
  | n + 1, k, term, ng, acc =>
    taylorTrig r2 n (k + 2) (term * r2 / fixOne / ((k + 1) * (k + 2))) (!ng)
      (if ng then acc - (term : Int) else acc + (term : Int))

/-- sin or cos of a fixed-point z. -/
def trigFix (cosine : Bool) (z : Int) : Int :=
  let r := (z % (2 * (fixPi : Int))).toNat
  let r2 := r * r / fixOne
  if cosine then taylorTrig r2 45 0 fixOne false 0 else taylorTrig r2 45 1 r false 0

/-- The exact input in fixed point. -/
def fixOf (neg : Bool) (m : Nat) (e : Int) : Int :=
  let v : Int := if 0 ≤ e + 200 then (m * 2 ^ (e + 200).toNat : Nat) else (m / 2 ^ (-(e + 200)).toNat : Nat)
  if neg then -v else v

/-- One ulp of binary32 at the exact value `y`, in fixed point (R135). -/
def ulpFix (y : Int) : Nat :=
  let a := y.natAbs
  if a < 2 ^ 74 then 2 ^ 51 else 2 ^ (Nat.log2 a - 23)

/-- The binary32 code lies within `bnd` (fixed point) of `y` (DESIGN CHOICE, log 7). -/
def within (y : Int) (bnd : Nat) (c : Nat) : Bool :=
  match b32.dec c with
  | .fin s m e => decide ((fixOf s m e - y).natAbs ≤ bnd)
  | _ => false

/-- The free result of `op` at input `x` inside the bound around `y` (DESIGN CHOICE, log 7). -/
def freeNear (op x : Nat) (y : Int) (bnd : Nat) : Nat :=
  let c := Config.approx op x % 2 ^ 32
  if within y bnd c then c else (encInt b32 .rne false y (-200)).1

/-- `x` compared with the rational `a / b`: x < a/b. -/
def ltRat (x : Int) (a : Int) (b : Nat) : Bool := decide (x * (b : Int) < a * (fixOne : Int))

/-- The magnitude is a power of two; its exponent. -/
def pow2Exp (m : Nat) (e : Int) : Option Int := if m = 2 ^ Nat.log2 m then some (expOf m e) else none

/-- An integral value. -/
def integral (m : Nat) (e : Int) : Bool := decide (0 ≤ e) || m % 2 ^ (-e).toNat == 0

/-- Flags of an ordinary result: NX, UF where it is tiny (R67), OF where it lies beyond the largest finite value. -/
def approxFlg (c : Nat) : Flg :=
  Fl.NX ||| Flg.on (decide (c % 2 ^ 31 < 2 ^ 23)) Fl.UF ||| Flg.on (decide (c % 2 ^ 31 = b32.inf)) Fl.OF

/-- An ordinary result: inside `k` ulp, inexact. -/
def inUlps (op x : Nat) (y : Int) (k : Nat) : Nat × Flg :=
  let c := freeNear op x y (k * ulpFix y)
  (c, approxFlg c)

/-- ±Inf and one of the operation codes 0x20 to 0x29 of Table 7.9 on binary32 (Table 6.5) (DESIGN CHOICE, log 7). -/
def approx32 (op x : Nat) : Nat × Flg :=
  match b32.dec x with
  | .nan _ => (b32.quiet x, Flg.on (b32.isSNaN x) Fl.NV)
  | .inf s =>
    match op with
    | 0x20 | 0x21 => (if s then 0 else b32.inf, 0)
    | 0x22 | 0x23 => if s then invalid b32 else (b32.inf, 0)
    | 0x24 => (signCode b32 s, 0)
    | 0x25 => if s then invalid b32 else (0, 0)
    | 0x26 => (signCode b32 s + 0x3F800000, 0)
    | 0x27 => (if s then 0 else 0x3F800000, 0)
    | _ => invalid b32
  | .fin s m e =>
    let z := fixOf s m e
    let one : Int := (fixOne : Int)
    match op with
    | 0x20 =>
      if !ltRat z 128 1 then (b32.inf, Fl.OF ||| Fl.NX)
      else if ltRat z (-150) 1 then (0, Fl.UF ||| Fl.NX)
      else if integral m e && !ltRat z (-149) 1 then ((encF b32 .rne false 1 (z / one)).1, 0)
      else inUlps op x (exp2Fix z : Int) 1
    | 0x21 =>
      if m = 0 then (0x3F800000, 0)
      else if decide (8872284 * one < z * 100000) then (b32.inf, Fl.OF ||| Fl.NX)
      else if ltRat z (-10397208) 100000 then (0, Fl.UF ||| Fl.NX)
      else inUlps op x (expFix z : Int) 2
    | 0x22 =>
      if m = 0 then (signCode b32 true + b32.inf, Fl.DZ)
      else if s then invalid b32
      else match pow2Exp m e with
        | some k => ((encInt b32 .rne false k 0).1, 0)
        | none => inUlps op x (lnFix z.toNat * one / (fixLn2 : Int)) 1
    | 0x23 =>
      if m = 0 then (signCode b32 true + b32.inf, Fl.DZ)
      else if s then invalid b32
      else if z = one then (0, 0)
      else inUlps op x (lnFix z.toNat) 2
    | 0x24 =>
      if m = 0 then (signCode b32 s + b32.inf, Fl.DZ)
      else
        let y : Int := one * one / z
        match pow2Exp m e with
        | some k =>
          if -127 ≤ k && k ≤ 126 then ((encF b32 .rne s 1 (-k)).1, 0)
          else if k < -127 then (Config.approx op x % 2 ^ 32, Config.approxFlags op x % 32)
          else inUlps op x y 1
        | none =>
          if (2 ^ 328 : Nat) ≤ y.natAbs then (Config.approx op x % 2 ^ 32, Config.approxFlags op x % 32)
          else inUlps op x y 1
    | 0x25 =>
      if m = 0 then (signCode b32 s + b32.inf, Fl.DZ)
      else if s then invalid b32
      else
        match pow2Exp m e with
        | some k =>
          if k % 2 = 0 then ((encF b32 .rne false 1 (-(k / 2))).1, 0)
          else inUlps op x (isqrt (fixOne * fixOne * fixOne / z.toNat) : Int) 1
        | none => inUlps op x (isqrt (fixOne * fixOne * fixOne / z.toNat) : Int) 1
    | 0x26 =>
      if m = 0 then (x, 0)
      else if !ltRat (z.natAbs : Int) 91 10 then (signCode b32 s + 0x3F800000, Fl.NX)
      else
        let q : Int := (expFix (-(2 * (z.natAbs : Int))) : Int)
        let y := (one - q) * one / (one + q)
        inUlps op x (if s then -y else y) 2
    | 0x27 =>
      if m = 0 then (0x3F000000, 0)
      else if !ltRat z 174 10 then (0x3F800000, Fl.NX)
      else if ltRat z (-10397208) 100000 then (0, Fl.UF ||| Fl.NX)
      else
        let q : Int := (expFix (-(z.natAbs : Int)) : Int)
        inUlps op x (if s then q * one / (one + q) else one * one / (one + q)) 2
    | _ =>
      if (65536 : Int) * one < (z.natAbs : Int) then invalid b32
      else if m = 0 then (if op = 0x28 then (x, 0) else (0x3F800000, 0))
      else
        let y := trigFix (op == 0x29) z
        let b := 2 * ulpFix y
        let c := freeNear op x y (if b < 2 ^ 176 then 2 ^ 176 else b)
        (c, approxFlg c)

/-- An approximation in binary32, binary16 or W16 (R137). -/
def approxIn (f : FFmt) (op x : Nat) : Nat × Flg :=
  if f = b32 then approx32 op x
  else
    let w := fcvt f b32 .rne x
    let r := approx32 op w.1
    let o := fcvt b32 f .rne r.1
    (o.1, w.2 ||| r.2 ||| o.2)

/-- Activation 2, the smooth rectifier (Table 5.6): absolute error at most 2^-14. -/
def smoothRect (x : Nat) : Nat × Flg :=
  match b32.dec x with
  | .nan _ => (b32.quiet x, Flg.on (b32.isSNaN x) Fl.NV)
  | .inf s => (if s then 0 else b32.inf, 0)
  | .fin s m e =>
    let z := fixOf s m e
    if !ltRat z 16 1 then (x, 0)
    else if ltRat z (-16) 1 then (0, 0)
    else
      (freeNear 0x102 x (lnFix (fixOne + expFix z)) (2 ^ 186), Config.approxFlags 0x102 x % 2 * Fl.NX)

/-- The table sigmoid of activation 3: absolute error at most 2^-16. -/
def tableSigm (x : Nat) : Nat :=
  match b32.dec x with
  | .fin s m e =>
    let q : Int := (expFix (-((fixOf s m e).natAbs : Int)) : Int)
    let one : Int := (fixOne : Int)
    freeNear 0x103 x (if s then q * one / (one + q) else one * one / (one + q)) (2 ^ 184) % 2 ^ 31
  | _ => 0x3F800000

/-- Activation 3, the sigmoid-weighted linear function (Table 5.6). -/
def sigmLinear (md : RMode) (x : Nat) : Nat × Flg :=
  match b32.dec x with
  | .nan _ => (b32.quiet x, Flg.on (b32.isSNaN x) Fl.NV)
  | .inf s => (if s then 0 else b32.inf, 0)
  | .fin .. => fmul b32 md x (tableSigm x)

/-- The activation menu of Table 5.6 on a binary32 value. -/
def activation (act : Nat) (md : RMode) (x : Nat) : Nat × Flg :=
  if act ≠ 0 ∧ b32.isNaN x then (b32.quiet x, Flg.on (b32.isSNaN x) Fl.NV)
  else
    match act with
    | 1 => (if b32.neg x || x % 2 ^ 31 == 0 then 0 else x, 0)
    | 2 => smoothRect x
    | 3 => sigmLinear md x
    | 4 => fmul b32 md x x
    | _ => (x, 0)

end Sys2Proof
end

