-- ==== Sys2Proof/Machine/Crypto.lean ====
section
/-! DEFINITION. The public algorithms the manual names: CRC-32C, SHAKE256 of FIPS 202, Ed448 and Ed448ph of RFC 8032 with
an empty context (R183, R391, R445), X448 of RFC 7748 (R390, R416), and AES-256-GCM (R389, R417). Every function is total;
a malformed key or signature verifies as false. -/

namespace Sys2Proof

/-! ### CRC-32C -/

/-- One bit of the reflected CRC-32C (polynomial 0x82F63B78). -/
def crcBit (c : Nat) : Nat := if c % 2 = 1 then (c / 2) ^^^ 0x82F63B78 else c / 2

/-- One byte. -/
def crcByte (c : Nat) (b : Byte) : Nat :=
  (List.range 8).foldl (fun c _ => crcBit c) (c ^^^ b.toNat)

/-- CRC-32C of a byte string. -/
def crc32c (bs : List Byte) : Nat := bs.foldl crcByte 0xFFFFFFFF ^^^ 0xFFFFFFFF

/-! ### SHAKE256 -/

/-- Rotate a 64-bit lane left. -/
def rotl64 (v n : Nat) : Nat := (v * 2 ^ (n % 64) % 2 ^ 64) ||| (v / 2 ^ (64 - n % 64))

/-- Round constants of Keccak-f[1600]. -/
def keccakRC : List Nat := [
  0x0000000000000001, 0x0000000000008082, 0x800000000000808A, 0x8000000080008000, 0x000000000000808B,
  0x0000000080000001, 0x8000000080008081, 0x8000000000008009, 0x000000000000008A, 0x0000000000000088,
  0x0000000080008009, 0x000000008000000A, 0x000000008000808B, 0x800000000000008B, 0x8000000000008089,
  0x8000000000008003, 0x8000000000008002, 0x8000000000000080, 0x000000000000800A, 0x800000008000000A,
  0x8000000080008081, 0x8000000000008080, 0x0000000080000001, 0x8000000080008008]

/-- Rotation offset of lane x + 5 y. -/
def keccakRot : List Nat := [0, 1, 62, 28, 27, 36, 44, 6, 55, 20, 3, 10, 43, 25, 39, 41, 45, 15, 21, 8, 18, 2, 61, 56, 14]

/-- One round on the 25 lanes. -/
def keccakRound (a : List Nat) (rc : Nat) : List Nat :=
  let ln := fun (l : List Nat) (i : Nat) => l.getD i 0
  let c := (List.range 5).map (fun x => ln a x ^^^ ln a (x + 5) ^^^ ln a (x + 10) ^^^ ln a (x + 15) ^^^ ln a (x + 20))
  let d := (List.range 5).map (fun x => ln c ((x + 4) % 5) ^^^ rotl64 (ln c ((x + 1) % 5)) 1)
  let t := (List.range 25).map (fun i => ln a i ^^^ ln d (i % 5))
  -- b[y, 2x + 3y] := rot(a[x, y]); lane (x', y') of b comes from x = x' + 3y', y = x'
  let b := (List.range 25).map (fun j =>
    let x' := j % 5
    let y' := j / 5
    let i := (x' + 3 * y') % 5 + 5 * x'
    rotl64 (ln t i) (ln keccakRot i))
  let e := (List.range 25).map (fun j =>
    let x := j % 5
    let y := j / 5
    ln b j ^^^ ((ln b ((x + 1) % 5 + 5 * y) ^^^ (2 ^ 64 - 1)) &&& ln b ((x + 2) % 5 + 5 * y)))
  match e with
  | [] => []
  | l :: ls => (l ^^^ rc) :: ls

/-- Keccak-f[1600]. -/
def keccakF (a : List Nat) : List Nat := keccakRC.foldl keccakRound a

/-- Absorb one block of the rate (136 bytes). -/
def keccakAbsorb (a : List Nat) (block : List Byte) : List Nat :=
  keccakF ((List.range 25).map (fun i => a.getD i 0 ^^^ (if i < 17 then leAt block (8 * i) 8 else 0)))

/-- Message with its SHAKE padding, a multiple of 136 bytes. -/
def shakePad (m : List Byte) : List Byte :=
  let r := 136 - m.length % 136
  if r = 1 then m ++ [0x9F] else m ++ [0x1F] ++ zeros (r - 2) ++ [0x80]

/-- Squeeze `n` blocks of 136 bytes. -/
def keccakSqueeze : Nat → List Nat → List Byte
  | 0, _ => []
  | n + 1, a => (a.take 17).flatMap (leBytes 8) ++ keccakSqueeze n (keccakF a)

/-- SHAKE256 with `n` bytes of output. -/
def shake256 (m : List Byte) (n : Nat) : List Byte :=
  let p := shakePad m
  let a := (chunksOf 136 (p.length / 136) p).foldl keccakAbsorb (List.replicate 25 0)
  (keccakSqueeze (ceilDiv n 136) a).take n

/-- SHAKE256-512: 64 bytes of output. -/
def digest64 (m : List Byte) : List Byte := shake256 m 64

/-- Key ID: the first 8 bytes of SHAKE256-512 of the key (R404). -/
def keyIdOf (key : List Byte) : List Byte := (digest64 key).take 8

/-! ### The field and the curves -/

namespace C448
/-- The prime 2^448 - 2^224 - 1. -/
def p : Nat := 2 ^ 448 - 2 ^ 224 - 1
/-- Order of the base point. -/
def ell : Nat := 2 ^ 446 - 13818066809895115352007386748515426880336692474882178609894547503885
/-- Edwards d = -39081. -/
def d : Nat := p - 39081

/-- `b ^ e mod n` by the bits of the exponent from bit `i` down. -/
def powFrom (n b e : Nat) : Nat → Nat → Nat
  | 0, r => r
  | i + 1, r =>
    let s := r * r % n
    powFrom n b e i (if bit e i then s * b % n else s)

/-- Modular power. -/
def pow (n b e : Nat) : Nat := powFrom n b e (Nat.log2 e + 1) 1

/-- Inverse modulo p. -/
def inv (a : Nat) : Nat := pow p a (p - 2)
/-- Subtraction modulo p. -/
def sub (a b : Nat) : Nat := (a + p - b % p) % p

/-- A point in projective coordinates. -/
abbrev Pt := Nat × Nat × Nat

/-- The neutral point. -/
def zero : Pt := (0, 1, 1)

/-- Base point of edwards448. -/
def base : Pt :=
  (224580040295924300187604334099896036246789641632564134246125461686950415467406032909029192869357953282578032075146446173674602635247710,
   298819210078481492676017930443930673437544040154080242095928241372331506189835876003536878655418784733982303233503462500531545062832660,
   1)

/-- Addition on edwards448 (RFC 8032, 5.2.4). -/
def add (P Q : Pt) : Pt :=
  let A := P.2.2 * Q.2.2 % p
  let B := A * A % p
  let C := P.1 * Q.1 % p
  let D := P.2.1 * Q.2.1 % p
  let E := d * (C * D % p) % p
  let F := sub B E
  let G := (B + E) % p
  let H := (P.1 + P.2.1) * (Q.1 + Q.2.1) % p
  (A * F % p * sub (sub H C) D % p, A * G % p * sub D C % p, F * G % p)

/-- Scalar multiple by the bits of the scalar from bit `i` down. -/
def mulFrom (k : Nat) (P : Pt) : Nat → Pt → Pt
  | 0, r => r
  | i + 1, r =>
    let s := add r r
    mulFrom k P i (if bit k i then add s P else s)

/-- Scalar multiple. -/
def mul (k : Nat) (P : Pt) : Pt := mulFrom k P (Nat.log2 k + 1) zero

/-- Encoding of a point: y in 57 bytes, the low bit of x in the top bit. -/
def enc (P : Pt) : List Byte :=
  let z := inv P.2.2
  let x := P.1 * z % p
  let y := P.2.1 * z % p
  leBytes 57 (y + (x % 2) * 2 ^ 455)

/-- Decoding of a point (RFC 8032, 5.2.3). -/
def dec (bs : List Byte) : Option Pt :=
  if bs.length ≠ 57 then none
  else
    let v := ofLe bs
    let sx := v / 2 ^ 455
    let y := v % 2 ^ 455
    if p ≤ y then none
    else
      let u := sub (y * y % p) 1
      let w := sub (d * (y * y % p) % p) 1
      let u3 := u * u % p * u % p
      let x := u3 * w % p * pow p (u3 * (u * u % p) % p * (w * w % p * w % p) % p) ((p - 3) / 4) % p
      if w * (x * x % p) % p ≠ u then none
      else if x = 0 ∧ sx = 1 then none
      else some (if x % 2 = sx then x else p - x, y, 1)

/-- The points are equal. -/
def eq (P Q : Pt) : Bool :=
  P.1 * Q.2.2 % p == Q.1 * P.2.2 % p && P.2.1 * Q.2.2 % p == Q.2.1 * P.2.2 % p

/-- dom4 with an empty context; `ph` is 1 for Ed448ph. -/
def dom (ph : Nat) : List Byte := ascii "SigEd448" ++ [BitVec.ofNat 8 ph, 0]

/-- Signature verification over the bytes that are hashed. -/
def verify (ph : Nat) (key msg sig : List Byte) : Bool :=
  match dec key, dec (sig.take 57) with
  | some A, some R =>
    let S := ofLe (sig.drop 57)
    if sig.length ≠ 114 ∨ ell ≤ S then false
    else
      let k := ofLe (shake256 (dom ph ++ sig.take 57 ++ key ++ msg) 114) % ell
      eq (mul 4 (mul S base)) (mul 4 (add R (mul k A)))
  | _, _ => false

/-- The pruned scalar and the prefix of a private key. -/
def expand (sk : List Byte) : Nat × List Byte :=
  let h := shake256 sk 114
  let a := ofLe (h.take 57)
  (a % 2 ^ 447 / 4 * 4 + 2 ^ 447, h.drop 57)

/-- Public key of a private key. -/
def pub (sk : List Byte) : List Byte := enc (mul (expand sk).1 base)

/-- Signature. -/
def sign (ph : Nat) (sk msg : List Byte) : List Byte :=
  let e := expand sk
  let key := enc (mul e.1 base)
  let r := ofLe (shake256 (dom ph ++ e.2 ++ msg) 114) % ell
  let R := enc (mul r base)
  let k := ofLe (shake256 (dom ph ++ R ++ key ++ msg) 114) % ell
  R ++ leBytes 57 ((r + k * e.1) % ell)

/-- Montgomery ladder of X448 from bit `i` down (RFC 7748, 5): x2, z2, x3, z3. -/
def ladder (k x1 : Nat) : Nat → Nat × Nat × Nat × Nat → Nat × Nat × Nat × Nat
  | 0, s => s
  | i + 1, (x2, z2, x3, z3) =>
    let sw := bit k i
    let a2 := if sw then x3 else x2
    let b2 := if sw then z3 else z2
    let a3 := if sw then x2 else x3
    let b3 := if sw then z2 else z3
    let A := (a2 + b2) % p
    let AA := A * A % p
    let B := sub a2 b2
    let BB := B * B % p
    let E := sub AA BB
    let C := (a3 + b3) % p
    let D := sub a3 b3
    let DA := D * A % p
    let CB := C * B % p
    let n3 := (DA + CB) % p
    let m3 := sub DA CB
    let x3' := n3 * n3 % p
    let z3' := x1 * (m3 * m3 % p) % p
    let x2' := AA * BB % p
    let z2' := E * ((AA + 39081 * E) % p) % p
    ladder k x1 i (if sw then (x3', z3', x2', z2') else (x2', z2', x3', z3'))
end C448

/-- Ed448 verification: key, message, signature. -/
def ed448Verify (key msg sig : List Byte) : Bool := C448.verify 0 key msg sig
/-- Ed448ph verification over a 64-byte prehash. -/
def ed448phVerify (key prehash sig : List Byte) : Bool := C448.verify 1 key prehash sig
/-- The 57 bytes are a valid Ed448 public key. -/
def ed448Valid (key : List Byte) : Bool := (C448.dec key).isSome
/-- Ed448 signature by a private key. -/
def ed448Sign (sk msg : List Byte) : List Byte := C448.sign 0 sk msg

/-- X448: scalar, coordinate. -/
def x448 (k u : List Byte) : List Byte :=
  let v := ofLe k % 2 ^ 447 / 4 * 4 + 2 ^ 447
  let x1 := ofLe u % C448.p
  let r := C448.ladder v x1 448 (1, 0, x1, 1)
  leBytes 56 (r.1 * C448.inv r.2.1 % C448.p)

/-- X448 of the base coordinate 5: the public coordinate of a scalar. -/
def x448Pub (k : List Byte) : List Byte := x448 k (leBytes 56 5)

/-! ### AES-256-GCM -/

namespace Aes
/-- Multiplication by x in the AES field. -/
def xtime (a : Nat) : Nat := if a < 128 then 2 * a else (2 * a) % 256 ^^^ 0x1B

/-- Product in the AES field, by the low `n` bits of `b`. -/
def gmul : Nat → Nat → Nat → Nat
  | 0, _, _ => 0
  | n + 1, a, b => (if b % 2 = 1 then a else 0) ^^^ gmul n (xtime a) (b / 2)

/-- Multiplicative inverse, a^254. -/
def ginv (a : Nat) : Nat := (List.range 253).foldl (fun r _ => gmul 8 r a) a

/-- Rotate a byte left. -/
def rotl8 (v n : Nat) : Nat := (v * 2 ^ n % 256) ||| (v / 2 ^ (8 - n))

/-- S-box entry. -/
def sbox1 (a : Nat) : Nat :=
  let b := if a = 0 then 0 else ginv a
  b ^^^ rotl8 b 1 ^^^ rotl8 b 2 ^^^ rotl8 b 3 ^^^ rotl8 b 4 ^^^ 0x63

/-- The S-box. -/
def sbox : List Nat := (List.range 256).map sbox1

def sub (a : Nat) : Nat := sbox.getD a 0

/-- Key schedule for a key of `k` words (8 for AES-256, 4 for AES-128): words of four bytes, newest first. -/
def expandFrom (k : Nat) : Nat → Nat → List (List Nat) → List (List Nat)
  | 0, _, ws => ws
  | n + 1, i, ws =>
    let t := ws.headD []
    let t' :=
      if i % k = 0 then
        let r := (t.drop 1 ++ t.take 1).map sub
        match r with
        | [] => []
        | x :: xs => (x ^^^ (List.range (i / k - 1)).foldl (fun a _ => xtime a) 1) :: xs
      else if i % k = 4 ∧ 6 < k then t.map sub
      else t
    let w := (t'.zip (ws.getD (k - 1) [])).map (fun p => p.1 ^^^ p.2)
    expandFrom k n (i + 1) (w :: ws)

/-- Words of a key; rounds of the cipher under it. -/
def keyWords (key : List Nat) : Nat := key.length / 4
def rounds (key : List Nat) : Nat := keyWords key + 6

/-- The words of the schedule, oldest first. -/
def schedule (key : List Nat) : List (List Nat) :=
  let k := keyWords key
  (expandFrom k (4 * (rounds key + 1) - k) k (chunksOf 4 k key).reverse).reverse

/-- Round key `r` as 16 bytes. -/
def roundKey (ws : List (List Nat)) (r : Nat) : List Nat := ((ws.drop (4 * r)).take 4).flatten

def xor (a b : List Nat) : List Nat := (a.zip b).map (fun p => p.1 ^^^ p.2)

/-- ShiftRows on 16 bytes in column order. -/
def shiftRows (s : List Nat) : List Nat := (List.range 16).map (fun i => s.getD ((i + 4 * (i % 4)) % 16) 0)

/-- MixColumns on one column. -/
def mixCol (c : List Nat) : List Nat :=
  let g := fun i => c.getD (i % 4) 0
  (List.range 4).map (fun i => gmul 8 (g i) 2 ^^^ gmul 8 (g (i + 1)) 3 ^^^ g (i + 2) ^^^ g (i + 3))

/-- Encrypt one block. -/
def block (key : List Byte) (inp : List Byte) : List Byte :=
  let ws := schedule (key.map BitVec.toNat)
  let s0 := xor (inp.map BitVec.toNat) (roundKey ws 0)
  let n := rounds (key.map BitVec.toNat)
  let s1 := (List.range (n - 1)).foldl (fun s r =>
    xor ((chunksOf 4 4 (shiftRows (s.map sub))).flatMap mixCol) (roundKey ws (r + 1))) s0
  (xor (shiftRows (s1.map sub)) (roundKey ws n)).map (BitVec.ofNat 8)

/-- Product in the GHASH field, most significant bit first: `n` bits of `x` remain. -/
def ghMul : Nat → Nat → Nat → Nat → Nat
  | 0, _, _, z => z
  | n + 1, x, v, z =>
    ghMul n x (if v % 2 = 1 then v / 2 ^^^ (0xE1 * 2 ^ 120) else v / 2) (if bit x n then z ^^^ v else z)

/-- GHASH of whole blocks. -/
def ghash (h : Nat) (bs : List Byte) : Nat :=
  (chunksOf 16 (bs.length / 16) bs).foldl (fun y b => ghMul 128 (y ^^^ ofBe b) h 0) 0

/-- Bytes padded with zeros to whole blocks. -/
def pad16 (bs : List Byte) : List Byte := bs ++ zeros ((16 - bs.length % 16) % 16)

/-- Key stream for `n` bytes from counter block number `c` of a 96-bit IV. -/
def stream (key iv : List Byte) (c n : Nat) : List Byte :=
  ((List.range (ceilDiv n 16)).flatMap (fun i => block key (iv ++ beBytes 4 (c + i)))).take n

/-- AES-GCM encryption: ciphertext and 16-byte tag. -/
def gcm (key iv aad pt : List Byte) : List Byte × List Byte :=
  let ct := xorBytes pt (stream key iv 2 pt.length)
  let h := ofBe (block key (zeros 16))
  let g := ghash h (pad16 aad ++ pad16 ct ++ beBytes 8 (8 * aad.length) ++ beBytes 8 (8 * ct.length))
  (ct, xorBytes (beBytes 16 g) (block key (iv ++ beBytes 4 1)))

/-- AES-GCM decryption: none when the tag does not match. -/
def ungcm (key iv aad ct tag : List Byte) : Option (List Byte) :=
  let pt := xorBytes ct (stream key iv 2 ct.length)
  if (gcm key iv aad pt).2 = tag then some pt else none
end Aes

end Sys2Proof
end

