-- ==== Sys2Proof/Machine/Objects.lean ====
section
/-! DEFINITION. The object dictionary: every numbered object of the manual with its type, access code, default and
range (R383, R384, R8, R11), and the manual's name of each. The key of object index.subindex is
index * 256 + subindex (R5). The tables are the object tables of 03 to 19, row by row. -/

namespace Sys2Proof

/-- Object types (Table 15.1). -/
inductive ObjTy where
  | u8 | u16 | u32 | u64 | i8 | i16 | i32 | i64 | f32 | bool | str | domain
deriving DecidableEq, Repr

/-- Bytes of a value of the type on the wire; a STRING or DOMAIN has no fixed length. -/
def ObjTy.bytes : ObjTy → Nat
  | .u8 => 1 | .u16 => 2 | .u32 => 4 | .u64 => 8 | .i8 => 1 | .i16 => 2 | .i32 => 4 | .i64 => 8
  | .f32 => 4 | .bool => 1 | .str => 0 | .domain => 0

/-- Type codes (Table 15.1). -/
def ObjTy.code : ObjTy → Nat
  | .u8 => 1 | .u16 => 2 | .u32 => 3 | .u64 => 4 | .i8 => 5 | .i16 => 6 | .i32 => 7 | .i64 => 8
  | .f32 => 9 | .bool => 10 | .str => 11 | .domain => 12

/-- Access codes (Table 0.3). -/
inductive Acc where
  | RO | RW | RC | WO | ST | W1C
deriving DecidableEq, Repr

/-- Ranges. A binary32 range is a closed interval of ordering keys (`f32Key`), so an open bound is the next encoding. -/
inductive Rng where
  | any
  | nat (lo hi : Nat)
  | natOr (lo hi x : Nat)
  | natMult (lo hi m : Nat)
  | f32 (lo hi : Int)
  | len (n : Nat)
  | maxLen (n : Nat)
deriving DecidableEq, Repr

/-- One object (DESIGN CHOICE, log 2). -/
structure ObjDef where
  key : Nat
  ty : ObjTy
  acc : Acc
  rng : Rng
deriving DecidableEq, Repr

/-- The order of binary32 encodings as numbers: signed magnitude to integer; the two zeros agree. -/
def f32Key (v : Nat) : Int := if v < 2 ^ 31 then (v : Int) else -((v : Int) - 2 ^ 31)

/-- The encoding is a NaN. -/
def f32IsNaN (v : Nat) : Bool := decide (0x7F800000 < v % 2 ^ 31)

namespace Obj

/-- 0x1000.01 ID_REV (R404 of 15_dictionary.md) -/
def ID_REV : Nat := 0x100001
/-- 0x1000.02 SERIAL (R404 of 15_dictionary.md) -/
def SERIAL : Nat := 0x100002
/-- 0x1000.03 DEVICE_KEY (R404 of 15_dictionary.md) -/
def DEVICE_KEY : Nat := 0x100003
/-- 0x1000.04 DEVICE_KEY_ID (R404 of 15_dictionary.md) -/
def DEVICE_KEY_ID : Nat := 0x100004
/-- 0x1001.01 LC_STATE (R404 of 15_dictionary.md) -/
def LC_STATE : Nat := 0x100101
/-- 0x1001.02 LC_TARGET (R404 of 15_dictionary.md) -/
def LC_TARGET : Nat := 0x100102
/-- 0x1001.03 LC_TOKEN (R404 of 15_dictionary.md) -/
def LC_TOKEN : Nat := 0x100103
/-- 0x1002.01 KEY_SLOT (R404 of 15_dictionary.md) -/
def KEY_SLOT : Nat := 0x100201
/-- 0x1002.02 KEY_ROLE (R404 of 15_dictionary.md) -/
def KEY_ROLE : Nat := 0x100202
/-- 0x1002.03 KEY_PUB (R404 of 15_dictionary.md) -/
def KEY_PUB : Nat := 0x100203
/-- 0x1002.04 KEYS (R404 of 15_dictionary.md) -/
def KEYS : Nat := 0x100204
/-- 0x1003.01 DEBUG_GRANT (R404 of 15_dictionary.md) -/
def DEBUG_GRANT : Nat := 0x100301
/-- 0x1003.02 DEBUG_EN (R404 of 15_dictionary.md) -/
def DEBUG_EN : Nat := 0x100302
/-- 0x1004.01 ATT_REPORT (R465 of 18_startup_and_gauge.md) -/
def ATT_REPORT : Nat := 0x100401
/-- 0x1004.02 DEVICE_CERT (R465 of 18_startup_and_gauge.md) -/
def DEVICE_CERT : Nat := 0x100402
/-- 0x1005.01 STRAPS (R465 of 18_startup_and_gauge.md) -/
def STRAPS : Nat := 0x100501
/-- 0x1005.02 BOOT_SOURCE (R465 of 18_startup_and_gauge.md) -/
def BOOT_SOURCE : Nat := 0x100502
/-- 0x1005.03 BOOT_FALLBACK (R465 of 18_startup_and_gauge.md) -/
def BOOT_FALLBACK : Nat := 0x100503
/-- 0x1005.04 LC_NONCE (R465 of 18_startup_and_gauge.md) -/
def LC_NONCE : Nat := 0x100504
/-- 0x1005.05 SERVICE_LEFT (R465 of 18_startup_and_gauge.md) -/
def SERVICE_LEFT : Nat := 0x100505
/-- 0x1005.06 BOOT_TIME (R465 of 18_startup_and_gauge.md) -/
def BOOT_TIME : Nat := 0x100506
/-- 0x1100.01 DAP_PORT (R405 of 15_dictionary.md) -/
def DAP_PORT : Nat := 0x110001
/-- 0x1100.02 SESSION_IDLE (R405 of 15_dictionary.md) -/
def SESSION_IDLE : Nat := 0x110002
/-- 0x1100.03 SESSIONS (R405 of 15_dictionary.md) -/
def SESSIONS : Nat := 0x110003
/-- 0x1100.04 THIS_SLOT (R405 of 15_dictionary.md) -/
def THIS_SLOT : Nat := 0x110004
/-- 0x1100.05 CLOSE_SLOT (R405 of 15_dictionary.md) -/
def CLOSE_SLOT : Nat := 0x110005
/-- 0x1100.06 HANDSHAKE_FAILS (R405 of 15_dictionary.md) -/
def HANDSHAKE_FAILS : Nat := 0x110006
/-- 0x1100.07 AUTH_FAILS (R405 of 15_dictionary.md) -/
def AUTH_FAILS : Nat := 0x110007
/-- 0x1100.08 FOREIGN_DAP (R405 of 15_dictionary.md) -/
def FOREIGN_DAP : Nat := 0x110008
/-- 0x1100.09 REPEATS (R405 of 15_dictionary.md) -/
def REPEATS : Nat := 0x110009
/-- 0x1100.0A REPORTS_LOST (R405 of 15_dictionary.md) -/
def REPORTS_LOST : Nat := 0x11000A
/-- 0x1200.01 MEDIA (R388 of 15_dictionary.md) -/
def MEDIA : Nat := 0x120001
/-- 0x1200.02 SPEED (R388 of 15_dictionary.md) -/
def SPEED : Nat := 0x120002
/-- 0x1200.03 MAX_FRAME (R388 of 15_dictionary.md) -/
def MAX_FRAME : Nat := 0x120003
/-- 0x1200.04 VLAN (R388 of 15_dictionary.md) -/
def VLAN : Nat := 0x120004
/-- 0x1200.05 PCP (R388 of 15_dictionary.md) -/
def PCP : Nat := 0x120005
/-- 0x1200.06 IPV6_ADDR (R388 of 15_dictionary.md) -/
def IPV6_ADDR : Nat := 0x120006
/-- 0x1200.07 IPV6_PREFIX (R388 of 15_dictionary.md) -/
def IPV6_PREFIX : Nat := 0x120007
/-- 0x1200.08 IPV6_GW (R388 of 15_dictionary.md) -/
def IPV6_GW : Nat := 0x120008
/-- 0x1200.09 IPV4_ADDR (R388 of 15_dictionary.md) -/
def IPV4_ADDR : Nat := 0x120009
/-- 0x1200.0A IPV4_MASK (R388 of 15_dictionary.md) -/
def IPV4_MASK : Nat := 0x12000A
/-- 0x1200.0B IPV4_GW (R388 of 15_dictionary.md) -/
def IPV4_GW : Nat := 0x12000B
/-- 0x1200.0C DAP_EN (R388 of 15_dictionary.md) -/
def DAP_EN : Nat := 0x12000C
/-- 0x1200.0D PTP_EN (R388 of 15_dictionary.md) -/
def PTP_EN : Nat := 0x12000D
/-- 0x1200.10 MAC (R388 of 15_dictionary.md) -/
def MAC : Nat := 0x120010
/-- 0x1200.11 LINK_LOCAL (R388 of 15_dictionary.md) -/
def LINK_LOCAL : Nat := 0x120011
/-- 0x1200.12 LINK_STATE (R388 of 15_dictionary.md) -/
def LINK_STATE : Nat := 0x120012
/-- 0x1200.13 FRAMES (R388 of 15_dictionary.md) -/
def FRAMES : Nat := 0x120013
/-- 0x1200.14 LINK_DOWNS (R388 of 15_dictionary.md) -/
def LINK_DOWNS : Nat := 0x120014
/-- 0x1300.01 TB_NOW (R63 of 03_self_timed_fabric.md) -/
def TB_NOW : Nat := 0x130001
/-- 0x1300.02 TB_FULL (R63 of 03_self_timed_fabric.md) -/
def TB_FULL : Nat := 0x130002
/-- 0x1300.03 TB_INC (R63 of 03_self_timed_fabric.md) -/
def TB_INC : Nat := 0x130003
/-- 0x1300.04 TB_ADJ (R63 of 03_self_timed_fabric.md) -/
def TB_ADJ : Nat := 0x130004
/-- 0x1300.05 TB_STATE (R63 of 03_self_timed_fabric.md) -/
def TB_STATE : Nat := 0x130005
/-- 0x1300.06 TB_FLAGS (R63 of 03_self_timed_fabric.md) -/
def TB_FLAGS : Nat := 0x130006
/-- 0x1300.07 PPS_ENABLE (R63 of 03_self_timed_fabric.md) -/
def PPS_ENABLE : Nat := 0x130007
/-- 0x1300.10 TIME_MODE (R382 of 14_site_time.md) -/
def TIME_MODE : Nat := 0x130010
/-- 0x1300.11 TOD_SRC (R382 of 14_site_time.md) -/
def TOD_SRC : Nat := 0x130011
/-- 0x1300.12 PTP_DOMAIN (R382 of 14_site_time.md) -/
def PTP_DOMAIN : Nat := 0x130012
/-- 0x1300.13 PTP_GM_ID (R382 of 14_site_time.md) -/
def PTP_GM_ID : Nat := 0x130013
/-- 0x1300.14 TOD_NEXT (R382 of 14_site_time.md) -/
def TOD_NEXT : Nat := 0x130014
/-- 0x1300.15 TWTT_INTERVAL (R382 of 14_site_time.md) -/
def TWTT_INTERVAL : Nat := 0x130015
/-- 0x1300.16 ASYM (R382 of 14_site_time.md) -/
def ASYM : Nat := 0x130016
/-- 0x1300.17 PROBE_INTERVAL (R382 of 14_site_time.md) -/
def PROBE_INTERVAL : Nat := 0x130017
/-- 0x1300.20 TIME_STATE (R382 of 14_site_time.md) -/
def TIME_STATE : Nat := 0x130020
/-- 0x1300.21 TIME_FLAGS (R382 of 14_site_time.md) -/
def TIME_FLAGS : Nat := 0x130021
/-- 0x1300.22 OFFSET (R382 of 14_site_time.md) -/
def OFFSET : Nat := 0x130022
/-- 0x1300.23 REF_MEMBER (R382 of 14_site_time.md) -/
def REF_MEMBER : Nat := 0x130023
/-- 0x1300.24 LAST_PPS (R382 of 14_site_time.md) -/
def LAST_PPS : Nat := 0x130024
/-- 0x1300.25 SUSPECTS (R382 of 14_site_time.md) -/
def SUSPECTS : Nat := 0x130025
/-- 0x1300.26 ACCEPTS (R382 of 14_site_time.md) -/
def ACCEPTS : Nat := 0x130026
/-- 0x1300.27 TIME_LOG (R382 of 14_site_time.md) -/
def TIME_LOG : Nat := 0x130027
/-- 0x1300.28 RTT (R382 of 14_site_time.md) -/
def RTT : Nat := 0x130028
/-- 0x1300.29 STRETCH (R382 of 14_site_time.md) -/
def STRETCH : Nat := 0x130029
/-- 0x2000.01 VCORE_NOW (R62 of 03_self_timed_fabric.md) -/
def VCORE_NOW : Nat := 0x200001
/-- 0x2000.02 VCORE_MAX (R62 of 03_self_timed_fabric.md) -/
def VCORE_MAX : Nat := 0x200002
/-- 0x2000.03 VCORE_MIN (R62 of 03_self_timed_fabric.md) -/
def VCORE_MIN : Nat := 0x200003
/-- 0x2000.04 PCAP (R62 of 03_self_timed_fabric.md) -/
def PCAP : Nat := 0x200004
/-- 0x2000.05 P_SAMPLE (R62 of 03_self_timed_fabric.md) -/
def P_SAMPLE : Nat := 0x200005
/-- 0x2000.06 P_AVG (R62 of 03_self_timed_fabric.md) -/
def P_AVG : Nat := 0x200006
/-- 0x2000.07 P_PEAK (R62 of 03_self_timed_fabric.md) -/
def P_PEAK : Nat := 0x200007
/-- 0x2000.08 CAP_STATE (R62 of 03_self_timed_fabric.md) -/
def CAP_STATE : Nat := 0x200008
/-- 0x2000.09 FABRIC_RATE (R62 of 03_self_timed_fabric.md) -/
def FABRIC_RATE : Nat := 0x200009
/-- 0x2000.0A CAP_PERIODS (R62 of 03_self_timed_fabric.md) -/
def CAP_PERIODS : Nat := 0x20000A
/-- 0x2000.0B HOLD_PERIODS (R62 of 03_self_timed_fabric.md) -/
def HOLD_PERIODS : Nat := 0x20000B
/-- 0x2000.0C PEAK_TRIPS (R62 of 03_self_timed_fabric.md) -/
def PEAK_TRIPS : Nat := 0x20000C
/-- 0x2001.01–.04 PANEL_RATE (R62 of 03_self_timed_fabric.md) -/
def PANEL_RATE : Nat := 0x200101
/-- 0x2002.01–.04 PANEL_TJ (R62 of 03_self_timed_fabric.md) -/
def PANEL_TJ : Nat := 0x200201
/-- 0x2002.05 COLLAR_TJ (R62 of 03_self_timed_fabric.md) -/
def COLLAR_TJ : Nat := 0x200205
/-- 0x2003.01 VIN (R479 of 19_physical.md) -/
def VIN : Nat := 0x200301
/-- 0x2003.02 TPLATE (R479 of 19_physical.md) -/
def TPLATE : Nat := 0x200302
/-- 0x2003.03 THERM_STATE (R479 of 19_physical.md) -/
def THERM_STATE : Nat := 0x200303
/-- 0x2003.04 THERM_TRIPS (R479 of 19_physical.md) -/
def THERM_TRIPS : Nat := 0x200304
/-- 0x2003.05 EVENT_EN (R479 of 19_physical.md) -/
def EVENT_EN : Nat := 0x200305
/-- 0x2003.06 EVENT_LEVEL (R479 of 19_physical.md) -/
def EVENT_LEVEL : Nat := 0x200306
/-- 0x2003.07 PPS_OUT_EN (R479 of 19_physical.md) -/
def PPS_OUT_EN : Nat := 0x200307
/-- 0x2100.01 JERSEY_X (R238 of 09_torus.md) -/
def JERSEY_X : Nat := 0x210001
/-- 0x2100.02 JERSEY_Y (R238 of 09_torus.md) -/
def JERSEY_Y : Nat := 0x210002
/-- 0x2100.03 JERSEY_Z (R238 of 09_torus.md) -/
def JERSEY_Z : Nat := 0x210003
/-- 0x2100.04 JERSEY_WRAP (R238 of 09_torus.md) -/
def JERSEY_WRAP : Nat := 0x210004
/-- 0x2100.05 AXIS_MAP (R238 of 09_torus.md) -/
def AXIS_MAP : Nat := 0x210005
/-- 0x2100.06 CHIP (R238 of 09_torus.md) -/
def CHIP : Nat := 0x210006
/-- 0x2100.07 LOGICAL_POS (R238 of 09_torus.md) -/
def LOGICAL_POS : Nat := 0x210007
/-- 0x2100.08 PORT_ENABLE (R238 of 09_torus.md) -/
def PORT_ENABLE : Nat := 0x210008
/-- 0x2100.09 ROUTE_FREE (R238 of 09_torus.md) -/
def ROUTE_FREE : Nat := 0x210009
/-- 0x2100.0A ROUTE_TABLE (R238 of 09_torus.md) -/
def ROUTE_TABLE : Nat := 0x21000A
/-- 0x2100.0B ROUTE_MISS (R238 of 09_torus.md) -/
def ROUTE_MISS : Nat := 0x21000B
/-- 0x2100.0C LAST_MISS (R238 of 09_torus.md) -/
def LAST_MISS : Nat := 0x21000C
/-- 0x2100.10–.15 PORT_STATE (R238 of 09_torus.md) -/
def PORT_STATE : Nat := 0x210010
/-- 0x2100.18–.1D PORT_PEER (R238 of 09_torus.md) -/
def PORT_PEER : Nat := 0x210018
/-- 0x2100.20–.25 PORT_COUNTS (R238 of 09_torus.md) -/
def PORT_COUNTS : Nat := 0x210020
/-- 0x2100.28 CREDITS (R238 of 09_torus.md) -/
def CREDITS : Nat := 0x210028
/-- 0x2200.01 SLICE_ID (R239 of 09_torus.md) -/
def SLICE_ID : Nat := 0x220001
/-- 0x2200.02 ORIGIN (R239 of 09_torus.md) -/
def ORIGIN : Nat := 0x220002
/-- 0x2200.03 EXTENT_M1 (R239 of 09_torus.md) -/
def EXTENT_M1 : Nat := 0x220003
/-- 0x2200.04 WRAP (R239 of 09_torus.md) -/
def WRAP : Nat := 0x220004
/-- 0x2200.05 DIMORD (R239 of 09_torus.md) -/
def DIMORD : Nat := 0x220005
/-- 0x2200.06 COMMAND (R239 of 09_torus.md) -/
def SLICE_COMMAND : Nat := 0x220006
/-- 0x2200.07 SLICE_STATE (R239 of 09_torus.md) -/
def SLICE_STATE : Nat := 0x220007
/-- 0x2200.08 SLICE_REASON (R239 of 09_torus.md) -/
def SLICE_REASON : Nat := 0x220008
/-- 0x2200.09 SLICE_SIZE (R239 of 09_torus.md) -/
def SLICE_SIZE : Nat := 0x220009
/-- 0x2200.0A DEVICE_INDEX (R239 of 09_torus.md) -/
def DEVICE_INDEX : Nat := 0x22000A
/-- 0x2200.0B FAULT_CHIP (R239 of 09_torus.md) -/
def FAULT_CHIP : Nat := 0x22000B
/-- 0x2300.01 SLICE_MAP (R212 of 08_memory.md) -/
def SLICE_MAP : Nat := 0x230001
/-- 0x2300.02 OPEN (R212 of 08_memory.md) -/
def OPEN : Nat := 0x230002
/-- 0x2300.03 WINDOW_COUNT (R212 of 08_memory.md) -/
def WINDOW_COUNT : Nat := 0x230003
/-- 0x2300.04 WINDOWS (R212 of 08_memory.md) -/
def WINDOWS : Nat := 0x230004
/-- 0x2300.05 REFUSALS (R212 of 08_memory.md) -/
def REFUSALS : Nat := 0x230005
/-- 0x2300.06 LAST_REFUSAL (R212 of 08_memory.md) -/
def LAST_REFUSAL : Nat := 0x230006
/-- 0x2300.07 SRC_REFUSALS (R212 of 08_memory.md) -/
def SRC_REFUSALS : Nat := 0x230007
/-- 0x2300.10 SCRUB_DRAM_HOURS (R212 of 08_memory.md) -/
def SCRUB_DRAM_HOURS : Nat := 0x230010
/-- 0x2300.11 SCRUB_SRAM_MIN (R212 of 08_memory.md) -/
def SCRUB_SRAM_MIN : Nat := 0x230011
/-- 0x2300.12 DRAM_PASSES (R212 of 08_memory.md) -/
def DRAM_PASSES : Nat := 0x230012
/-- 0x2300.13 SRAM_PASSES (R212 of 08_memory.md) -/
def SRAM_PASSES : Nat := 0x230013
/-- 0x2300.14 MEM_LOG (R212 of 08_memory.md) -/
def MEM_LOG : Nat := 0x230014
/-- 0x2300.15 MEM_LOG_ADDED (R212 of 08_memory.md) -/
def MEM_LOG_ADDED : Nat := 0x230015
/-- 0x2300.16 DMA_DESC (R212 of 08_memory.md) -/
def DMA_DESC : Nat := 0x230016
/-- 0x2400.01 SOURCES (R431 of 17_events_and_tension.md) -/
def SOURCES : Nat := 0x240001
/-- 0x2400.02 CPS (R431 of 17_events_and_tension.md) -/
def CPS : Nat := 0x240002
/-- 0x2400.03 OVERRUNS (R431 of 17_events_and_tension.md) -/
def OVERRUNS : Nat := 0x240003
/-- 0x2400.04 FORWARDED (R431 of 17_events_and_tension.md) -/
def FORWARDED : Nat := 0x240004
/-- 0x2400.10 EVT_SRC (R431 of 17_events_and_tension.md) -/
def EVT_SRC : Nat := 0x240010
/-- 0x2400.11 EVT_PRIORITY (R431 of 17_events_and_tension.md) -/
def EVT_PRIORITY : Nat := 0x240011
/-- 0x2400.12 EVT_TARGETS (R431 of 17_events_and_tension.md) -/
def EVT_TARGETS : Nat := 0x240012
/-- 0x3000.01 JOB_STATE (R189 of 07_patterns.md) -/
def JOB_STATE : Nat := 0x300001
/-- 0x3000.02 IMAGE (R189 of 07_patterns.md) -/
def IMAGE : Nat := 0x300002
/-- 0x3000.03 DIGEST (R189 of 07_patterns.md) -/
def DIGEST : Nat := 0x300003
/-- 0x3000.04 COMMAND (R189 of 07_patterns.md) -/
def JOB_COMMAND : Nat := 0x300004
/-- 0x3000.05 STEPS_DONE (R189 of 07_patterns.md) -/
def STEPS_DONE : Nat := 0x300005
/-- 0x3000.06 ABORTED (R189 of 07_patterns.md) -/
def ABORTED : Nat := 0x300006
/-- 0x3000.07 TRAPPED (R189 of 07_patterns.md) -/
def TRAPPED : Nat := 0x300007
/-- 0x3000.08 FIRST_TRAP (R189 of 07_patterns.md) -/
def FIRST_TRAP : Nat := 0x300008
/-- 0x3000.09 DRAM_LIMIT (R189 of 07_patterns.md) -/
def DRAM_LIMIT : Nat := 0x300009
/-- 0x3000.0A IMAGE_BYTES (R189 of 07_patterns.md) -/
def IMAGE_BYTES : Nat := 0x30000A
/-- 0x3000.10 REFUSAL (R189 of 07_patterns.md) -/
def REFUSAL : Nat := 0x300010
/-- 0x3100.01 FEED_STATE (R324 of 12_job_mapping.md) -/
def FEED_STATE : Nat := 0x310001
/-- 0x3100.02 SAMPLES_FETCHED (R324 of 12_job_mapping.md) -/
def SAMPLES_FETCHED : Nat := 0x310002
/-- 0x3100.03 SAMPLES_EMITTED (R324 of 12_job_mapping.md) -/
def SAMPLES_EMITTED : Nat := 0x310003
/-- 0x3100.04 SAMPLES_DROPPED (R324 of 12_job_mapping.md) -/
def SAMPLES_DROPPED : Nat := 0x310004
/-- 0x3100.05 DATA_EPOCH (R324 of 12_job_mapping.md) -/
def DATA_EPOCH : Nat := 0x310005
/-- 0x3100.06 MISSING (R324 of 12_job_mapping.md) -/
def MISSING : Nat := 0x310006
/-- 0x3100.07 TRUNCATED (R324 of 12_job_mapping.md) -/
def TRUNCATED : Nat := 0x310007
/-- 0x3100.08 RETRIES (R324 of 12_job_mapping.md) -/
def RETRIES : Nat := 0x310008
/-- 0x3100.09 REPLAYS (R324 of 12_job_mapping.md) -/
def REPLAYS : Nat := 0x310009
/-- 0x3100.0A FEED_TIMEOUT (R324 of 12_job_mapping.md) -/
def FEED_TIMEOUT : Nat := 0x31000A
/-- 0x3100.0B FEED_RETRY_LIMIT (R324 of 12_job_mapping.md) -/
def FEED_RETRY_LIMIT : Nat := 0x31000B
/-- 0x3100.0C FETCH_AHEAD (R324 of 12_job_mapping.md) -/
def FETCH_AHEAD : Nat := 0x31000C
/-- 0x3100.10–.1F ENDPOINT (R324 of 12_job_mapping.md) -/
def ENDPOINT : Nat := 0x310010
/-- 0x3101.01 CHANNELS (R324 of 12_job_mapping.md) -/
def CHANNELS : Nat := 0x310101
/-- 0x3101.02 PASS (R324 of 12_job_mapping.md) -/
def PASS : Nat := 0x310102
/-- 0x3101.03 ROWS_PUBLISHED (R324 of 12_job_mapping.md) -/
def ROWS_PUBLISHED : Nat := 0x310103
/-- 0x3101.04 RINGS (R324 of 12_job_mapping.md) -/
def RINGS : Nat := 0x310104
/-- 0x3102.01 RS_PLAN (R324 of 12_job_mapping.md) -/
def RS_PLAN : Nat := 0x310201
/-- 0x3102.02 RS_STATE (R324 of 12_job_mapping.md) -/
def RS_STATE : Nat := 0x310202
/-- 0x3102.03 RS_AT (R324 of 12_job_mapping.md) -/
def RS_AT : Nat := 0x310203
/-- 0x3102.04 RS_BLOCKS_IN (R324 of 12_job_mapping.md) -/
def RS_BLOCKS_IN : Nat := 0x310204
/-- 0x3200.01 RECORDS_VALID (R299 of 11_parameter_state.md) -/
def RECORDS_VALID : Nat := 0x320001
/-- 0x3200.02 LAYERS (R299 of 11_parameter_state.md) -/
def LAYERS : Nat := 0x320002
/-- 0x3200.03 COMMITTED (R299 of 11_parameter_state.md) -/
def COMMITTED : Nat := 0x320003
/-- 0x3200.04 ATTEMPTS (R299 of 11_parameter_state.md) -/
def ATTEMPTS : Nat := 0x320004
/-- 0x3200.05 PIN_TOTAL (R299 of 11_parameter_state.md) -/
def PIN_TOTAL : Nat := 0x320005
/-- 0x3200.06 DEFERRALS (R299 of 11_parameter_state.md) -/
def DEFERRALS : Nat := 0x320006
/-- 0x3200.07 SKEWS (R299 of 11_parameter_state.md) -/
def SKEWS : Nat := 0x320007
/-- 0x3200.08 CHECK_FAILS (R299 of 11_parameter_state.md) -/
def CHECK_FAILS : Nat := 0x320008
/-- 0x3200.09 RECOMPUTES (R299 of 11_parameter_state.md) -/
def RECOMPUTES : Nat := 0x320009
/-- 0x3200.0A BU_FLAGS (R299 of 11_parameter_state.md) -/
def BU_FLAGS : Nat := 0x32000A
/-- 0x3200.0B BED_TASKS (R299 of 11_parameter_state.md) -/
def BED_TASKS : Nat := 0x32000B
/-- 0x3200.0C REC_INDEX (R299 of 11_parameter_state.md) -/
def REC_INDEX : Nat := 0x32000C
/-- 0x3200.0D RECORD (R299 of 11_parameter_state.md) -/
def RECORD : Nat := 0x32000D
/-- 0x3200.0E HP_EFFECT (R299 of 11_parameter_state.md) -/
def HP_EFFECT : Nat := 0x32000E
/-- 0x3200.10 HP_SET (R299 of 11_parameter_state.md) -/
def HP_SET : Nat := 0x320010
/-- 0x3200.11 ETA (R299 of 11_parameter_state.md) -/
def ETA : Nat := 0x320011
/-- 0x3200.12 WARMUP (R299 of 11_parameter_state.md) -/
def WARMUP : Nat := 0x320012
/-- 0x3200.13 BETA1 (R299 of 11_parameter_state.md) -/
def BETA1 : Nat := 0x320013
/-- 0x3200.14 BETA2 (R299 of 11_parameter_state.md) -/
def BETA2 : Nat := 0x320014
/-- 0x3200.15 EPS (R299 of 11_parameter_state.md) -/
def EPS : Nat := 0x320015
/-- 0x3200.16 WDECAY (R299 of 11_parameter_state.md) -/
def WDECAY : Nat := 0x320016
/-- 0x3200.17 MU (R299 of 11_parameter_state.md) -/
def MU : Nat := 0x320017
/-- 0x3200.18 ORTHO_ITERS (R299 of 11_parameter_state.md) -/
def ORTHO_ITERS : Nat := 0x320018
/-- 0x3200.19 COEF_A (R299 of 11_parameter_state.md) -/
def COEF_A : Nat := 0x320019
/-- 0x3200.1A COEF_B (R299 of 11_parameter_state.md) -/
def COEF_B : Nat := 0x32001A
/-- 0x3200.1B COEF_C (R299 of 11_parameter_state.md) -/
def COEF_C : Nat := 0x32001B
/-- 0x3200.1C KF_BETA (R299 of 11_parameter_state.md) -/
def KF_BETA : Nat := 0x32001C
/-- 0x3200.1D KF_F (R299 of 11_parameter_state.md) -/
def KF_F : Nat := 0x32001D
/-- 0x3200.1E KF_DAMP (R299 of 11_parameter_state.md) -/
def KF_DAMP : Nat := 0x32001E
/-- 0x3200.1F KF_ROOT_ITERS (R299 of 11_parameter_state.md) -/
def KF_ROOT_ITERS : Nat := 0x32001F
/-- 0x3200.20 GRAFT (R299 of 11_parameter_state.md) -/
def GRAFT : Nat := 0x320020
/-- 0x3300.01 CLIP (R300 of 11_parameter_state.md) -/
def CLIP : Nat := 0x330001
/-- 0x3300.02 ABS_LIMIT (R300 of 11_parameter_state.md) -/
def ABS_LIMIT : Nat := 0x330002
/-- 0x3300.03 CLIP_MODE (R300 of 11_parameter_state.md) -/
def CLIP_MODE : Nat := 0x330003
/-- 0x3300.04 NORM_ANCHOR (R300 of 11_parameter_state.md) -/
def NORM_ANCHOR : Nat := 0x330004
/-- 0x3300.05 LAST_VERDICT (R300 of 11_parameter_state.md) -/
def LAST_VERDICT : Nat := 0x330005
/-- 0x3300.06 PASSED (R300 of 11_parameter_state.md) -/
def PASSED : Nat := 0x330006
/-- 0x3300.07 SCALED (R300 of 11_parameter_state.md) -/
def SCALED : Nat := 0x330007
/-- 0x3300.08 SKIPPED (R300 of 11_parameter_state.md) -/
def SKIPPED : Nat := 0x330008
/-- 0x3300.09 LAST_SKIP (R300 of 11_parameter_state.md) -/
def LAST_SKIP : Nat := 0x330009
/-- 0x3300.0A RETRACT_HOLDS (R300 of 11_parameter_state.md) -/
def RETRACT_HOLDS : Nat := 0x33000A
/-- 0x3300.0B VERDICT_LOST (R300 of 11_parameter_state.md) -/
def VERDICT_LOST : Nat := 0x33000B
/-- 0x3400.01 SKEIN (R268 of 10_collectives.md) -/
def SKEIN : Nat := 0x340001
/-- 0x3400.02 STREAMS (R268 of 10_collectives.md) -/
def STREAMS : Nat := 0x340002
/-- 0x3400.03 SLOT_WAITS (R268 of 10_collectives.md) -/
def SLOT_WAITS : Nat := 0x340003
/-- 0x3400.04 RESEND_LIMIT (R268 of 10_collectives.md) -/
def RESEND_LIMIT : Nat := 0x340004
/-- 0x3400.05 EPOCH (R268 of 10_collectives.md) -/
def EPOCH : Nat := 0x340005
/-- 0x3400.06 UNVERIFIED (R268 of 10_collectives.md) -/
def UNVERIFIED : Nat := 0x340006
/-- 0x3400.07 RES_FAIL (R268 of 10_collectives.md) -/
def RES_FAIL : Nat := 0x340007
/-- 0x3400.08 ADD_REPEAT (R268 of 10_collectives.md) -/
def ADD_REPEAT : Nat := 0x340008
/-- 0x3400.09 RETRACTS (R268 of 10_collectives.md) -/
def RETRACTS : Nat := 0x340009
/-- 0x3400.0A UNCORRECTED (R268 of 10_collectives.md) -/
def UNCORRECTED : Nat := 0x34000A
/-- 0x3400.0B EPOCH_MIX (R268 of 10_collectives.md) -/
def EPOCH_MIX : Nat := 0x34000B
/-- 0x3400.0C CHUNKS_IN (R268 of 10_collectives.md) -/
def CHUNKS_IN : Nat := 0x34000C
/-- 0x3400.0D CHUNKS_OUT (R268 of 10_collectives.md) -/
def CHUNKS_OUT : Nat := 0x34000D
/-- 0x3400.0E ROOT_ISSUES (R268 of 10_collectives.md) -/
def ROOT_ISSUES : Nat := 0x34000E
/-- 0x3400.0F ARITH_FLAGS (R268 of 10_collectives.md) -/
def ARITH_FLAGS : Nat := 0x34000F
/-- 0x3400.10 LAST_FAULT (R268 of 10_collectives.md) -/
def LAST_FAULT : Nat := 0x340010
/-- 0x4000.01 FED_ID (R366 of 13_federation.md) -/
def FED_ID : Nat := 0x400001
/-- 0x4000.02 MEMBER_ID (R366 of 13_federation.md) -/
def MEMBER_ID : Nat := 0x400002
/-- 0x4000.03 UDP_PORT (R366 of 13_federation.md) -/
def UDP_PORT : Nat := 0x400003
/-- 0x4000.04 BASE_WEIGHT (R366 of 13_federation.md) -/
def BASE_WEIGHT : Nat := 0x400004
/-- 0x4000.05 MAX_MEMBERS (R366 of 13_federation.md) -/
def MAX_MEMBERS : Nat := 0x400005
/-- 0x4000.06 SEEDS (R366 of 13_federation.md) -/
def SEEDS : Nat := 0x400006
/-- 0x4000.07 EXCH_AREA (R366 of 13_federation.md) -/
def EXCH_AREA : Nat := 0x400007
/-- 0x4000.08 KEEP (R366 of 13_federation.md) -/
def KEEP : Nat := 0x400008
/-- 0x4000.09 POOL_SLOTS (R366 of 13_federation.md) -/
def POOL_SLOTS : Nat := 0x400009
/-- 0x4000.0A K_LIMIT (R366 of 13_federation.md) -/
def K_LIMIT : Nat := 0x40000A
/-- 0x4000.0B HB_INTERVAL (R366 of 13_federation.md) -/
def HB_INTERVAL : Nat := 0x40000B
/-- 0x4000.0C MEMBER_TIMEOUT (R366 of 13_federation.md) -/
def MEMBER_TIMEOUT : Nat := 0x40000C
/-- 0x4000.0D ROUND_DEADLINE (R366 of 13_federation.md) -/
def ROUND_DEADLINE : Nat := 0x40000D
/-- 0x4000.0E COORD_TIMEOUT (R366 of 13_federation.md) -/
def COORD_TIMEOUT : Nat := 0x40000E
/-- 0x4000.0F FORK_HORIZON (R366 of 13_federation.md) -/
def FORK_HORIZON : Nat := 0x40000F
/-- 0x4000.10 DIV_BOUND (R366 of 13_federation.md) -/
def DIV_BOUND : Nat := 0x400010
/-- 0x4000.11 WINDOW (R366 of 13_federation.md) -/
def WINDOW : Nat := 0x400011
/-- 0x4000.12 FRAG_PAYLOAD (R366 of 13_federation.md) -/
def FRAG_PAYLOAD : Nat := 0x400012
/-- 0x4000.13 FED_FLAGS (R366 of 13_federation.md) -/
def FED_FLAGS : Nat := 0x400013
/-- 0x4000.14 LINK_SHARE (R366 of 13_federation.md) -/
def LINK_SHARE : Nat := 0x400014
/-- 0x4000.15 H_MIN (R366 of 13_federation.md) -/
def H_MIN : Nat := 0x400015
/-- 0x4000.16 H_MAX (R366 of 13_federation.md) -/
def H_MAX : Nat := 0x400016
/-- 0x4000.20 FED_STATE (R366 of 13_federation.md) -/
def FED_STATE : Nat := 0x400020
/-- 0x4000.21 HEAD_ROUND (R366 of 13_federation.md) -/
def HEAD_ROUND : Nat := 0x400021
/-- 0x4000.22 HEAD_DIGEST (R366 of 13_federation.md) -/
def HEAD_DIGEST : Nat := 0x400022
/-- 0x4000.23 FLOOR_ROUND (R366 of 13_federation.md) -/
def FLOOR_ROUND : Nat := 0x400023
/-- 0x4000.24 LIVE_MASK (R366 of 13_federation.md) -/
def LIVE_MASK : Nat := 0x400024
/-- 0x4000.25 DEPARTED_MASK (R366 of 13_federation.md) -/
def DEPARTED_MASK : Nat := 0x400025
/-- 0x4000.26 NEXT_COORD (R366 of 13_federation.md) -/
def NEXT_COORD : Nat := 0x400026
/-- 0x4000.27 JOIN_REASON (R366 of 13_federation.md) -/
def JOIN_REASON : Nat := 0x400027
/-- 0x4000.28 LAST_MANIFEST (R366 of 13_federation.md) -/
def LAST_MANIFEST : Nat := 0x400028
/-- 0x4000.30 FRAGS_SENT (R366 of 13_federation.md) -/
def FRAGS_SENT : Nat := 0x400030
/-- 0x4000.31 FRAGS_RESENT (R366 of 13_federation.md) -/
def FRAGS_RESENT : Nat := 0x400031
/-- 0x4000.32 PARITY_RECOVERED (R366 of 13_federation.md) -/
def PARITY_RECOVERED : Nat := 0x400032
/-- 0x4000.33 CRC_FAIL (R366 of 13_federation.md) -/
def CRC_FAIL : Nat := 0x400033
/-- 0x4000.34 FOREIGN_DROPPED (R366 of 13_federation.md) -/
def FOREIGN_DROPPED : Nat := 0x400034
/-- 0x4000.35 STALE_DISCARDED (R366 of 13_federation.md) -/
def STALE_DISCARDED : Nat := 0x400035
/-- 0x4000.36 TAKEOVERS (R366 of 13_federation.md) -/
def TAKEOVERS : Nat := 0x400036
/-- 0x4000.37 FORKS (R366 of 13_federation.md) -/
def FORKS : Nat := 0x400037
/-- 0x4000.38 ADOPTIONS (R366 of 13_federation.md) -/
def ADOPTIONS : Nat := 0x400038
/-- 0x4000.39 WINDOWS (R366 of 13_federation.md) -/
def WINDOWS_4000 : Nat := 0x400039
/-- 0x4000.40 COMMAND (R366 of 13_federation.md) -/
def COMMAND_4000 : Nat := 0x400040
/-- 0x4100.01 FORM (R367 of 13_federation.md) -/
def FORM : Nat := 0x410001
/-- 0x4100.02 TOPK (R367 of 13_federation.md) -/
def TOPK : Nat := 0x410002
/-- 0x4100.03 EF_ENABLE (R367 of 13_federation.md) -/
def EF_ENABLE : Nat := 0x410003
/-- 0x4100.10 BYTES_SENT (R367 of 13_federation.md) -/
def BYTES_SENT : Nat := 0x410010
/-- 0x4100.11 VOID_SENT (R367 of 13_federation.md) -/
def VOID_SENT : Nat := 0x410011
/-- 0x4200.01 ETA_O (R368 of 13_federation.md) -/
def ETA_O : Nat := 0x420001
/-- 0x4200.02 MU_O (R368 of 13_federation.md) -/
def MU_O : Nat := 0x420002
/-- 0x4200.03 LAMBDA (R368 of 13_federation.md) -/
def LAMBDA : Nat := 0x420003
/-- 0x4200.04 S_MAX (R368 of 13_federation.md) -/
def S_MAX : Nat := 0x420004
/-- 0x4200.10 ROUNDS_MERGED (R368 of 13_federation.md) -/
def ROUNDS_MERGED : Nat := 0x420010
/-- 0x4200.11 OWN_NAMED (R368 of 13_federation.md) -/
def OWN_NAMED : Nat := 0x420011
/-- 0x5000.01 STREAM_MODE (R421 of 16_export_and_cipher.md) -/
def STREAM_MODE : Nat := 0x500001
/-- 0x5000.02 STREAM_CONTENT (R421 of 16_export_and_cipher.md) -/
def STREAM_CONTENT : Nat := 0x500002
/-- 0x5000.03 STREAM_EP (R421 of 16_export_and_cipher.md) -/
def STREAM_EP : Nat := 0x500003
/-- 0x5000.04 STREAM_RING (R421 of 16_export_and_cipher.md) -/
def STREAM_RING : Nat := 0x500004
/-- 0x5000.05 STREAM_SHARE (R421 of 16_export_and_cipher.md) -/
def STREAM_SHARE : Nat := 0x500005
/-- 0x5000.06 STREAM_KEY_SLOT (R421 of 16_export_and_cipher.md) -/
def STREAM_KEY_SLOT : Nat := 0x500006
/-- 0x5000.07 EXPORT_ID (R421 of 16_export_and_cipher.md) -/
def EXPORT_ID : Nat := 0x500007
/-- 0x5000.08 SNAP_EP (R421 of 16_export_and_cipher.md) -/
def SNAP_EP : Nat := 0x500008
/-- 0x5000.09 SNAP_CONTENT (R421 of 16_export_and_cipher.md) -/
def SNAP_CONTENT : Nat := 0x500009
/-- 0x5000.0A SNAP_KEY_SLOT (R421 of 16_export_and_cipher.md) -/
def SNAP_KEY_SLOT : Nat := 0x50000A
/-- 0x5000.0B SNAP_EVERY (R421 of 16_export_and_cipher.md) -/
def SNAP_EVERY : Nat := 0x50000B
/-- 0x5000.0C SNAP_TIMEOUT (R421 of 16_export_and_cipher.md) -/
def SNAP_TIMEOUT : Nat := 0x50000C
/-- 0x5000.0D SNAP_SEG_BYTES (R421 of 16_export_and_cipher.md) -/
def SNAP_SEG_BYTES : Nat := 0x50000D
/-- 0x5000.10 STREAM_OFFSET (R421 of 16_export_and_cipher.md) -/
def STREAM_OFFSET : Nat := 0x500010
/-- 0x5000.11 STREAM_DURABLE (R421 of 16_export_and_cipher.md) -/
def STREAM_DURABLE : Nat := 0x500011
/-- 0x5000.12 STREAM_FREE (R421 of 16_export_and_cipher.md) -/
def STREAM_FREE : Nat := 0x500012
/-- 0x5000.13 STREAM_WAITS (R421 of 16_export_and_cipher.md) -/
def STREAM_WAITS : Nat := 0x500013
/-- 0x5000.14 GAPS (R421 of 16_export_and_cipher.md) -/
def GAPS : Nat := 0x500014
/-- 0x5000.20 SNAP_COMMAND (R421 of 16_export_and_cipher.md) -/
def SNAP_COMMAND : Nat := 0x500020
/-- 0x5000.21 SNAP_STATE (R421 of 16_export_and_cipher.md) -/
def SNAP_STATE : Nat := 0x500021
/-- 0x5000.22 SNAP_ID (R421 of 16_export_and_cipher.md) -/
def SNAP_ID : Nat := 0x500022
/-- 0x5000.23 SNAP_AT (R421 of 16_export_and_cipher.md) -/
def SNAP_AT : Nat := 0x500023
/-- 0x5000.24 SNAP_HOLDS (R421 of 16_export_and_cipher.md) -/
def SNAP_HOLDS : Nat := 0x500024
/-- 0x5000.25 SNAP_MISSED (R421 of 16_export_and_cipher.md) -/
def SNAP_MISSED : Nat := 0x500025
/-- 0x5000.26 SNAPS_DONE (R421 of 16_export_and_cipher.md) -/
def SNAPS_DONE : Nat := 0x500026
/-- 0x5100.01 KS_SLOT (R422 of 16_export_and_cipher.md) -/
def KS_SLOT : Nat := 0x510001
/-- 0x5100.02 KS_BLOB (R422 of 16_export_and_cipher.md) -/
def KS_BLOB : Nat := 0x510002
/-- 0x5100.03 KS_CLEAR (R422 of 16_export_and_cipher.md) -/
def KS_CLEAR : Nat := 0x510003
/-- 0x5100.04 SLOTS (R422 of 16_export_and_cipher.md) -/
def SLOTS : Nat := 0x510004
/-- 0x5100.05 WRAP_PUB (R422 of 16_export_and_cipher.md) -/
def WRAP_PUB : Nat := 0x510005
/-- 0x5100.06 WRAP_SIG (R422 of 16_export_and_cipher.md) -/
def WRAP_SIG : Nat := 0x510006
/-- 0x5100.07 IV_EPOCH (R422 of 16_export_and_cipher.md) -/
def IV_EPOCH : Nat := 0x510007
/-- 0x5100.08 QUEUE (R422 of 16_export_and_cipher.md) -/
def QUEUE : Nat := 0x510008
/-- 0x5100.09 TAG_FAILS (R422 of 16_export_and_cipher.md) -/
def TAG_FAILS : Nat := 0x510009
/-- 0x5100.0A ENC_DROPPED (R422 of 16_export_and_cipher.md) -/
def ENC_DROPPED : Nat := 0x51000A
/-- 0x5100.0B SUSPENSIONS (R422 of 16_export_and_cipher.md) -/
def SUSPENSIONS : Nat := 0x51000B
/-- 0x5100.0C UNWRAP_FAILS (R422 of 16_export_and_cipher.md) -/
def UNWRAP_FAILS : Nat := 0x51000C
/-- 0x5100.10 FXP_KEY_SLOT (R422 of 16_export_and_cipher.md) -/
def FXP_KEY_SLOT : Nat := 0x510010
/-- 0x6000.01 STATS (R439 of 17_events_and_tension.md) -/
def STATS : Nat := 0x600001
/-- 0x6000.02 HIST (R439 of 17_events_and_tension.md) -/
def HIST : Nat := 0x600002
/-- 0x6000.03 STEPS (R439 of 17_events_and_tension.md) -/
def STEPS : Nat := 0x600003
/-- 0x6000.04 H_NOW (R439 of 17_events_and_tension.md) -/
def H_NOW : Nat := 0x600004
/-- 0x6000.05 CLEAR (R439 of 17_events_and_tension.md) -/
def CLEAR : Nat := 0x600005
/-- 0x6000.06 XCH_TARGET (R439 of 17_events_and_tension.md) -/
def XCH_TARGET : Nat := 0x600006
/-- 0x6000.07 TENSION_EXPORT (R439 of 17_events_and_tension.md) -/
def TENSION_EXPORT : Nat := 0x600007
/-- 0x6000.08 TENSION_BATCH (R439 of 17_events_and_tension.md) -/
def TENSION_BATCH : Nat := 0x600008
/-- 0x6000.09 TENSION_DROPPED (R439 of 17_events_and_tension.md) -/
def TENSION_DROPPED : Nat := 0x600009
/-- 0x6100.01 CORE_INVALID (R433 of 17_events_and_tension.md) -/
def CORE_INVALID : Nat := 0x610001
/-- 0x6100.02 CORE_PERMX (R433 of 17_events_and_tension.md) -/
def CORE_PERMX : Nat := 0x610002
/-- 0x6100.03 CORE_RES_CORR (R433 of 17_events_and_tension.md) -/
def CORE_RES_CORR : Nat := 0x610003
/-- 0x6100.04 CORE_RES_UNCORR (R433 of 17_events_and_tension.md) -/
def CORE_RES_UNCORR : Nat := 0x610004
/-- 0x6100.05 MEM_CORR (R433 of 17_events_and_tension.md) -/
def MEM_CORR : Nat := 0x610005
/-- 0x6100.06 MEM_UNCORR (R433 of 17_events_and_tension.md) -/
def MEM_UNCORR : Nat := 0x610006
/-- 0x6100.07 TOTALS (R433 of 17_events_and_tension.md) -/
def TOTALS : Nat := 0x610007
/-- 0x7000.01 GAUGE_COMMAND (R465 of 18_startup_and_gauge.md) -/
def GAUGE_COMMAND : Nat := 0x700001
/-- 0x7000.02 GAUGE_STATE (R465 of 18_startup_and_gauge.md) -/
def GAUGE_STATE : Nat := 0x700002
/-- 0x7000.03 GAUGE_DIE (R465 of 18_startup_and_gauge.md) -/
def GAUGE_DIE : Nat := 0x700003
/-- 0x7000.04 GAUGE_RECORD (R465 of 18_startup_and_gauge.md) -/
def GAUGE_RECORD : Nat := 0x700004
/-- 0x7000.05 RECORD_AGE (R465 of 18_startup_and_gauge.md) -/
def RECORD_AGE : Nat := 0x700005
/-- 0x7000.06 START_KIND (R465 of 18_startup_and_gauge.md) -/
def START_KIND : Nat := 0x700006
/-- 0x7000.07 DEGRADED (R465 of 18_startup_and_gauge.md) -/
def DEGRADED : Nat := 0x700007
/-- 0x7000.08 FORCE_FULL (R465 of 18_startup_and_gauge.md) -/
def FORCE_FULL : Nat := 0x700008
/-- 0x7000.09 SHUTDOWN_GRACE (R465 of 18_startup_and_gauge.md) -/
def SHUTDOWN_GRACE : Nat := 0x700009
/-- 0x7000.0A RUNS (R465 of 18_startup_and_gauge.md) -/
def RUNS : Nat := 0x70000A
/-- 0x7000.10 CUSTOM_PROG (R465 of 18_startup_and_gauge.md) -/
def CUSTOM_PROG : Nat := 0x700010
/-- 0x7000.11 CUSTOM_RESULT (R465 of 18_startup_and_gauge.md) -/
def CUSTOM_RESULT : Nat := 0x700011
/-- 0x7000.12 DIRECT_EN (R465 of 18_startup_and_gauge.md) -/
def DIRECT_EN : Nat := 0x700012
/-- 0x7100.01 FW_IMAGE (R465 of 18_startup_and_gauge.md) -/
def FW_IMAGE : Nat := 0x710001
/-- 0x7100.02 FW_COMMAND (R465 of 18_startup_and_gauge.md) -/
def FW_COMMAND : Nat := 0x710002
/-- 0x7100.03 FW_STATE (R465 of 18_startup_and_gauge.md) -/
def FW_STATE : Nat := 0x710003
/-- 0x7100.04 FW_REASON (R465 of 18_startup_and_gauge.md) -/
def FW_REASON : Nat := 0x710004
/-- 0x7100.05 BANKS (R465 of 18_startup_and_gauge.md) -/
def BANKS : Nat := 0x710005
/-- 0x7100.06 RUNNING_SECVER (R465 of 18_startup_and_gauge.md) -/
def RUNNING_SECVER : Nat := 0x710006
/-- 0x7100.07 FLOOR_SECVER (R465 of 18_startup_and_gauge.md) -/
def FLOOR_SECVER : Nat := 0x710007
/-- 0x7100.08 ROOT_KEYS (R465 of 18_startup_and_gauge.md) -/
def ROOT_KEYS : Nat := 0x710008
/-- 0xC010.01 DDR_CORE (R115 of 05_needle_bed.md) -/
def DDR_CORE : Nat := 0xC01001
/-- 0xC010.02 DDR_TILE (R115 of 05_needle_bed.md) -/
def DDR_TILE : Nat := 0xC01002
/-- 0xC010.03 DDR_FIRST (R115 of 05_needle_bed.md) -/
def DDR_FIRST : Nat := 0xC01003
/-- 0xC010.04 DDR_COUNT (R115 of 05_needle_bed.md) -/
def DDR_COUNT : Nat := 0xC01004
/-- 0xC010.05 DDR_STATUS (R115 of 05_needle_bed.md) -/
def DDR_STATUS : Nat := 0xC01005
/-- 0xC010.06 DDR_TSTAT (R115 of 05_needle_bed.md) -/
def DDR_TSTAT : Nat := 0xC01006
/-- 0xC010.07 DDR_DATA (R115 of 05_needle_bed.md) -/
def DDR_DATA : Nat := 0xC01007
/-- 0xC010.08 DDR_POISON (R115 of 05_needle_bed.md) -/
def DDR_POISON : Nat := 0xC01008
/-- 0xC020.01 VBR_CORE (R149 of 06_ribber.md) -/
def VBR_CORE : Nat := 0xC02001
/-- 0xC020.02 VBR_BUF (R149 of 06_ribber.md) -/
def VBR_BUF : Nat := 0xC02002
/-- 0xC020.03 VBR_FIRST (R149 of 06_ribber.md) -/
def VBR_FIRST : Nat := 0xC02003
/-- 0xC020.04 VBR_COUNT (R149 of 06_ribber.md) -/
def VBR_COUNT : Nat := 0xC02004
/-- 0xC020.05 VBR_STATUS (R149 of 06_ribber.md) -/
def VBR_STATUS : Nat := 0xC02005
/-- 0xC020.06 VBR_DATA (R149 of 06_ribber.md) -/
def VBR_DATA : Nat := 0xC02006
/-- 0xC020.07 VBR_REGS (R149 of 06_ribber.md) -/
def VBR_REGS : Nat := 0xC02007

/-- Defaults that are not zero, part 0. -/
def defaults0 : List (Nat × Nat) := [(0x100001, 5236943115061821440), (0x110001, 47210), (0x110002, 60), (0x120002, 1), (0x120003, 9216), (0x120007, 64), (0x12000A, 24), (0x12000C, 1), (0x120102, 1), (0x120103, 9216), (0x120107, 64), (0x12010A, 24), (0x12010C, 1), (0x130003, 27487790694), (0x130015, 1000), (0x130017, 100), (0x130023, 255), (0x200002, 720), (0x200003, 620), (0x200004, 2050), (0x200305, 1), (0x200306, 24), (0x210001, 1), (0x210002, 1), (0x210003, 1), (0x210005, 136), (0x210008, 63), (0x210009, 4096), (0x210018, 4294967295), (0x210019, 4294967295), (0x21001A, 4294967295), (0x21001B, 4294967295), (0x21001C, 4294967295), (0x21001D, 4294967295), (0x22000A, 65535), (0x22000B, 65535), (0x230003, 4), (0x230010, 8), (0x230011, 60), (0x240010, 64)]

/-- Defaults that are not zero, part 1. -/
def defaults1 : List (Nat × Nat) := [(0x240011, 8), (0x240012, 15), (0x300008, 65535), (0x300009, 102542344192), (0x31000A, 500), (0x31000B, 3), (0x31000C, 256), (0x320011, 966609234), (0x320012, 1), (0x320013, 1063675494), (0x320014, 1064514355), (0x320015, 841731191), (0x320017, 1064514355), (0x320018, 5), (0x320019, 1077936128), (0x32001A, 3226258637), (0x32001B, 1067030938), (0x32001C, 1064514355), (0x32001D, 10), (0x32001E, 897988541), (0x32001F, 10), (0x320020, 1), (0x330001, 1065353216), (0x330002, 1148846080), (0x330004, 65535), (0x340004, 4), (0x400003, 47211), (0x400004, 1065353216), (0x400005, 64), (0x400008, 9), (0x40000A, 256), (0x40000B, 100), (0x40000C, 2000), (0x40000D, 10000), (0x40000E, 2000), (0x40000F, 16), (0x400010, 1028443341), (0x400011, 256), (0x400012, 8192), (0x400013, 1)]

/-- Defaults that are not zero, part 2. -/
def defaults2 : List (Nat × Nat) := [(0x400014, 400), (0x400015, 64), (0x400016, 64), (0x400026, 255), (0x410002, 256), (0x410003, 1), (0x420001, 1060320051), (0x420002, 1063675494), (0x420003, 1056964608), (0x420004, 8), (0x500004, 256), (0x500005, 40), (0x500006, 255), (0x50000C, 600), (0x50000D, 1048576), (0x600006, 50), (0x600008, 64), (0x700003, 255), (0x700009, 5000), (0xC01004, 1), (0xC02004, 64)]

/-- Defaults that are not zero. -/
def defaults : List (Nat × Nat) := defaults0 ++ defaults1 ++ defaults2

/-- The default of an object: its value at reset (R383). Zero where its table gives zero or gives none (DESIGN CHOICE, log 2). -/
def dflt (k : Nat) : Nat := Sparse.get (fun _ => 0) defaults k

/-- Objects of index 0x1000. -/
def table1000 : List ObjDef := [⟨0x100001, .u64, .RO, .any⟩,
  ⟨0x100002, .str, .RO, .maxLen 32⟩,
  ⟨0x100003, .domain, .RO, .len 57⟩,
  ⟨0x100004, .domain, .RO, .len 8⟩]
/-- Objects of index 0x1001. -/
def table1001 : List ObjDef := [⟨0x100101, .u8, .RO, .nat 0 4⟩,
  ⟨0x100102, .u8, .ST, .nat 0 4⟩,
  ⟨0x100103, .domain, .ST, .maxLen 1024⟩,
  ⟨0x1001FF, .u8, .WO, .nat 1 1⟩]
/-- Objects of index 0x1002. -/
def table1002 : List ObjDef := [⟨0x100201, .u8, .ST, .nat 0 15⟩,
  ⟨0x100202, .u8, .ST, .nat 0 3⟩,
  ⟨0x100203, .domain, .ST, .len 57⟩,
  ⟨0x100204, .domain, .RO, .len 1280⟩,
  ⟨0x1002FF, .u8, .WO, .nat 1 1⟩]
/-- Objects of index 0x1003. -/
def table1003 : List ObjDef := [⟨0x100301, .bool, .RW, .any⟩,
  ⟨0x100302, .bool, .RW, .any⟩]
/-- Objects of index 0x1004. -/
def table1004 : List ObjDef := [⟨0x100401, .domain, .RO, .len 338⟩,
  ⟨0x100402, .domain, .RO, .len 219⟩]
/-- Objects of index 0x1005. -/
def table1005 : List ObjDef := [⟨0x100501, .u16, .RO, .any⟩,
  ⟨0x100502, .u8, .RO, .nat 0 2⟩,
  ⟨0x100503, .bool, .RO, .any⟩,
  ⟨0x100504, .u64, .RO, .any⟩,
  ⟨0x100505, .u32, .RO, .any⟩,
  ⟨0x100506, .u32, .RO, .any⟩]
/-- Objects of index 0x1100. -/
def table1100 : List ObjDef := [⟨0x110001, .u16, .ST, .nat 1024 65535⟩,
  ⟨0x110002, .u32, .ST, .nat 5 86400⟩,
  ⟨0x110003, .domain, .RO, .len 512⟩,
  ⟨0x110004, .u8, .RO, .nat 0 7⟩,
  ⟨0x110005, .u8, .WO, .nat 0 7⟩,
  ⟨0x110006, .u32, .RC, .any⟩,
  ⟨0x110007, .u32, .RC, .any⟩,
  ⟨0x110008, .u32, .RC, .any⟩,
  ⟨0x110009, .u32, .RC, .any⟩,
  ⟨0x11000A, .u32, .RC, .any⟩,
  ⟨0x1100FF, .u8, .WO, .nat 1 1⟩]
/-- Objects of index 0x1200. -/
def table1200 : List ObjDef := [⟨0x120001, .u8, .ST, .nat 0 1⟩,
  ⟨0x120002, .u8, .ST, .nat 0 3⟩,
  ⟨0x120003, .u16, .ST, .nat 1518 9216⟩,
  ⟨0x120004, .u16, .ST, .nat 0 4094⟩,
  ⟨0x120005, .u8, .ST, .nat 0 7⟩,
  ⟨0x120006, .domain, .ST, .len 16⟩,
  ⟨0x120007, .u8, .ST, .nat 1 128⟩,
  ⟨0x120008, .domain, .ST, .len 16⟩,
  ⟨0x120009, .u32, .ST, .any⟩,
  ⟨0x12000A, .u8, .ST, .nat 1 32⟩,
  ⟨0x12000B, .u32, .ST, .any⟩,
  ⟨0x12000C, .bool, .ST, .any⟩,
  ⟨0x12000D, .bool, .ST, .any⟩,
  ⟨0x120010, .u64, .RO, .any⟩,
  ⟨0x120011, .domain, .RO, .len 16⟩,
  ⟨0x120012, .u8, .RO, .nat 0 4⟩,
  ⟨0x120013, .domain, .RO, .len 32⟩,
  ⟨0x120014, .u32, .RC, .any⟩,
  ⟨0x1200FF, .u8, .WO, .nat 1 1⟩]
/-- Objects of index 0x1201. -/
def table1201 : List ObjDef := [⟨0x120101, .u8, .ST, .nat 0 1⟩,
  ⟨0x120102, .u8, .ST, .nat 0 3⟩,
  ⟨0x120103, .u16, .ST, .nat 1518 9216⟩,
  ⟨0x120104, .u16, .ST, .nat 0 4094⟩,
  ⟨0x120105, .u8, .ST, .nat 0 7⟩,
  ⟨0x120106, .domain, .ST, .len 16⟩,
  ⟨0x120107, .u8, .ST, .nat 1 128⟩,
  ⟨0x120108, .domain, .ST, .len 16⟩,
  ⟨0x120109, .u32, .ST, .any⟩,
  ⟨0x12010A, .u8, .ST, .nat 1 32⟩,
  ⟨0x12010B, .u32, .ST, .any⟩,
  ⟨0x12010C, .bool, .ST, .any⟩,
  ⟨0x12010D, .bool, .ST, .any⟩,
  ⟨0x120110, .u64, .RO, .any⟩,
  ⟨0x120111, .domain, .RO, .len 16⟩,
  ⟨0x120112, .u8, .RO, .nat 0 4⟩,
  ⟨0x120113, .domain, .RO, .len 32⟩,
  ⟨0x120114, .u32, .RC, .any⟩,
  ⟨0x1201FF, .u8, .WO, .nat 1 1⟩]
/-- Objects of index 0x1300. -/
def table1300 : List ObjDef := [⟨0x130001, .u64, .RO, .any⟩,
  ⟨0x130002, .domain, .RO, .len 10⟩,
  ⟨0x130003, .u64, .RO, .any⟩,
  ⟨0x130004, .i32, .RO, .any⟩,
  ⟨0x130005, .u8, .RO, .nat 0 4⟩,
  ⟨0x130006, .u8, .W1C, .any⟩,
  ⟨0x130007, .bool, .RW, .any⟩,
  ⟨0x130010, .u8, .ST, .nat 0 2⟩,
  ⟨0x130011, .u8, .ST, .nat 0 1⟩,
  ⟨0x130012, .u8, .ST, .nat 0 127⟩,
  ⟨0x130013, .domain, .ST, .len 8⟩,
  ⟨0x130014, .u64, .WO, .any⟩,
  ⟨0x130015, .u16, .ST, .nat 100 10000⟩,
  ⟨0x130016, .domain, .ST, .len 256⟩,
  ⟨0x130017, .u16, .ST, .nat 10 10000⟩,
  ⟨0x130020, .u8, .RO, .nat 0 5⟩,
  ⟨0x130021, .u8, .RO, .any⟩,
  ⟨0x130022, .i64, .RO, .any⟩,
  ⟨0x130023, .u8, .RO, .any⟩,
  ⟨0x130024, .domain, .RO, .len 10⟩,
  ⟨0x130025, .u32, .RC, .any⟩,
  ⟨0x130026, .u32, .RC, .any⟩,
  ⟨0x130027, .domain, .RO, .len 512⟩,
  ⟨0x130028, .domain, .RO, .any⟩,
  ⟨0x130029, .u32, .RO, .any⟩,
  ⟨0x1300FF, .u8, .WO, .nat 1 1⟩]
/-- Objects of index 0x2000. -/
def table2000 : List ObjDef := [⟨0x200001, .u16, .RO, .nat 620 800⟩,
  ⟨0x200002, .u16, .ST, .nat 620 800⟩,
  ⟨0x200003, .u16, .ST, .nat 620 800⟩,
  ⟨0x200004, .u16, .ST, .nat 800 2050⟩,
  ⟨0x200005, .u16, .RO, .nat 0 3000⟩,
  ⟨0x200006, .u16, .RO, .nat 0 3000⟩,
  ⟨0x200007, .u16, .RC, .nat 0 3000⟩,
  ⟨0x200008, .u8, .RO, .nat 0 3⟩,
  ⟨0x200009, .f32, .RO, .any⟩,
  ⟨0x20000A, .u32, .RC, .any⟩,
  ⟨0x20000B, .u32, .RC, .any⟩,
  ⟨0x20000C, .u32, .RC, .any⟩,
  ⟨0x2000FF, .u8, .WO, .nat 1 1⟩]
/-- Objects of index 0x2001. -/
def table2001 : List ObjDef := [⟨0x200101, .f32, .RO, .any⟩,
  ⟨0x200102, .f32, .RO, .any⟩,
  ⟨0x200103, .f32, .RO, .any⟩,
  ⟨0x200104, .f32, .RO, .any⟩]
/-- Objects of index 0x2002. -/
def table2002 : List ObjDef := [⟨0x200201, .f32, .RO, .any⟩,
  ⟨0x200202, .f32, .RO, .any⟩,
  ⟨0x200203, .f32, .RO, .any⟩,
  ⟨0x200204, .f32, .RO, .any⟩,
  ⟨0x200205, .f32, .RO, .any⟩]
/-- Objects of index 0x2003. -/
def table2003 : List ObjDef := [⟨0x200301, .u16, .RO, .any⟩,
  ⟨0x200302, .f32, .RO, .any⟩,
  ⟨0x200303, .u8, .RO, .nat 0 2⟩,
  ⟨0x200304, .u32, .RO, .any⟩,
  ⟨0x200305, .bool, .ST, .any⟩,
  ⟨0x200306, .u8, .ST, .nat 0 31⟩,
  ⟨0x200307, .bool, .ST, .any⟩,
  ⟨0x2003FF, .u8, .WO, .nat 1 1⟩]
/-- Objects of index 0x2100. -/
def table2100 : List ObjDef := [⟨0x210001, .u8, .ST, .nat 1 16⟩,
  ⟨0x210002, .u8, .ST, .nat 1 16⟩,
  ⟨0x210003, .u8, .ST, .nat 1 16⟩,
  ⟨0x210004, .u8, .ST, .nat 0 7⟩,
  ⟨0x210005, .u16, .ST, .any⟩,
  ⟨0x210006, .u16, .RO, .nat 0 4095⟩,
  ⟨0x210007, .u16, .RO, .any⟩,
  ⟨0x210008, .u8, .RW, .nat 0 63⟩,
  ⟨0x210009, .u16, .RO, .nat 0 4096⟩,
  ⟨0x21000A, .domain, .RO, .len 32768⟩,
  ⟨0x21000B, .u32, .RC, .any⟩,
  ⟨0x21000C, .domain, .RO, .len 32⟩,
  ⟨0x210010, .u8, .RO, .nat 0 5⟩,
  ⟨0x210011, .u8, .RO, .nat 0 5⟩,
  ⟨0x210012, .u8, .RO, .nat 0 5⟩,
  ⟨0x210013, .u8, .RO, .nat 0 5⟩,
  ⟨0x210014, .u8, .RO, .nat 0 5⟩,
  ⟨0x210015, .u8, .RO, .nat 0 5⟩,
  ⟨0x210018, .u32, .RO, .any⟩,
  ⟨0x210019, .u32, .RO, .any⟩,
  ⟨0x21001A, .u32, .RO, .any⟩,
  ⟨0x21001B, .u32, .RO, .any⟩,
  ⟨0x21001C, .u32, .RO, .any⟩,
  ⟨0x21001D, .u32, .RO, .any⟩,
  ⟨0x210020, .domain, .RO, .len 48⟩,
  ⟨0x210021, .domain, .RO, .len 48⟩,
  ⟨0x210022, .domain, .RO, .len 48⟩,
  ⟨0x210023, .domain, .RO, .len 48⟩,
  ⟨0x210024, .domain, .RO, .len 48⟩,
  ⟨0x210025, .domain, .RO, .len 48⟩,
  ⟨0x210028, .domain, .RO, .len 288⟩,
  ⟨0x2100FF, .u8, .WO, .nat 1 1⟩]
/-- Objects of index 0x2200. -/
def table2200 : List ObjDef := [⟨0x220001, .u16, .ST, .nat 1 65535⟩,
  ⟨0x220002, .u16, .ST, .any⟩,
  ⟨0x220003, .u16, .ST, .any⟩,
  ⟨0x220004, .u8, .ST, .nat 0 7⟩,
  ⟨0x220005, .u8, .ST, .nat 0 5⟩,
  ⟨0x220006, .u8, .WO, .nat 1 3⟩,
  ⟨0x220007, .u8, .RO, .nat 0 4⟩,
  ⟨0x220008, .u8, .RO, .nat 0 10⟩,
  ⟨0x220009, .u16, .RO, .nat 0 2048⟩,
  ⟨0x22000A, .u16, .RO, .any⟩,
  ⟨0x22000B, .u16, .RO, .any⟩,
  ⟨0x2200FF, .u8, .WO, .nat 1 1⟩]
/-- Objects of index 0x2300. -/
def table2300 : List ObjDef := [⟨0x230001, .domain, .RO, .len 512⟩,
  ⟨0x230002, .bool, .RO, .any⟩,
  ⟨0x230003, .u16, .RO, .nat 4 72⟩,
  ⟨0x230004, .domain, .RO, .any⟩,
  ⟨0x230005, .u32, .RC, .any⟩,
  ⟨0x230006, .domain, .RO, .len 24⟩,
  ⟨0x230007, .u32, .RC, .any⟩,
  ⟨0x230010, .u16, .RW, .nat 1 168⟩,
  ⟨0x230011, .u16, .RW, .nat 5 1440⟩,
  ⟨0x230012, .u32, .RO, .any⟩,
  ⟨0x230013, .u32, .RO, .any⟩,
  ⟨0x230014, .domain, .RO, .len 384⟩,
  ⟨0x230015, .u32, .RC, .any⟩,
  ⟨0x230016, .domain, .RO, .len 576⟩]
/-- Objects of index 0x2400. -/
def table2400 : List ObjDef := [⟨0x240001, .domain, .RO, .len 8192⟩,
  ⟨0x240002, .domain, .RO, .len 160⟩,
  ⟨0x240003, .u32, .RC, .any⟩,
  ⟨0x240004, .u64, .RO, .any⟩,
  ⟨0x240010, .u16, .ST, .nat 64 511⟩,
  ⟨0x240011, .u8, .ST, .nat 0 31⟩,
  ⟨0x240012, .u8, .ST, .nat 1 15⟩,
  ⟨0x2400FF, .u8, .WO, .nat 1 1⟩]
/-- Objects of index 0x3000. -/
def table3000 : List ObjDef := [⟨0x300001, .u8, .RO, .nat 0 7⟩,
  ⟨0x300002, .domain, .WO, .maxLen 268435456⟩,
  ⟨0x300003, .domain, .RO, .len 64⟩,
  ⟨0x300004, .u8, .WO, .nat 1 5⟩,
  ⟨0x300005, .u64, .RO, .any⟩,
  ⟨0x300006, .bool, .RO, .any⟩,
  ⟨0x300007, .u16, .RO, .nat 0 24576⟩,
  ⟨0x300008, .u16, .RO, .any⟩,
  ⟨0x300009, .u64, .RO, .any⟩,
  ⟨0x30000A, .u64, .RO, .any⟩,
  ⟨0x300010, .domain, .RO, .len 40⟩]
/-- Objects of index 0x3100. -/
def table3100 : List ObjDef := [⟨0x310001, .u8, .RO, .nat 0 3⟩,
  ⟨0x310002, .u64, .RO, .any⟩,
  ⟨0x310003, .domain, .RO, .len 40⟩,
  ⟨0x310004, .u64, .RO, .any⟩,
  ⟨0x310005, .u32, .RO, .any⟩,
  ⟨0x310006, .u32, .RC, .any⟩,
  ⟨0x310007, .u32, .RC, .any⟩,
  ⟨0x310008, .u32, .RC, .any⟩,
  ⟨0x310009, .u32, .RC, .any⟩,
  ⟨0x31000A, .u32, .ST, .nat 10 60000⟩,
  ⟨0x31000B, .u8, .ST, .nat 1 15⟩,
  ⟨0x31000C, .u16, .ST, .nat 1 4096⟩,
  ⟨0x310010, .domain, .ST, .len 32⟩,
  ⟨0x310011, .domain, .ST, .len 32⟩,
  ⟨0x310012, .domain, .ST, .len 32⟩,
  ⟨0x310013, .domain, .ST, .len 32⟩,
  ⟨0x310014, .domain, .ST, .len 32⟩,
  ⟨0x310015, .domain, .ST, .len 32⟩,
  ⟨0x310016, .domain, .ST, .len 32⟩,
  ⟨0x310017, .domain, .ST, .len 32⟩,
  ⟨0x310018, .domain, .ST, .len 32⟩,
  ⟨0x310019, .domain, .ST, .len 32⟩,
  ⟨0x31001A, .domain, .ST, .len 32⟩,
  ⟨0x31001B, .domain, .ST, .len 32⟩,
  ⟨0x31001C, .domain, .ST, .len 32⟩,
  ⟨0x31001D, .domain, .ST, .len 32⟩,
  ⟨0x31001E, .domain, .ST, .len 32⟩,
  ⟨0x31001F, .domain, .ST, .len 32⟩,
  ⟨0x3100FF, .u8, .WO, .nat 1 1⟩]
/-- Objects of index 0x3101. -/
def table3101 : List ObjDef := [⟨0x310101, .domain, .RO, .len 1024⟩,
  ⟨0x310102, .u16, .RO, .nat 0 255⟩,
  ⟨0x310103, .u64, .RO, .any⟩,
  ⟨0x310104, .domain, .RO, .len 32⟩]
/-- Objects of index 0x3102. -/
def table3102 : List ObjDef := [⟨0x310201, .domain, .ST, .maxLen 16777216⟩,
  ⟨0x310202, .u8, .RO, .nat 0 6⟩,
  ⟨0x310203, .u64, .RO, .any⟩,
  ⟨0x310204, .u32, .RO, .any⟩,
  ⟨0x3102FF, .u8, .WO, .nat 1 1⟩]
/-- Objects of index 0x3200. -/
def table3200 : List ObjDef := [⟨0x320001, .u32, .RO, .nat 0 1048576⟩,
  ⟨0x320002, .u32, .RO, .any⟩,
  ⟨0x320003, .u64, .RO, .any⟩,
  ⟨0x320004, .u64, .RO, .any⟩,
  ⟨0x320005, .u64, .RO, .any⟩,
  ⟨0x320006, .u32, .RC, .any⟩,
  ⟨0x320007, .u32, .RC, .any⟩,
  ⟨0x320008, .u32, .RC, .any⟩,
  ⟨0x320009, .u32, .RC, .any⟩,
  ⟨0x32000A, .u32, .W1C, .any⟩,
  ⟨0x32000B, .u64, .RO, .any⟩,
  ⟨0x32000C, .u32, .RW, .nat 0 1048575⟩,
  ⟨0x32000D, .domain, .RO, .len 32⟩,
  ⟨0x32000E, .u64, .RO, .any⟩,
  ⟨0x320010, .u8, .ST, .nat 0 15⟩,
  ⟨0x320011, .f32, .ST, .f32 1 1065353216⟩,
  ⟨0x320012, .u32, .ST, .nat 1 4294967295⟩,
  ⟨0x320013, .f32, .ST, .f32 0 1065353215⟩,
  ⟨0x320014, .f32, .ST, .f32 0 1065353215⟩,
  ⟨0x320015, .f32, .ST, .f32 1 1065353216⟩,
  ⟨0x320016, .f32, .ST, .f32 0 1065353216⟩,
  ⟨0x320017, .f32, .ST, .f32 0 1065353215⟩,
  ⟨0x320018, .u8, .ST, .nat 1 8⟩,
  ⟨0x320019, .f32, .ST, .f32 (-2139095039) 2139095039⟩,
  ⟨0x32001A, .f32, .ST, .f32 (-2139095039) 2139095039⟩,
  ⟨0x32001B, .f32, .ST, .f32 (-2139095039) 2139095039⟩,
  ⟨0x32001C, .f32, .ST, .f32 0 1065353215⟩,
  ⟨0x32001D, .u16, .ST, .nat 1 65535⟩,
  ⟨0x32001E, .f32, .ST, .f32 1 1065353216⟩,
  ⟨0x32001F, .u8, .ST, .nat 1 32⟩,
  ⟨0x320020, .bool, .ST, .any⟩,
  ⟨0x3200FF, .u8, .WO, .nat 1 1⟩]
/-- Objects of index 0x3300. -/
def table3300 : List ObjDef := [⟨0x330001, .f32, .ST, .f32 1 2139095039⟩,
  ⟨0x330002, .f32, .ST, .f32 1 2139095039⟩,
  ⟨0x330003, .u8, .ST, .nat 0 2⟩,
  ⟨0x330004, .u16, .RO, .any⟩,
  ⟨0x330005, .domain, .RO, .len 64⟩,
  ⟨0x330006, .u64, .RO, .any⟩,
  ⟨0x330007, .u64, .RO, .any⟩,
  ⟨0x330008, .u64, .RO, .any⟩,
  ⟨0x330009, .domain, .RO, .len 24⟩,
  ⟨0x33000A, .u32, .RC, .any⟩,
  ⟨0x33000B, .u32, .RC, .any⟩,
  ⟨0x3300FF, .u8, .WO, .nat 1 1⟩]
/-- Objects of index 0x3400. -/
def table3400 : List ObjDef := [⟨0x340001, .domain, .RO, .len 6148⟩,
  ⟨0x340002, .domain, .RO, .len 512⟩,
  ⟨0x340003, .u32, .RC, .any⟩,
  ⟨0x340004, .u8, .RW, .nat 1 15⟩,
  ⟨0x340005, .u8, .RO, .nat 0 255⟩,
  ⟨0x340006, .u32, .RO, .any⟩,
  ⟨0x340007, .u32, .RC, .any⟩,
  ⟨0x340008, .u32, .RC, .any⟩,
  ⟨0x340009, .u32, .RC, .any⟩,
  ⟨0x34000A, .u32, .RC, .any⟩,
  ⟨0x34000B, .u32, .RC, .any⟩,
  ⟨0x34000C, .u64, .RO, .any⟩,
  ⟨0x34000D, .u64, .RO, .any⟩,
  ⟨0x34000E, .u32, .RO, .any⟩,
  ⟨0x34000F, .u8, .W1C, .any⟩,
  ⟨0x340010, .domain, .RO, .len 24⟩]
/-- Objects of index 0x4000. -/
def table4000 : List ObjDef := [⟨0x400001, .u32, .ST, .nat 1 4294967295⟩,
  ⟨0x400002, .u8, .ST, .nat 0 63⟩,
  ⟨0x400003, .u16, .ST, .nat 1024 65535⟩,
  ⟨0x400004, .f32, .ST, .f32 1 2139095039⟩,
  ⟨0x400005, .u8, .ST, .nat 2 64⟩,
  ⟨0x400006, .domain, .ST, .len 160⟩,
  ⟨0x400007, .domain, .ST, .len 64⟩,
  ⟨0x400008, .u8, .ST, .nat 2 16⟩,
  ⟨0x400009, .u32, .ST, .any⟩,
  ⟨0x40000A, .u16, .ST, .nat 8 1024⟩,
  ⟨0x40000B, .u16, .ST, .nat 10 1000⟩,
  ⟨0x40000C, .u16, .ST, .nat 100 60000⟩,
  ⟨0x40000D, .u32, .ST, .nat 100 3600000⟩,
  ⟨0x40000E, .u16, .ST, .nat 100 60000⟩,
  ⟨0x40000F, .u8, .ST, .nat 2 64⟩,
  ⟨0x400010, .f32, .ST, .f32 1 2139095040⟩,
  ⟨0x400011, .u16, .ST, .nat 16 4096⟩,
  ⟨0x400012, .u16, .ST, .natMult 1024 8192 64⟩,
  ⟨0x400013, .u8, .ST, .any⟩,
  ⟨0x400014, .u16, .ST, .nat 1 400⟩,
  ⟨0x400015, .u16, .ST, .nat 1 65535⟩,
  ⟨0x400016, .u16, .ST, .nat 1 65535⟩,
  ⟨0x400020, .u8, .RO, .nat 0 5⟩,
  ⟨0x400021, .u32, .RO, .any⟩,
  ⟨0x400022, .domain, .RO, .len 16⟩,
  ⟨0x400023, .u32, .RO, .any⟩,
  ⟨0x400024, .u64, .RO, .any⟩,
  ⟨0x400025, .u64, .RO, .any⟩,
  ⟨0x400026, .u8, .RO, .any⟩,
  ⟨0x400027, .u8, .RO, .nat 0 5⟩,
  ⟨0x400028, .domain, .RO, .maxLen 832⟩,
  ⟨0x400030, .u64, .RO, .any⟩,
  ⟨0x400031, .u32, .RC, .any⟩,
  ⟨0x400032, .u32, .RC, .any⟩,
  ⟨0x400033, .u32, .RC, .any⟩,
  ⟨0x400034, .u32, .RC, .any⟩,
  ⟨0x400035, .u32, .RC, .any⟩,
  ⟨0x400036, .u32, .RC, .any⟩,
  ⟨0x400037, .u32, .RC, .any⟩,
  ⟨0x400038, .u32, .RC, .any⟩,
  ⟨0x400039, .domain, .RO, .any⟩,
  ⟨0x400040, .u8, .WO, .nat 1 3⟩,
  ⟨0x4000FF, .u8, .WO, .nat 1 1⟩]
/-- Objects of index 0x4100. -/
def table4100 : List ObjDef := [⟨0x410001, .u8, .ST, .nat 0 1⟩,
  ⟨0x410002, .u16, .ST, .nat 8 1024⟩,
  ⟨0x410003, .bool, .ST, .any⟩,
  ⟨0x410010, .u64, .RO, .any⟩,
  ⟨0x410011, .u32, .RC, .any⟩,
  ⟨0x4100FF, .u8, .WO, .nat 1 1⟩]
/-- Objects of index 0x4200. -/
def table4200 : List ObjDef := [⟨0x420001, .f32, .ST, .f32 1 1073741824⟩,
  ⟨0x420002, .f32, .ST, .f32 0 1065353215⟩,
  ⟨0x420003, .f32, .ST, .f32 1 1065353216⟩,
  ⟨0x420004, .u8, .ST, .nat 0 15⟩,
  ⟨0x420010, .u64, .RO, .any⟩,
  ⟨0x420011, .u64, .RO, .any⟩,
  ⟨0x4200FF, .u8, .WO, .nat 1 1⟩]
/-- Objects of index 0x5000. -/
def table5000 : List ObjDef := [⟨0x500001, .u8, .ST, .nat 0 2⟩,
  ⟨0x500002, .u8, .ST, .nat 0 1⟩,
  ⟨0x500003, .domain, .ST, .len 32⟩,
  ⟨0x500004, .u16, .ST, .nat 16 384⟩,
  ⟨0x500005, .u16, .ST, .nat 1 400⟩,
  ⟨0x500006, .u8, .ST, .natOr 0 63 255⟩,
  ⟨0x500007, .u32, .ST, .any⟩,
  ⟨0x500008, .domain, .ST, .len 32⟩,
  ⟨0x500009, .u8, .ST, .nat 0 2⟩,
  ⟨0x50000A, .u8, .ST, .nat 0 63⟩,
  ⟨0x50000B, .u32, .ST, .any⟩,
  ⟨0x50000C, .u32, .ST, .nat 10 86400⟩,
  ⟨0x50000D, .u32, .ST, .natMult 4096 4194304 4096⟩,
  ⟨0x500010, .u64, .RO, .any⟩,
  ⟨0x500011, .u64, .RO, .any⟩,
  ⟨0x500012, .u32, .RO, .any⟩,
  ⟨0x500013, .u32, .RC, .any⟩,
  ⟨0x500014, .u32, .RC, .any⟩,
  ⟨0x500020, .u8, .WO, .nat 1 2⟩,
  ⟨0x500021, .u8, .RO, .nat 0 5⟩,
  ⟨0x500022, .domain, .RO, .len 12⟩,
  ⟨0x500023, .u64, .RO, .any⟩,
  ⟨0x500024, .u32, .RC, .any⟩,
  ⟨0x500025, .u32, .RC, .any⟩,
  ⟨0x500026, .u32, .RO, .any⟩,
  ⟨0x5000FF, .u8, .WO, .nat 1 1⟩]
/-- Objects of index 0x5100. -/
def table5100 : List ObjDef := [⟨0x510001, .u8, .ST, .nat 0 63⟩,
  ⟨0x510002, .domain, .ST, .len 132⟩,
  ⟨0x510003, .bool, .ST, .any⟩,
  ⟨0x510004, .domain, .RO, .len 1536⟩,
  ⟨0x510005, .domain, .RO, .len 56⟩,
  ⟨0x510006, .domain, .RO, .len 114⟩,
  ⟨0x510007, .u32, .RO, .any⟩,
  ⟨0x510008, .domain, .RO, .len 8⟩,
  ⟨0x510009, .u32, .RC, .any⟩,
  ⟨0x51000A, .u32, .RC, .any⟩,
  ⟨0x51000B, .u32, .RC, .any⟩,
  ⟨0x51000C, .u32, .RC, .any⟩,
  ⟨0x510010, .u8, .ST, .nat 0 63⟩,
  ⟨0x5100FF, .u8, .WO, .nat 1 1⟩]
/-- Objects of index 0x6000. -/
def table6000 : List ObjDef := [⟨0x600001, .domain, .RO, .len 288⟩,
  ⟨0x600002, .domain, .RO, .len 1152⟩,
  ⟨0x600003, .u64, .RO, .any⟩,
  ⟨0x600004, .u16, .RO, .any⟩,
  ⟨0x600005, .u8, .WO, .nat 1 1⟩,
  ⟨0x600006, .u16, .ST, .nat 1 1000⟩,
  ⟨0x600007, .bool, .ST, .any⟩,
  ⟨0x600008, .u16, .ST, .nat 1 64⟩,
  ⟨0x600009, .u32, .RC, .any⟩,
  ⟨0x6000FF, .u8, .WO, .nat 1 1⟩]
/-- Objects of index 0x6100. -/
def table6100 : List ObjDef := [⟨0x610001, .domain, .RC, .len 49152⟩,
  ⟨0x610002, .domain, .RC, .len 49152⟩,
  ⟨0x610003, .domain, .RC, .len 49152⟩,
  ⟨0x610004, .domain, .RC, .len 49152⟩,
  ⟨0x610005, .domain, .RC, .len 64⟩,
  ⟨0x610006, .domain, .RC, .len 64⟩,
  ⟨0x610007, .domain, .RO, .len 48⟩]
/-- Objects of index 0x7000. -/
def table7000 : List ObjDef := [⟨0x700001, .u8, .WO, .nat 1 3⟩,
  ⟨0x700002, .u8, .RO, .nat 0 3⟩,
  ⟨0x700003, .u8, .RO, .natOr 0 4 255⟩,
  ⟨0x700004, .domain, .RO, .maxLen 736⟩,
  ⟨0x700005, .u32, .RO, .any⟩,
  ⟨0x700006, .u8, .RO, .nat 0 7⟩,
  ⟨0x700007, .bool, .RO, .any⟩,
  ⟨0x700008, .bool, .RW, .any⟩,
  ⟨0x700009, .u16, .RW, .nat 100 60000⟩,
  ⟨0x70000A, .u32, .RO, .any⟩,
  ⟨0x700010, .domain, .WO, .maxLen 16777216⟩,
  ⟨0x700011, .domain, .RO, .maxLen 16777216⟩,
  ⟨0x700012, .bool, .RW, .any⟩]
/-- Objects of index 0x7100. -/
def table7100 : List ObjDef := [⟨0x710001, .domain, .WO, .maxLen 16777216⟩,
  ⟨0x710002, .u8, .WO, .nat 1 3⟩,
  ⟨0x710003, .u8, .RO, .nat 0 4⟩,
  ⟨0x710004, .u8, .RO, .nat 0 6⟩,
  ⟨0x710005, .domain, .RO, .len 64⟩,
  ⟨0x710006, .u32, .RO, .any⟩,
  ⟨0x710007, .u32, .RO, .any⟩,
  ⟨0x710008, .domain, .RO, .len 320⟩]
/-- Objects of index 0xC010. -/
def tableC010 : List ObjDef := [⟨0xC01001, .u16, .ST, .nat 0 12287⟩,
  ⟨0xC01002, .u8, .ST, .nat 0 15⟩,
  ⟨0xC01003, .u16, .ST, .nat 0 8191⟩,
  ⟨0xC01004, .u16, .ST, .nat 1 8192⟩,
  ⟨0xC01005, .u8, .RO, .any⟩,
  ⟨0xC01006, .domain, .RO, .len 24⟩,
  ⟨0xC01007, .domain, .RO, .any⟩,
  ⟨0xC01008, .domain, .RO, .any⟩,
  ⟨0xC010FF, .u8, .WO, .nat 1 1⟩]
/-- Objects of index 0xC020. -/
def tableC020 : List ObjDef := [⟨0xC02001, .u16, .ST, .nat 0 12287⟩,
  ⟨0xC02002, .u8, .ST, .nat 0 5⟩,
  ⟨0xC02003, .u16, .ST, .nat 0 16383⟩,
  ⟨0xC02004, .u16, .ST, .nat 1 16384⟩,
  ⟨0xC02005, .u8, .RO, .any⟩,
  ⟨0xC02006, .domain, .RO, .any⟩,
  ⟨0xC02007, .domain, .RO, .len 24⟩,
  ⟨0xC020FF, .u8, .WO, .nat 1 1⟩]

/-- The objects of an index, in order of subindex. -/
def table (index : Nat) : List ObjDef :=
  if index = 0x1000 then table1000
  else if index = 0x1001 then table1001
  else if index = 0x1002 then table1002
  else if index = 0x1003 then table1003
  else if index = 0x1004 then table1004
  else if index = 0x1005 then table1005
  else if index = 0x1100 then table1100
  else if index = 0x1200 then table1200
  else if index = 0x1201 then table1201
  else if index = 0x1300 then table1300
  else if index = 0x2000 then table2000
  else if index = 0x2001 then table2001
  else if index = 0x2002 then table2002
  else if index = 0x2003 then table2003
  else if index = 0x2100 then table2100
  else if index = 0x2200 then table2200
  else if index = 0x2300 then table2300
  else if index = 0x2400 then table2400
  else if index = 0x3000 then table3000
  else if index = 0x3100 then table3100
  else if index = 0x3101 then table3101
  else if index = 0x3102 then table3102
  else if index = 0x3200 then table3200
  else if index = 0x3300 then table3300
  else if index = 0x3400 then table3400
  else if index = 0x4000 then table4000
  else if index = 0x4100 then table4100
  else if index = 0x4200 then table4200
  else if index = 0x5000 then table5000
  else if index = 0x5100 then table5100
  else if index = 0x6000 then table6000
  else if index = 0x6100 then table6100
  else if index = 0x7000 then table7000
  else if index = 0x7100 then table7100
  else if index = 0xC010 then tableC010
  else if index = 0xC020 then tableC020
  else []

/-- The object of that number, if the dictionary has it. -/
def find (index sub : Nat) : Option ObjDef := (table index).find? (fun d => d.key == index * 256 + sub)

/-- The ST fields of an index: its coupled group (R383). -/
def group (index : Nat) : List ObjDef := (table index).filter (fun d => d.acc == Acc.ST)

end Obj

/-- A number lies in a range. -/
def Rng.admits : Rng → Nat → Bool
  | .any, _ => true
  | .nat lo hi, v => decide (lo ≤ v) && decide (v ≤ hi)
  | .natOr lo hi x, v => (decide (lo ≤ v) && decide (v ≤ hi)) || v == x
  | .natMult lo hi m, v => decide (lo ≤ v) && decide (v ≤ hi) && v % m == 0
  | .f32 lo hi, v => !f32IsNaN v && decide (lo ≤ f32Key v) && decide (f32Key v ≤ hi)
  | .len _, _ => true
  | .maxLen _, _ => true

end Sys2Proof
end

