-- ==== Sys2Proof/Machine/State.lean ====
section
/-! DEFINITION. The state of the device as plain data, its reset value, and the reasons a step can stop. Each structure
names the rules that give its fields; a map over numbered units is a sparse map whose default is the unit at reset. -/

namespace Sys2Proof.Machine

/-! ## Messages the device sends -/

/-- A message that has left the device. The list of them only grows (DESIGN CHOICE, log 5). -/
inductive Msg where
  /-- A UDP datagram: Ethernet port, destination, its UDP port, source UDP port, payload. -/
  | udp (port : Nat) (peer : BitVec 128) (peerPort srcPort : Nat) (bytes : List Byte)
  /-- A flit on a torus port, with the marks of its poisoned 32-byte units (R197, R217). -/
  | flit (port : Nat) (bytes : List Byte) (marks : List Nat)
  /-- Answers of an Ethernet port (R386): to an ARP request, to a Neighbour Solicitation (address asked for, the port's MAC
  address), and to an echo request (source, the address it named, its data). -/
  | arp (port : Nat) (addr : BitVec 32) (mac : Nat)
  | neighbour (port : Nat) (addr : BitVec 128) (mac : Nat)
  | echo (port : Nat) (peer addr : BitVec 128) (bytes : List Byte)
  /-- The two bytes of a register that an I²C read returns (R473). -/
  | i2c (value : Nat)
  /-- A management message: destination chip, route kind, what it says (Table 9.8). -/
  | mgmt (dest kind : Nat) (body : MgmtBody)
  /-- A flood leaves by a torus port of the slice (R234). -/
  | flood (port : Nat) (body : MgmtBody)
  /-- A memory request on VC 0: chip, number, write, address, master, issuing context's job bit, length, bytes of a write
  with the marks of their 32-byte units (R204, R209). -/
  | memReq (dest id : Nat) (write : Bool) (addr master : Nat) (job : Bool) (len : Nat) (bytes : List Byte) (marks : List Nat)
  /-- Its reply: chip, number, STATUS, REASON, bytes of a read with their marks. -/
  | memRep (dest id status reason : Nat) (bytes : List Byte) (marks : List Nat)
deriving DecidableEq, Repr

/-! ## Power, timebase, board (03, 14, 19) -/

/-- The power loop of CP0's firmware (R53 to R56). The target is the object VCORE_NOW. -/
structure PwrSt where
  /-- The last 20 samples in W, newest first (R53). -/
  samples : List Nat
  /-- Voltage the panel rails have settled at, mV (R54). -/
  railMv : Nat
  /-- A peak trip is in force (R53). -/
  trip : Bool
  /-- A bar hold is in force (R55). -/
  hold : Bool
  /-- The present period is a held one (R55). -/
  heldNow : Bool
  /-- Held periods in a row that ended with a sample above the cap (R55). -/
  heldMisses : Nat
  /-- The hold covers job swatches too (R55). -/
  holdJob : Bool
  /-- A bar hold begins with the next period (R55). -/
  armed : Bool
  /-- The hold at VCORE_MIN of a hot junction (R477). -/
  thermHold : Bool
deriving DecidableEq, Repr

/-- One entry of TIME_LOG, kept as its bytes (Table 14.5). -/
abbrev LogRec := List Byte

/-- The timebase and its discipline (R58 to R61, R370 to R378). -/
structure TbSt where
  /-- 64 bits of ns, 16 shown fraction bits, 16 hidden fraction bits (R58). -/
  acc : BitVec 96
  /-- The REFCLK increment, 8 integer and 32 fraction bits of ns (R58). -/
  inc : BitVec 40
  /-- REFCLK is lost and the on-collar oscillator counts (R61). -/
  onOsc : Bool
  /-- A first offset was accepted since reset or the last change of TIME_MODE (R371). -/
  accepted : Bool
  /-- Prediction of the offset, ns (R376). -/
  predict : Int
  /-- Offset still to be removed by slewing, in units of 2^-32 ns; positive when the device is ahead (R60). -/
  slew : Int
  /-- Amount by which the slew moves the increment, in units of INC. -/
  slewBy : Nat
  /-- Samples seen since the first discarded one, oldest first: time of arrival, offset (R377). -/
  suspects : List (Nat × Int)
  /-- Consecutive samples within 2 µs of the prediction while suspect (R377). -/
  clearRun : Nat
  /-- An accepted APPLY changed ASYM of the reference: the next sample is taken as it stands (R377). -/
  asymNew : Bool
  /-- Timebase at the last PPS_IN edge, as TB_FULL (LAST_PPS). -/
  lastPps : BitVec 80
  /-- Edges arrive and none is missing; an expected one is missing (R59). -/
  ppsLive : Bool
  ppsLost : Bool
  /-- TOD_NEXT and the time its write was accepted (R372). -/
  tod : Option (Nat × Nat)
  /-- clockIdentity of the followed grandmaster, when one was heard (R372). -/
  gm : Option (List Byte)
  /-- Consecutive TWTT intervals without a reply (R378). -/
  silent : Nat
  /-- The present interval has had a reply (R378). -/
  heard : Bool
  /-- Second label of the newest PPS_IN edge (R372). -/
  label : Option Nat
  /-- The mode that acts: TIME_MODE of the present interval (R382). -/
  mode : Nat
  /-- Probes sent and not answered: number of the peer, SEQ, PURPOSE, T1 (R374). -/
  probes : List (Nat × Nat × Nat × Nat)
  /-- Next probe number per peer (R374). -/
  probeSeq : Sparse Nat
  /-- Samples of the present TWTT interval: round trip, offset (R373). -/
  burst : List (Int × Int)
  /-- TIME_LOG, newest first, at most 16 (R382). -/
  log : List LogRec
deriving DecidableEq, Repr

/-- Frame counters of an Ethernet port: sent, received, FCS errors, discarded (R386, R388). -/
structure EthSt where
  sent : Nat
  rcvd : Nat
  fcs : Nat
  dropped : Nat
deriving DecidableEq, Repr

/-- Sensors and the board's pins (R467, R468, R473, R475, R477, R479). -/
structure BoardSt where
  /-- Input current, 0.1 A, of the newest sample (R473). -/
  iin : Nat
  /-- SHUTDOWN_REQ_N and FL_PROG_N as the board drives them; true is high. -/
  shutdownReqN : Bool
  flProgN : Bool
  /-- RESET_N as the board drives it; true is high. -/
  resetN : Bool
  /-- The regulators run; they are in regulation; the input is above its overvoltage threshold (R475, R442). -/
  regsOn : Bool
  regsOk : Bool
  overvolt : Bool
  /-- Input power is present (R475). -/
  inputOk : Bool
  /-- A thermal trip holds the module in reset (R477). -/
  tripped : Bool
  /-- A trip is recorded since the last read of THERM_TRIPS (Table 19.5). -/
  tripUnread : Bool
  /-- THERM_ALERT_N is driven low (R477). -/
  thermAlert : Bool
  /-- EVENT_EN, EVENT_LEVEL, PPS_OUT_EN as they act in the present 50 µs period (R479). -/
  eventEn : Bool
  eventLevel : Nat
  ppsOutEn : Bool
  /-- PPS_OUT is high since this second (R470). -/
  ppsOut : Bool
  /-- The banks partition is connected to the flash pins (R472). -/
  flashPins : Bool
  /-- I²C register pointer (R473). -/
  i2cPtr : Nat
deriving DecidableEq, Repr

/-! ## Boot, flash, lifecycle (18) -/

/-- Where the device stands in Table 18.3. -/
inductive Stage where
  /-- Held in reset. -/
  | held
  /-- Mask ROM runs (step 3); firmware is being verified (step 4). -/
  | rom
  /-- Ethernet boot (R448). -/
  | ethBoot
  /-- STATUS 0b000: no valid firmware, or a reserved strap value. -/
  | failed
  /-- Firmware runs; the reset sequence has ended (step 5). -/
  | firmware
  /-- Memory is written; the full start's Gauge programme runs (step 8). -/
  | fullStart
  /-- Memory is written and the record judged (step 7 or 8). -/
  | memory
  /-- Step 10 is reached. -/
  | ready
deriving DecidableEq, Repr

/-- An Ethernet boot's accepted offer (R448): port of the server's datagram, its address and UDP port, TOTAL. -/
structure BootOffer where
  peer : BitVec 128
  peerPort : Nat
  total : Nat
deriving DecidableEq, Repr

/-- The boot in progress (R443 to R448). -/
structure BootSt where
  stage : Stage
  /-- Straps as sampled (Table 18.1). -/
  straps : BitVec 16
  offer : Option BootOffer
  /-- Image segments held, oldest first: offset, bytes (R448). -/
  segs : List (Nat × List Byte)
  /-- Digest of the running firmware (R454). -/
  fwDigest : List Byte
  /-- A shutdown asked for during the start begins at step 10 (Table 18.9). -/
  shutAtReady : Bool
deriving DecidableEq, Repr

/-- A Gauge run in progress (R456 to R459). -/
structure GaugeRun where
  trigger : Nat
  custom : Bool
  start : Nat
  die : Nat
  /-- DIES and FAIL entries written so far. -/
  dies : List (List Byte)
  fails : List (List Byte)
deriving DecidableEq, Repr

/-- Gauge and the shutdown (R456 to R463). -/
structure GaugeSt where
  run : Option GaugeRun
  /-- A run with RESULT 0 or 1 has ended in this power cycle and no image has been loaded since (R463). -/
  passed : Bool
  /-- The shutdown has begun (R462). -/
  shut : Bool
  /-- The grace of steps 3 and 4 of Table 18.8 runs. -/
  grace : Bool
  /-- TRIGGER of the shutdown's Gauge run: 1 the pin, 2 the command. -/
  trig : Nat
  /-- The Gauge record with RESULT 1 that makes the device degraded; none is the empty list (R461). -/
  failed : List Byte
deriving DecidableEq, Repr

/-- A key slot of 0x1002 (R404). -/
structure KeySlot where
  role : Nat
  key : List Byte
deriving DecidableEq, Repr

/-- The module flash: it survives reset and loss of power (R444). -/
structure FlashSt where
  banks : Sparse (List Byte)
  /-- Bank marked pending; active bank. -/
  pending : Option Nat
  active : Nat
  keys : Sparse KeySlot
  /-- 0 BLANK, 1 PROVISIONED, 2 FIELD, 3 SERVICE, 4 RETIRED. -/
  lc : Nat
  ivEpoch : Nat
  forceFull : Bool
  thermTrips : Nat
  runs : Nat
  /-- The two newest Gauge records, newest first, each with its stored digest (R455). -/
  records : List (List Byte × List Byte)
  dramSlice : Nat
  /-- FLOOR_SECVER of the fuse bank (R449). -/
  floorSecver : Nat
  /-- The age counter in seconds and its LOST mark (R444). -/
  age : Nat
  ageLost : Bool
  /-- Generation of the wrapping key pair, none when destroyed or never made (R416, R450). -/
  wrapGen : Option Nat
  /-- The identity private key has been destroyed (R452). -/
  identityGone : Bool
deriving DecidableEq, Repr

/-- SERVICE in force (R451): the key that has class SVC and the timebase second at which it ends. -/
structure ServiceSt where
  key : List Byte
  until_ : Nat
deriving DecidableEq, Repr

/-! ## Events (17) -/

/-- Occurrences of one source pending at a CP, or one held at its source: their count and the oldest detail word. -/
structure Pend where
  src : Nat
  count : Nat
  detail : BitVec 64
deriving DecidableEq, Repr

/-- One control processor's side of the event controller (R425 to R429, Table 17.2). -/
structure CpSt where
  floor : Nat
  online : Bool
  mask : Bool
  sleeping : Bool
  lastSrc : Nat
  evdet : BitVec 64
  /-- EVACK as it was last read (R426). -/
  ackRead : BitVec 64
  pend : List Pend
  /-- Active sources with the priority each was delivered with (R426). -/
  active : List (Nat × Nat)
  raised : Nat
  delivered : Nat
  completions : Nat
  spurious : Nat
  /-- Position in the order of givings, none before the first (R425). -/
  given : Option Nat
deriving DecidableEq, Repr

/-- The event controller (R423 to R432). -/
structure EvSt where
  prio : Sparse Nat
  targets : Sparse Nat
  occ : Sparse Nat
  /-- Occurrences held at their sources, one entry each, oldest first (R425). -/
  held : List Pend
  /-- The four control processors as the controller sees them (R425 to R429). -/
  cps : Sparse CpSt
  /-- Counts the givings, for "has gone longest" (R425). -/
  order : Nat
deriving DecidableEq, Repr

/-! ## DAP (15) -/

/-- A DAP response as it is stored and sent (R392 to R394). -/
structure Resp where
  seq : Nat
  status : Nat
  detail : Nat
  index : Nat
  sub : Nat
  ty : Nat
  value : List Byte
deriving DecidableEq, Repr

/-- A block write in progress (R400): object, TOTAL, segments oldest first. -/
structure BlkWrite where
  key : Nat
  total : Nat
  segs : List (Nat × List Byte)
deriving DecidableEq, Repr

/-- An unacknowledged report (R402). -/
structure Report where
  seq : Nat
  source : Nat
  lost : Nat
  time : Nat
  detail : BitVec 64
deriving DecidableEq, Repr

/-- A DAP session slot (R389 to R403). -/
structure Session where
  live : Bool
  /-- Class code of Table 15.9. -/
  cls : Nat
  handshake : Nat
  /-- The station's public key and its ID. -/
  pub : List Byte
  keyId : List Byte
  key : List Byte
  /-- Digest H of the agreement (R390). -/
  agreeH : List Byte
  peer : BitVec 128
  peerPort : Nat
  port : Nat
  /-- Lowest SEQ not yet executed (R392). -/
  next : Nat
  /-- Requests held until their turn (R392). -/
  held : List (Nat × DapBody)
  /-- Stored responses of the last 64 executed requests, newest first (R392). -/
  stored : List Resp
  staging : Sparse (List Byte)
  wopen : Option BlkWrite
  ropen : Option (List Byte)
  mask : List Nat
  reports : List Report
  reportSeq : Nat
  reportLost : Nat
  requests : Nat
  last : Nat
  idle : Nat
deriving DecidableEq, Repr

/-- An unanswered CHALLENGE (R391): handshake number, HELLO payload, CHALLENGE payload, the device's ephemeral X448 secret,
and the station: Ethernet port, address, UDP port. -/
structure Challenge where
  number : Nat
  hello : List Byte
  chal : List Byte
  secret : List Byte
  port : Nat
  peer : BitVec 128
  peerPort : Nat
deriving DecidableEq, Repr

/-- The DAP endpoint. -/
structure DapSt where
  sessions : Sparse Session
  /-- Oldest first, at most 16. -/
  challenges : List Challenge
  /-- CHALLENGEs sent since reset, modulo 2^29 (Table 15.4). -/
  handshakes : Nat
  /-- A debug drain that waits for its tile's settle token (R114): core, tile, first element, count. -/
  drain : Option (Nat × Nat × Nat × Nat)
deriving DecidableEq, Repr

/-! ## Cores (04 to 07) -/

/-- What a context waits at. -/
inductive Wait where
  | none
  /-- Arrived at a BAR: number, scope, phase, lend point (R169). -/
  | bar (id scope phase : Nat) (lend : Bool)
  /-- At STEP (R172). -/
  | step
deriving DecidableEq, Repr

/-- Registers of a context that STEP, ABORT and LOAD name together (R150, R186). -/
structure Regs where
  x1 : BitVec 16
  x2 : BitVec 16
  x3 : BitVec 16
  fmode : BitVec 32
  fstat : BitVec 32
  srstate : BitVec 64
  rctl : BitVec 32
  rstat : BitVec 64
deriving DecidableEq, Repr

/-- An entry of the loop stack (R166): first word, last instruction's word, iterations left, register, step. -/
structure Loop where
  first : Nat
  last : Nat
  left : Nat
  xsel : Nat
  xstep : BitVec 16
deriving DecidableEq, Repr

/-- A context of a core (R150). -/
structure Ctx where
  /-- A program of the image stands in this context. -/
  present : Bool
  pc : Nat
  entry : Nat
  regs : Regs
  /-- Registers at the last STEP, or as LOAD set them (R186). -/
  atStep : Regs
  /-- Registers as LOAD set them (R180). -/
  atLoad : Regs
  loops : List Loop
  /-- Tags with an outstanding transfer; tags with an outstanding collective (R164, R171, R176). -/
  xferTags : List Nat
  collTags : List Nat
  wait : Wait
  /-- The join of the present BAR is complete, so the core may pass (R169). -/
  released : Bool
  /-- Stopped by a STRICT trap or a poisoned instruction word (R144, R145, R200). -/
  stopped : Bool
  /-- Stopped at an armed breakpoint (R162). -/
  broken : Bool
  /-- The Filler has ended (R173). -/
  ended : Bool
  /-- It has reached its PHASE 3 BAR or its STEP in this step (R262). -/
  reached : Bool
  /-- STEP has passed in the step whose verdict carries the stop mark (R187). -/
  atStop : Bool
  /-- Number of the attempt whose step it is in, from 1 (R172). -/
  attempt : Nat
  /-- Tension phase in force, 0 to 6 (R169, R434). -/
  phase : Nat
  pocketBase : Nat
  pocketUnits : Nat
  descBase : Nat
  descUnits : Nat
deriving DecidableEq, Repr

/-- What stands in a tile's adder tree, oldest first (R98, R102). -/
inductive TreeItem where
  /-- A group sum for an element: the sum, the term index of its first poisoned product, and the counts of invalid
  products and of products with a NaV operand. -/
  | sum (elem : Nat) (v : Int) (firstK : Option Nat) (ivp nvp : Nat)
  /-- A multiple of 2^23 terms: the segment closes before the sums behind this mark. -/
  | mark
deriving DecidableEq, Repr

/-- A tile of a context (R92, R107). -/
structure Tile where
  base : Nat
  m : Nat
  n : Nat
  /-- Pocket unit of the segment area; 0xFFFF for none. -/
  seg : Nat
  passes : Nat
  live : Bool
  e : Int
  segn : Nat
  /-- W1C flags of TSTAT, bits 7:0. -/
  flags : Nat
  txr0 : BitVec 64
  /-- Terms since initialisation; TCOUNT shows them saturated (R95). -/
  terms : Nat
  pcount : Nat
  pinned : List Nat
  poisoned : List Nat
  tree : List TreeItem
deriving DecidableEq, Repr

/-- A core. -/
structure CoreSt where
  job : Ctx
  filler : Ctx
  /-- The context that issues instructions (Table 7.14). -/
  running : CtxId
  /-- Tiles T0 to T15 of the job context at 0 to 15, of the Filler at 16 to 31. -/
  tiles : Sparse Tile
  /-- Accumulator elements as integers (R96). -/
  acc : Sparse Int
  /-- Mark register: IMM and timebase (R162). -/
  mark : Option (Nat × Nat)
  /-- Armed breakpoints (R162). -/
  bps : List Nat
  /-- The bed is lent to the Blocking Unit (R116). -/
  lent : Bool
  /-- Error counters CORE_INVALID, CORE_PERMX, CORE_RES_CORR, CORE_RES_UNCORR (R433). -/
  invalid : Nat
  permx : Nat
  resCorr : Nat
  resUncorr : Nat
  /-- Time charged per phase code 0 to 8 in the present step interval, ns (R434, R435). -/
  charge : Sparse Nat
deriving DecidableEq, Repr

/-! ## Memory (08) -/

/-- Every memory that is reached by address, and the core's own memories under class 0x1F (R190, R201). -/
structure MemSt where
  /-- Bytes by address bits 51:0: class in bits 51:47, offset in bits 46:0 (Table 8.2). -/
  bytes : Sparse Byte
  /-- 0 after start-up, when every codeword has been written with zero; the number of Gauge runs that left every
  byte open since then (R443, R457). -/
  gen : Nat
  /-- The same for the Block Ledger, whose records are zero after reset and after UNLOAD too (R270). -/
  ledGen : Nat
  /-- First addresses of codewords that hold the poison marker, rising (R197). -/
  poison : List Nat
  /-- Symbols in error, by first address of the codeword (R195). -/
  symErr : Sparse (List Nat)
  /-- MEM_LOG, newest first, at most 16 records (R201). -/
  log : List (List Byte)
  /-- MEM_CORR and MEM_UNCORR by group 0 to 7 (Table 17.7). -/
  corr : Sparse Nat
  uncorr : Sparse Nat
  /-- LAST_REFUSAL (Table 8.11). -/
  lastRefusal : List Byte
deriving DecidableEq, Repr

/-- A request the device has in flight for a DMA transfer (R204). -/
structure DmaReq where
  id : Nat
  /-- Byte of the transfer at which the request begins, and its length. -/
  at_ : Nat
  len : Nat
  done : Bool
deriving DecidableEq, Repr

/-- A transfer that holds a swatch descriptor (R203 to R205); a cord path's work holds one too (R121). -/
structure Xfer where
  swatch : Nat
  core : Nat
  ctx : CtxId
  slot : Nat
  tag : Nat
  /-- MV CORD rather than MV DMA. -/
  cord : Bool
  prefetch : Bool
  write : Bool
  gaddr : Nat
  rowLen : Nat
  rows : Nat
  gstride : Nat
  pbase : Nat
  pstride : Nat
  /-- The engine has begun its first request (R205). -/
  active : Bool
  /-- Bytes issued as requests so far. -/
  issued : Nat
  reqs : List DmaReq
  /-- First fault in issue order: byte of the transfer, STATUS, REASON, address. -/
  fault : Option (Nat × Nat × Nat × Nat)
  /-- First poisoned byte: byte of the transfer, address. -/
  poisonAt : Option (Nat × Nat)
  /-- Descriptor words 0 to 3, for the cord path. -/
  words : List Nat
  /-- FMODE in force where the MV stands in program order, for the cord path (R88). -/
  fmode : Nat
  /-- SRSTATE before the draws of the MV's outputs, for the cord path (R81). -/
  srstate : Nat
deriving DecidableEq, Repr

/-- A memory request the device has sent, waiting for its reply (R230). -/
structure Flight where
  id : Nat
  /-- Number of the transfer in `xfers` it belongs to. -/
  xfer : Nat
  sent : Nat
deriving DecidableEq, Repr

/-- The swatch DMA engines and cord paths (R203 to R210). -/
structure DmaSt where
  xfers : Sparse Xfer
  nextXfer : Nat
  nextReq : Nat
  flights : List Flight
deriving DecidableEq, Repr

/-! ## Torus and slice (09) -/

/-- A flit that waits to be sent, or is kept for a resend: virtual channel, dateline class, FIRST, LAST, payload, and
the poison marks of its 32-byte units 0 to 7 (R257). -/
structure Flit where
  vc : Nat
  cls : Nat
  first : Bool
  last : Bool
  payload : List Byte
  marks : List Nat
deriving DecidableEq, Repr

/-- A torus port (R215 to R222). Maps by channel are keyed 2 * VC + dateline class. -/
structure PortSt where
  /-- PORT_STATE: 0 disabled, 1 training, 2 up, 3 miscabled, 4 down, 5 retraining. -/
  st : Nat
  /-- PORT_PEER. -/
  peer : Nat
  /-- A training attempt has begun; it is a retry from state 4; signal is there; the identity check passed. -/
  trying : Bool
  retry : Bool
  signal : Bool
  ident : Bool
  /-- PORT_COUNTS: flits sent, received, CRC failures, resends, retrains, downs. -/
  sent : Nat
  rcvd : Nat
  crcFails : Nat
  resends : Nat
  retrains : Nat
  downs : Nat
  /-- Next sequence number to send; flits kept from the oldest unacknowledged one; the next of them to send again. -/
  txSeq : Nat
  replay : List Flit
  resend : Option Nat
  /-- Next sequence number expected; NAK is to be set; times of the NAKs sent in the last 10 µs. -/
  rxSeq : Nat
  nak : Bool
  naks : List Nat
  /-- Sender credits; inbound flits held; inbound buffers freed and not yet returned; totals sent and taken (R221). -/
  credits : Sparse Nat
  held : Sparse Nat
  freed : Sparse Nat
  totalTx : Sparse Nat
  totalRx : Sparse Nat
  /-- Channel whose total the next trailer carries; channel that sent last among VC 0 to 2 (R217, R222). -/
  rot : Nat
  turn : Nat
  /-- Flits waiting to be sent. -/
  outq : List Flit
  /-- Flits of packets not wholly received, by channel; packets wholly received, oldest first. -/
  part : Sparse (List Flit)
  inbox : List (List Flit)
deriving DecidableEq, Repr

/-- A management message in the receive queue (R236): source chip, TYPE. -/
structure MgmtIn where
  src : Nat
  ty : Nat
  /-- Port and channel whose buffers it holds while it waits, and how many. -/
  port : Nat
  chan : Nat
  flits : Nat
deriving DecidableEq, Repr

/-- The torus side of the collar (09). -/
structure TorusSt where
  ports : Sparse PortSt
  /-- The route table, entries as 64-bit words (R228, R245). -/
  routes : Sparse Nat
  /-- Management messages that wait for room; the receive queue (R236). -/
  mgmtWait : List MgmtIn
  mgmtQ : List MgmtIn
  /-- CP_MAIL delivered, newest first, at most 64: source chip, bytes. -/
  mail : List (Nat × List Byte)
  /-- Coordinator: proposals held (chip, definition); an OPEN_CHECK is out; members ready (R232, R233). -/
  proposals : List (Nat × SliceDef)
  opening : Bool
  ready : List Nat
  /-- This member has answered the present OPEN_CHECK. -/
  answered : Bool
deriving DecidableEq, Repr

/-! ## Image in force (07, 10, 11, 12) -/

/-- A collective plan entry (Table 10.3). -/
structure PlanEntry where
  entry : Nat
  kind : Nat
  flags : Nat
  stream : Nat
  sfmt : Nat
  pfmt : Nat
  ofmt : Nat
  root : Nat
  issuer : Nat
  chunkKib : Nat
  icount : Nat
  elems : Nat
  src : Nat
  dst : Nat
  maskFirst : Nat
  maskCount : Nat
deriving DecidableEq, Repr

/-- A mask record (Table 10.4). -/
structure MaskRec where
  device : Nat
  first : Nat
  chunks : Nat
  src : Nat
deriving DecidableEq, Repr

/-- A layer descriptor (Table 11.6). -/
structure Layer where
  layer : Nat
  rule : Nat
  hpSet : Nat
  wfmt : Nat
  gfmt : Nat
  rows : Nat
  cols : Nat
  first : Nat
  blocks : Nat
  gradEntry : Nat
  gradIssues : Nat
  mclass : Nat
  gradAddr : Nat
  wcAddr : Nat
  stateAddr : Nat
  stateBytes : Nat
deriving DecidableEq, Repr

/-- A pin-plan record (Table 11.7). -/
structure PinPlan where
  gather : Nat
  kind : Nat
  release : Nat
  first : Nat
  count : Nat
deriving DecidableEq, Repr

/-- A loan region (Table 12.6). -/
structure Loan where
  host : Nat
  borrower : Nat
  cls : Nat
  channel : Nat
  base : Nat
  length : Nat
deriving DecidableEq, Repr

/-- A feed stream record (Table 12.2). -/
structure FeedStream where
  stream : Nat
  firstSource : Nat
  sourceCount : Nat
  slots : Nat
  seed : Nat
  sampleMax : Nat
  addr : Nat
deriving DecidableEq, Repr

/-- A feed source record (Table 12.3). -/
structure FeedSource where
  id : Nat
  kind : Nat
  endpoint : Nat
  first : Nat
  samples : Nat
  addr : Nat
deriving DecidableEq, Repr

/-- A channel record (Table 12.4). -/
structure ChanRec where
  channel : Nat
  stream : Nat
  axis : Nat
  ring : Nat
  cap : Nat
  maxSegs : Nat
  readyBar : Nat
  releaseBar : Nat
  origin : Nat
  addr : Nat
deriving DecidableEq, Repr

/-- What an image gives the device besides its cores' programs (R178 to R182). -/
structure Image where
  ownerKey : List Byte
  /-- STEPS. -/
  steps : Nat
  /-- DRAM claimed in panels 0 to 3. -/
  dram : List Nat
  loans : List Loan
  plan : List PlanEntry
  masks : List MaskRec
  layers : List Layer
  pinPlans : List PinPlan
  workOff : List Nat
  /-- Workspace bytes of panels 0 to 3; Ledger records claimed; every job core of the panel has a lend point of phase 3 or 4 in
  its step (R277). -/
  workBytes : List Nat
  ledger : Nat
  lends : List Bool
  passes : Nat
  streams : List FeedStream
  sources : List FeedSource
  channels : List ChanRec
deriving DecidableEq, Repr

/-- The job (R185 to R188). -/
structure JobSt where
  image : Option Image
  /-- JOB_STATE before START (R186). -/
  prior : Nat
  /-- START_DIGEST messages held: chip, digest, COMMITTED, time of arrival (R186). -/
  starts : List (Nat × List Byte × Nat × Nat)
  /-- Norm-anchor device: the next verdict carries the STOP mark (R187). -/
  stopMark : Bool
  /-- Number of the attempt at whose STEP the cores stop (R187). -/
  stopAt : Option Nat
  /-- An ABORT, CLOSE or SLICE_FAULT that waits for a commit or a re-shard to end (R294, R323, R353): ABORT; chip of a
  fault, 0x1000 for a CLOSE. -/
  abortWaits : Bool
  closeWaits : Option Nat
deriving DecidableEq, Repr

/-! ## Collectives (10) -/

/-- A chunk's value at a node: format code, elements, poisoned elements, POISON, POISON_CHIP, AFLAGS (R250, R257). -/
structure ChunkVal where
  form : Nat
  els : List Nat
  bad : List Nat
  poison : Bool
  chip : Nat
  afl : Nat
deriving DecidableEq, Repr

/-- A chunk of an issue at this device. Hop states: 0 none, 1 CREQ sent, 2 chunk sent, 3 acknowledged (R251). -/
structure ChunkSt where
  /-- Child operands received and not yet added, by port code (R243). -/
  ops : Sparse (Option ChunkVal)
  /-- Left fold so far; operands folded in. -/
  acc : Option ChunkVal
  used : Nat
  /-- The result, or the copy received. -/
  val : Option ChunkVal
  up : Nat
  down : Sparse Nat
  /-- Written and verified at this device (R261). -/
  done : Bool
  /-- Failed receptions, by port code (R260). -/
  fails : Sparse Nat
  /-- First result kept while the chunk is reduced again; the chunk is sent with REREDUCE (R263). -/
  kept : Option ChunkVal
  redo : Bool
deriving DecidableEq, Repr

/-- An issue of a plan entry (R248). -/
structure Issue where
  entry : Nat
  num : Nat
  epoch : Nat
  /-- Cores that have executed their CL, with their XS offset in bytes. -/
  xs : List (Nat × Int)
  /-- Completion tags: core, tag. -/
  tags : List (Nat × Nat)
  chunks : Sparse ChunkSt
  /-- Every role is done and the tags are complete. -/
  done : Bool
deriving DecidableEq, Repr

/-- Owner record of a skein slot (Table 10.10). -/
structure SlotRec where
  entry : Nat
  stream : Nat
  role : Nat
  issue : Nat
  chunk : Nat
  epoch : Nat
  port : Nat
deriving DecidableEq, Repr

/-- A CREQ that waits for a slot (R252, R253). -/
structure Creq where
  port : Nat
  entry : Nat
  stream : Nat
  epoch : Nat
  issue : Nat
  chunk : Nat
deriving DecidableEq, Repr

/-- Collectives and the skein pool. -/
structure CollSt where
  /-- Issues at this device in issue order. -/
  issues : List Issue
  /-- Next issue number by entry (R248). -/
  next : Sparse Nat
  /-- Owner records by slot (R252). -/
  slots : Sparse SlotRec
  /-- Waiting CREQs in order of arrival. -/
  waiting : List Creq
  /-- Epoch advance asked for (R265). -/
  advance : Option Nat
  /-- Issues completed, by stream; issues completed as root, by entry. -/
  streamDone : Sparse Nat
  rootDone : Sparse Nat
  /-- Contents of the system entries: norm contribution, reduced norm, verdict (R279). -/
  norm : List Nat
  normPoison : Bool
  normSum : Option ChunkVal
  verdict : List Byte
  verdictIn : Option ChunkVal
  /-- Norm-anchor device: open RETRACTs: chip, entry, issue, chunk; a verdict is being withheld (R263). -/
  retracts : List (Nat × Nat × Nat × Nat)
  withheld : Bool
deriving DecidableEq, Repr

/-! ## Update (11) -/

/-- The update of a step (R279 to R298). -/
structure UpdSt where
  /-- Hyperparameter sets, values of .11 to .20 in order (R299). -/
  hp : Sparse (List Nat)
  /-- Sets as in force for the step whose update work has begun (R300). -/
  hpStep : Option (Sparse (List Nat))
  /-- Sets accepted by APPLY that have not taken effect yet, oldest first. -/
  hpFresh : List Nat
  /-- Running products P1, P2 by set (R285). -/
  prods : Sparse (Nat × Nat)
  /-- Layers with complete shadows: layer, scale they were formed with (R284, R292). -/
  shadows : List (Nat × Nat)
  /-- Layers whose shadows were formed again with the verdict's SCALE (R292). -/
  rerun : List Nat
  /-- The norm leaf of the present attempt has been issued. -/
  leaf : Bool
  /-- Attempts committed or skipped (R172). -/
  settled : Nat
  /-- The newest verdict acted on: VERDICT, SCALE (R283). -/
  verdict : Option (Nat × Nat)
  /-- Layers committed under the verdict in force; records whose flip waits (R292). -/
  committed : List Nat
  stalled : List Nat
  /-- A verdict was lost (R283). -/
  lost : Bool
  /-- Pin journal: plan index, issue, record, VERSION (R297). -/
  journal : List (Nat × Nat × Nat × Nat)
  /-- Version skews found in the present step (R298). -/
  skews : Nat
deriving DecidableEq, Repr

/-! ## Feed (12) -/

/-- A shuffle slot: sample number; its length once known; ranges of tokens that stand in it: first, count. -/
structure FeedSlot where
  sample : Nat
  length : Option Nat
  segs : List (Nat × Nat)
deriving DecidableEq, Repr

/-- A held sample: number, length, tokens kept by first token (R316). -/
structure FeedHeld where
  sample : Nat
  length : Nat
  segs : List (Nat × List Nat)
deriving DecidableEq, Repr

/-- A feed request that is outstanding (R317, R364): XFER, endpoint, SRC_MEMBER sent, stream, sample, first token, count
(0 asks the length alone), timeouts so far. -/
structure FeedReq where
  num : Nat
  ep : Nat
  member : Nat
  stream : Nat
  sample : Nat
  first : Nat
  count : Nat
  tries : Nat
deriving DecidableEq, Repr

/-- A stream's run (R315, R316). -/
structure FeedRun where
  gen : BitVec 64
  next : Nat
  slots : Sparse FeedSlot
  emitted : Nat
  held : Option FeedHeld
deriving DecidableEq, Repr

/-- A channel (R308, Table 12.10): STATE, pass of the row published or packed, tokens packed, segments, passes filled and
passes released in the present step. -/
structure ChanRun where
  st : Nat
  pass : Nat
  packed : Nat
  segs : Nat
  filled : Nat
  released : Nat
deriving DecidableEq, Repr

/-- The input feed. -/
structure FeedSt where
  runs : Sparse FeedRun
  chans : Sparse ChanRun
  reqs : List FeedReq
  /-- The step's rows are published again (R318). -/
  replay : Bool
  /-- Samples taken in the present step. -/
  taken : Nat
deriving DecidableEq, Repr

/-! ## Re-sharding (12) -/

/-- A re-shard (R321 to R323). -/
structure ReshSt where
  /-- Step of Table 12.8 reached: 0 not begun, 1 digest sent, 3 epoch advance asked for, 5 moves issued, 6 records installed. -/
  phase : Nat
  /-- Norm-anchor device: digests received, by chip. -/
  digests : List (Nat × List Byte)
  /-- Record fields received: BLOCK_ID, VERSION, SEL, RSEL, LAST_SENT, LAST_ACK. -/
  fields : List (Nat × Nat × Nat × Nat × Nat × Nat)
  /-- New owners that have reported done. -/
  done : List Nat
  /-- Records installed here. -/
  installed : List Nat
deriving DecidableEq, Repr

/-! ## The Fleler Exchange Protocol (13) -/

/-- A station that FXP datagrams go to: member and chip (0xFF and 0xFFFF for an endpoint), address, UDP port, and the
Ethernet port that an endpoint record names (R327, R336). -/
structure Peer where
  member : Nat
  chip : Nat
  addr : BitVec 128
  port : Nat
  eth : Option Nat
deriving DecidableEq, Repr

/-- A transfer being sent (R331 to R335). -/
structure TxXfer where
  peer : Peer
  ty : Nat
  flags : Nat
  round : Nat
  num : Nat
  fedId : Nat
  incarn : Nat
  /-- Payloads of the data fragments as sent, in order; TOTAL of R332; parity follows each group. -/
  frags : List (List Byte)
  total : Nat
  par : Bool
  /-- Units sent so far, in the order data and parity leave. -/
  next : Nat
  /-- Units unacknowledged: 2 * fragment, or 2 * group + 1 for a parity. -/
  out : List Nat
  /-- Fragments that a SACK has shown received; resends by fragment. -/
  acked : List Nat
  resends : Sparse Nat
deriving DecidableEq, Repr

/-- A transfer being received (R331 to R333). -/
structure RxXfer where
  /-- The station it comes from. -/
  peer : Peer
  member : Nat
  chip : Nat
  num : Nat
  ty : Nat
  round : Nat
  flags : Nat
  frags : Nat
  /-- Payloads as received, by fragment, and in the clear; parities by group. -/
  data : Sparse (List Byte)
  clear : Sparse (List Byte)
  parity : Sparse (List Byte)
  /-- A fragment has arrived that no SACK has covered. -/
  fresh : Bool
  done : Bool
deriving DecidableEq, Repr

/-- A round-trip estimator (R379): member and chip of the peer, SRTT, RTTVAR, RESTARTS, held outliers, oldest first. -/
structure Rtt where
  member : Nat
  chip : Nat
  srtt : Int
  rttvar : Int
  restarts : Nat
  held : List Int
deriving DecidableEq, Repr

/-- The transport. Receivers are numbered member * 2^16 + chip, endpoints 2^24 + 256 * kind + index. -/
structure FxpSt where
  tx : List TxXfer
  rx : List RxXfer
  /-- Last transfer number by receiver (R328). -/
  nextX : Sparse Nat
  /-- Incarnations that members last announced, plus one (R329). -/
  incarns : Sparse Nat
  /-- This member's own incarnation (Table 13.1). -/
  incarn : Nat
  /-- Round-trip estimators by peer, none before the first sample (R379). -/
  rtt : Sparse (Option Rtt)
deriving DecidableEq, Repr

/-- An owner map record (Table 13.2): first block, count, chip, UDP port, address. -/
structure MapRec where
  first : Nat
  count : Nat
  chip : Nat
  port : Nat
  addr : BitVec 128
deriving DecidableEq, Repr

/-- Another member as this device knows it (R326, R327, R356). -/
structure Member where
  /-- Its speaker. -/
  peer : Peer
  map : List MapRec
  /-- What its newest HEARTBEAT shows: head round, digest, floor round, FED_STATE; none before the first. -/
  head : Option (Nat × List Byte × Nat × Nat)
  /-- Newest origin of a CONTRIB_DONE from it. -/
  contrib : Option Nat
  /-- BASE_WEIGHT of its JOIN. -/
  weight : Nat
deriving DecidableEq, Repr

/-- A manifest of the chain or of the queue: round, TYPE (0x21 or 0x23), payload, digest. -/
structure Manifest where
  round : Nat
  ty : Nat
  payload : List Byte
  digest : List Byte
deriving DecidableEq, Repr

/-- A record received into the pool (R365): member, origin, Ledger record, panel, slot of the pool, bytes. -/
structure PoolRec where
  member : Nat
  origin : Nat
  idx : Nat
  panel : Nat
  slot : Nat
  len : Nat
deriving DecidableEq, Repr

/-- A contribution kept (R365): origin, Ledger record, keep slot, bytes. -/
structure KeepRec where
  origin : Nat
  idx : Nat
  slot : Nat
  len : Nat
deriving DecidableEq, Repr

/-- State of a block that has arrived from a partner (R339): Ledger record, round, floor round. -/
structure FetchRec where
  idx : Nat
  round : Nat
  floor : Nat
deriving DecidableEq, Repr

/-- The federation (R326 to R362). -/
structure FedSt where
  /-- Other members, by ID. -/
  members : Sparse Member
  /-- Manifests kept, newest first; manifests that wait to be merged, oldest first. -/
  chain : List Manifest
  queue : List Manifest
  /-- Origin of the member's unresolved contribution. -/
  own : Option Nat
  /-- The member is between round step 1 and its resumption. -/
  inRound : Bool
  /-- COMMITTED at the last resumption, or at START. -/
  mark : Nat
  /-- Timebase at the last resumption, and at round step 1 (R438). -/
  resumed : Nat
  stepped : Nat
  /-- The first CONTRIB_DONE of the round to close has arrived. -/
  closing : Bool
  /-- Members whose JOIN the next manifest admits; members that have sent LEAVE. -/
  joins : List Nat
  leaves : List Nat
  /-- Contributions named since a member joined, plus one (R340); absent for a member that never joined. -/
  ramps : Sparse Nat
  /-- Reports of this member's devices: chip, KIND (0 contribution complete, 1 merged), round. -/
  reports : List (Nat × Nat × Nat)
  keeps : List KeepRec
  pool : List PoolRec
  /-- State received in FED_STATE 2, 4 or 5. -/
  fetched : List FetchRec
  /-- Fork: manifests of other members' chains: member, manifest; the fork close to apply. -/
  others : List (Nat × Manifest)
  fork : Option Manifest
  /-- Side anchors fetched for a fork: side, Ledger record, elements. -/
  sides : List (Nat × Nat × List Nat)
  /-- Sides of the fork as the speaker has sent them, 32 bytes each (Table 13.10); squared norms that devices have reported:
  chip, side, of the difference, of the floor (R358). -/
  sideRecs : List (List Byte)
  norms : List (Nat × Nat × Nat × Nat)
  /-- Records of a fork close whose floor F has been fetched (R359). -/
  floors : List Nat
  /-- Accepted values of 0x4000.0B to .16 that take effect at the next round step 1 (R367). -/
  accepted : Sparse Nat
  /-- Own part of the owner map as it was last announced (R327). -/
  announced : List MapRec
  /-- Donor that STATE_REQs have gone to (R339). -/
  donor : Option Nat
deriving DecidableEq, Repr

/-! ## The cipher engine (16) -/

/-- A key slot (R416): empty key for an empty slot. -/
structure CipherSlot where
  key : List Byte
  uses : Nat
  owner : List Byte
  counter : Nat
deriving DecidableEq, Repr

/-- The context of a message between parts, or while it is suspended (R419): chain, slot, use, decrypting or not, IV,
authenticated bytes, text so far (plaintext, or ciphertext when decrypting), where a decryption's output is to go (address,
bytes), whether poisoned input was met. -/
structure CipherCtx where
  chain : Nat
  slot : Nat
  use : Nat
  decrypt : Bool
  iv : List Byte
  aad : List Byte
  text : List Byte
  outs : List (Nat × Nat)
  poisoned : Bool
deriving DecidableEq, Repr

/-- A message that an urgent request has suspended: where its part goes on, the bytes left of the part, LAST, the address
of the tag, and the context. -/
structure CipherSusp where
  src : Nat
  dst : Nat
  left : Nat
  last : Bool
  tagAddr : Nat
  ctx : CipherCtx
deriving DecidableEq, Repr

/-- The cipher engine. -/
structure CipherSt where
  slots : Sparse CipherSlot
  parked : List CipherCtx
  suspended : List CipherSusp
  /-- Completions returned to requesters: STATUS and IV, newest first, at most 256. -/
  answers : List (Nat × List Byte)
deriving DecidableEq, Repr

/-! ## Tension (17) -/

/-- Tension (R434 to R437): figures LAST, TOTAL, MIN, MAX keyed 4 * phase + field; histogram bins keyed 32 * phase + bin;
records of the batch, oldest first. -/
structure TenSt where
  figs : Sparse Nat
  bins : Sparse Nat
  batch : List (List Byte)
  /-- Time of the step in progress, ns, summed over the job cores that have completed its STEP, by phase; how many have. -/
  sums : Sparse Nat
  closed : Nat
  /-- XCH_TARGET, TENSION_EXPORT, TENSION_BATCH accepted for the next step (R439). -/
  next : Option (Nat × Nat × Nat)
deriving DecidableEq, Repr



/-! ## Export (16) -/

/-- The state delta stream (R406 to R411). Its bytes lie in the ring in DRAM. -/
structure StreamSt where
  /-- Next offset to send. -/
  sent : Nat
  /-- Bytes below this have been sent. -/
  reach : Nat
  /-- Records that wait for ring space, oldest first. -/
  backlog : List (List Byte)
  /-- Ring bytes reserved for the commit in progress (R410). -/
  reserved : Nat
  /-- Block records omitted from the present commit in lossy mode (R410). -/
  gap : Option Nat
  /-- A FLIP waits for ring space (R410). -/
  waiting : Bool
deriving DecidableEq, Repr

/-- The snapshot in progress (R412 to R415). -/
structure SnapSt where
  /-- Owned records still held, ascending; records to read, in order. -/
  held : List Nat
  /-- Plaintext read so far and not yet cut into a segment. -/
  text : List Byte
  /-- Segments sent, segments in the whole, plaintext offset of the next one. -/
  seg : Nat
  segs : Nat
  offset : Nat
  /-- Records still to read. -/
  todo : List Nat
  /-- Content in force for it; identity (ROUND, COMMITTED). -/
  content : Option Nat
  ident : Option (Nat × Nat)
  /-- A boundary is agreed at SNAP_AT (R412). -/
  agreed : Bool
  /-- Head round whose scheduled boundary has been met (R412). -/
  round : Nat
deriving DecidableEq, Repr

/-! ## The state -/

/-- The whole device, with the queue of commands that wait, first in first out. -/
structure State where
  /-- Commands that wait, the next one first. -/
  pending : List Instr
  /-- THE MODEL'S OWN: index of the next free value (DESIGN CHOICE, log 4). -/
  freeCtr : Nat
  /-- THE MODEL'S OWN: messages sent, oldest first (DESIGN CHOICE, log 5). -/
  outbox : List Msg
  /-- Values of the numeric dictionary objects, by key (R383). -/
  objs : Sparse Nat
  /-- Values of the DOMAIN and STRING objects that are stored as bytes (R383, R384). -/
  doms : Sparse (List Byte)
  /-- The power loop. -/
  pwr : PwrSt
  /-- The timebase and site time. -/
  tb : TbSt
  /-- Frame counters of the Ethernet ports. -/
  eth : Sparse EthSt
  /-- Sensors and pins. -/
  board : BoardSt
  /-- Boot. -/
  boot : BootSt
  /-- Gauge and the shutdown. -/
  gauge : GaugeSt
  /-- The module flash, its fuses and stores. -/
  flash : FlashSt
  /-- SERVICE in force. -/
  service : Option ServiceSt
  /-- The event controller. -/
  ev : EvSt
  /-- DAP sessions. -/
  dap : DapSt
  /-- The cores, by device core number. -/
  cores : Sparse CoreSt
  /-- Memory. -/
  mem : MemSt
  /-- DMA engines. -/
  dma : DmaSt
  /-- This device's poison contribution for the current step (R200). -/
  poisonHere : Bool
  /-- Torus ports, route table, slice. -/
  torus : TorusSt
  /-- The image in force and the job's control. -/
  job : JobSt
  /-- Collectives and the skein pool. -/
  coll : CollSt
  /-- The update and the verdict. -/
  upd : UpdSt
  /-- The input feed. -/
  feed : FeedSt
  /-- The re-shard in progress. -/
  resh : ReshSt
  /-- The FXP transport. -/
  fxp : FxpSt
  /-- The federation. -/
  fed : FedSt
  /-- The cipher engine. -/
  cipher : CipherSt
  /-- Tension. -/
  ten : TenSt
  /-- The state delta stream. -/
  stream : StreamSt
  /-- The snapshot. -/
  snap : SnapSt
deriving DecidableEq, Repr

/-! ## Units at reset -/

def PwrSt.reset : PwrSt := ⟨[], 720, false, false, false, 0, false, false, false⟩

/-- Nominal INC (R58). -/
def incNominal : BitVec 40 := 0x0666666666

def TbSt.reset : TbSt where
  acc := 0
  inc := incNominal
  onOsc := false
  accepted := false
  predict := 0
  slew := 0
  slewBy := 0
  suspects := []
  clearRun := 0
  asymNew := false
  lastPps := 0
  ppsLive := false
  ppsLost := false
  tod := none
  gm := none
  silent := 0
  heard := false
  label := none
  mode := 0
  probes := []
  probeSeq := []
  burst := []
  log := []

def EthSt.reset : EthSt := ⟨0, 0, 0, 0⟩

/-- DESIGN CHOICE, log 3. -/
def BoardSt.reset : BoardSt where
  iin := 0
  shutdownReqN := true
  flProgN := true
  resetN := true
  regsOn := true
  regsOk := true
  overvolt := false
  inputOk := true
  tripped := false
  tripUnread := false
  thermAlert := false
  eventEn := true
  eventLevel := 24
  ppsOutEn := false
  ppsOut := false
  flashPins := false
  i2cPtr := 0

/-- Straps, firmware and flash at reset: LC_SERVICE_N high, flash boot, position (0, 0, 0) (DESIGN CHOICE, log 3 and log 6). -/
def BootSt.reset : BootSt := ⟨.firmware, 0x4000, none, [], Config.fwDigest, false⟩

def GaugeSt.reset : GaugeSt := ⟨none, false, false, false, 1, []⟩


/-- DESIGN CHOICE, log 3. -/
def FlashSt.reset : FlashSt where
  banks := []
  pending := none
  active := 0
  keys := []
  lc := 0
  ivEpoch := 0
  forceFull := false
  thermTrips := 0
  runs := 0
  records := []
  dramSlice := 0
  floorSecver := 0
  age := 0
  ageLost := false
  wrapGen := none
  identityGone := false

/-- A control processor at reset (Table 17.2). -/
def CpSt.reset : CpSt := ⟨0, false, true, false, 0, 0, 0, [], [], 0, 0, 0, 0, none⟩

/-- A free session slot. -/
def Session.free : Session where
  live := false
  cls := 0
  handshake := 0
  pub := []
  keyId := []
  key := []
  agreeH := []
  peer := 0
  peerPort := 0
  port := 0
  next := 1
  held := []
  stored := []
  staging := []
  wopen := none
  ropen := none
  mask := []
  reports := []
  reportSeq := 0
  reportLost := 0
  requests := 0
  last := 0
  idle := 60

def EvSt.reset : EvSt := ⟨[], [], [], [], [], 0⟩

/-- Registers at reset. SRSTATE has no reset value and never holds zero (R80, R90; DESIGN CHOICE, log 2). -/
def Regs.reset : Regs := ⟨0, 0, 0, 0, 0, 1, 0, 0⟩

/-- A context at reset. -/
def Ctx.reset : Ctx where
  present := false
  pc := 0
  entry := 0
  regs := Regs.reset
  atStep := Regs.reset
  atLoad := Regs.reset
  loops := []
  xferTags := []
  collTags := []
  wait := .none
  released := false
  stopped := false
  broken := false
  ended := false
  reached := false
  atStop := false
  attempt := 1
  phase := 0
  pocketBase := 0
  pocketUnits := 0
  descBase := 0
  descUnits := 0

/-- A tile that no image names. -/
def Tile.reset : Tile where
  base := 0
  m := 0
  n := 0
  seg := 0xFFFF
  passes := 0
  live := false
  e := 0
  segn := 0
  flags := 0
  txr0 := 0
  terms := 0
  pcount := 0
  pinned := []
  poisoned := []
  tree := []

/-- A core at reset. -/
def CoreSt.reset : CoreSt where
  job := Ctx.reset
  filler := Ctx.reset
  running := .job
  tiles := []
  acc := []
  mark := none
  bps := []
  lent := false
  invalid := 0
  permx := 0
  resCorr := 0
  resUncorr := 0
  charge := []

/-- Receive buffers per virtual channel and dateline class (Table 9.4); key 2 * VC + class. -/
def creditsFull (k : Nat) : Nat := if k / 2 = 3 then 32 else 512

/-- A torus port at reset (DEDUCED, log 38). -/
def PortSt.reset : PortSt where
  st := 0
  peer := 0xFFFFFFFF
  trying := true
  retry := false
  signal := false
  ident := false
  sent := 0
  rcvd := 0
  crcFails := 0
  resends := 0
  retrains := 0
  downs := 0
  txSeq := 0
  replay := []
  resend := none
  rxSeq := 0
  nak := false
  naks := []
  credits := []
  held := []
  freed := []
  totalTx := []
  totalRx := []
  rot := 0
  turn := 0
  outq := []
  part := []
  inbox := []

def TorusSt.reset : TorusSt := ⟨[], [], [], [], [], [], false, [], false⟩

def JobSt.reset : JobSt := ⟨none, 0, [], false, none, false, none⟩

/-- A chunk nothing has happened to. -/
def ChunkSt.fresh : ChunkSt := ⟨[], none, 0, none, 0, [], false, [], none, false⟩

def CollSt.reset : CollSt := ⟨[], [], [], [], none, [], [], [], false, none, [], none, [], false⟩

def UpdSt.reset : UpdSt := ⟨[], none, [], [], [], [], false, 0, none, [], [], false, [], 0⟩

def FeedSlot.empty (sample : Nat) : FeedSlot := ⟨sample, none, []⟩
/-- A run before LOAD seeds it; a zero seed is stored as 1 (R315). -/
def FeedRun.fresh : FeedRun := ⟨1, 0, [], 0, none⟩
def ChanRun.fresh : ChanRun := ⟨0, 0, 0, 0, 0, 0⟩
def FeedSt.reset : FeedSt := ⟨[], [], [], false, 0⟩
def ReshSt.reset : ReshSt := ⟨0, [], [], [], []⟩
def FxpSt.reset : FxpSt := ⟨[], [], [], [], 0, []⟩
/-- DEDUCED, log 20. -/
def Peer.nobody : Peer := ⟨0xFF, 0xFFFF, 0, 0, none⟩
/-- A member that nothing is known of. -/
def Member.unknown : Member := ⟨Peer.nobody, [], none, none, 0⟩
def FedSt.reset : FedSt where
  members := []
  chain := []
  queue := []
  own := none
  inRound := false
  mark := 0
  resumed := 0
  stepped := 0
  closing := false
  joins := []
  leaves := []
  ramps := []
  reports := []
  keeps := []
  pool := []
  fetched := []
  others := []
  fork := none
  sides := []
  sideRecs := []
  norms := []
  floors := []
  accepted := []
  announced := []
  donor := none
/-- An empty key slot. -/
def CipherSlot.empty : CipherSlot := ⟨[], 0, [], 0⟩
def CipherSt.reset : CipherSt := ⟨[], [], [], []⟩
def TenSt.reset : TenSt := ⟨[], [], [], [], 0, none⟩

def StreamSt.reset : StreamSt := ⟨0, 0, [], 0, none, false⟩
def SnapSt.reset : SnapSt := ⟨[], [], 0, 0, 0, [], none, none, false, 0⟩

/-- The device at the end of the reset sequence, step 5 of Table 18.3 (R443; DESIGN CHOICE, log 6). The values that the manual does not
give are named in log 2 and log 3 (DESIGN CHOICE). -/
def State.reset : State where
  pending := []
  freeCtr := 0
  outbox := []
  objs := [(Obj.TB_STATE, 1), (Obj.VCORE_NOW, 720)]
  doms := []
  pwr := PwrSt.reset
  tb := TbSt.reset
  eth := []
  board := BoardSt.reset
  boot := BootSt.reset
  gauge := GaugeSt.reset
  flash := FlashSt.reset
  service := none
  ev := EvSt.reset
  dap := ⟨[], [], 0, none⟩
  cores := []
  mem := ⟨[], 0, 0, [], [], [], [], [], []⟩
  dma := ⟨[], 0, 0, []⟩
  poisonHere := false
  torus := TorusSt.reset
  job := JobSt.reset
  coll := CollSt.reset
  upd := UpdSt.reset
  feed := FeedSt.reset
  resh := ReshSt.reset
  fxp := FxpSt.reset
  fed := FedSt.reset
  cipher := CipherSt.reset
  ten := TenSt.reset
  stream := StreamSt.reset
  snap := SnapSt.reset

/-! ## Stops -/

/-- Why a step faults. -/
inductive Fault where
  /-- An operand of the command is not of the shape its row has (a payload of a length that no message of that kind has).
  Raised by the meanings that check their operands with `WellFormed`. Safe: the hardware has no such command. -/
  | illFormed
deriving DecidableEq, Repr

/-- Why a step is refused. -/
inductive Refusal where
  /-- The command has no meaning in this model yet; raised by `exec` only. Safe. -/
  | notModelled (mnemonic : String)
deriving DecidableEq, Repr

end Sys2Proof.Machine
end

