-- ==== Sys2Proof/Machine/Ops.lean ====
section
/-! DEFINITION. The named operations that every meaning is written with: objects, counters, free values, messages, the
timebase as it is read, event occurrences and their routing (R424, R425), cores and contexts, and memory with its symbol
code (R193 to R201). -/

namespace Sys2Proof.Machine

/-- What a step answers. -/
abbrev Out := Host.Outcome State Fault Refusal

/-! ### Objects and counters -/

/-- Value of a numeric object. -/
def State.obj (s : State) (k : Nat) : Nat := Sparse.get Obj.dflt s.objs k

/-- Give a numeric object a value. -/
def State.setObj (s : State) (k v : Nat) : State := { s with objs := Sparse.set Obj.dflt s.objs k v }

/-- A counter's next value: past its width the manual does not say what it shows (DESIGN CHOICE, log 8). -/
def counted (k w v : Nat) : Nat := if v < 2 ^ w then v else Config.counterPast k v % 2 ^ w

/-- Add `n` to counter `k` of `w` bits. -/
def State.bump (s : State) (k n w : Nat) : State := s.setObj k (counted k w (s.obj k + n))

/-- Add 1 to a U32 counter. -/
def State.inc32 (s : State) (k : Nat) : State := s.bump k 1 32

/-- Add 1 to a U64 counter. -/
def State.inc64 (s : State) (k : Nat) : State := s.bump k 1 64

/-- The bytes a DOMAIN object holds before anything is written: zeros of its length, or none (R383). -/
def domDflt (k : Nat) : List Byte :=
  match (Obj.find (k / 256) (k % 256)).map ObjDef.rng with
  | some (.len n) => zeros n
  | _ => []

/-- Bytes of a DOMAIN object. -/
def State.dom (s : State) (k : Nat) : List Byte := Sparse.get domDflt s.doms k

/-- Give a DOMAIN object its bytes. -/
def State.setDom (s : State) (k : Nat) (v : List Byte) : State := { s with doms := Sparse.set domDflt s.doms k v }

/-! ### Staging and APPLY (R397, R398) -/

/-- What an APPLY or a command answers: the state, STATUS, DETAIL (Table 15.10). -/
abbrev Ans := State × Nat × Nat

namespace St
def OK : Nat := 0
def ACCESS_DENIED : Nat := 1
def NO_OBJECT : Nat := 2
def TYPE_MISMATCH : Nat := 3
def OUT_OF_RANGE : Nat := 4
def INCONSISTENT : Nat := 5
def WRONG_STATE : Nat := 6
def BUSY : Nat := 7
def NOT_STAGED : Nat := 8
def TOO_LARGE : Nat := 9
def BLOCK_INCOMPLETE : Nat := 10
def DIGEST_MISMATCH : Nat := 11
def NO_BLOCK : Nat := 12
def UNKNOWN_OP : Nat := 13
end St

/-- Accepted. -/
def State.ok (s : State) : Ans := (s, St.OK, 0)
/-- Refused with a status and a DETAIL; the state is as it was. -/
def State.no (s : State) (status detail : Nat) : Ans := (s, status, detail)

def State.session (s : State) (i : Nat) : Session := Sparse.get (fun _ => Session.free) s.dap.sessions i
def State.setSession (s : State) (i : Nat) (x : Session) : State :=
  { s with dap := { s.dap with sessions := Sparse.set (fun _ => Session.free) s.dap.sessions i x } }

/-- The session has staged a value for the object. -/
def Session.stagedAt (x : Session) (k : Nat) : Option (List Byte) := (x.staging.find? (fun p => p.1 == k)).map Prod.snd

/-- Candidate value of a numeric object: the session's staged value, else the value in force (R398). -/
def State.cand (s : State) (slot k : Nat) : Nat :=
  match (s.session slot).stagedAt k with
  | some b => ofBe b
  | none => s.obj k

/-- Candidate bytes of a DOMAIN object. -/
def State.candB (s : State) (slot k : Nat) : List Byte :=
  match (s.session slot).stagedAt k with
  | some b => b
  | none => s.dom k

/-- The candidate's numeric fields take effect. -/
def State.take (s : State) (slot : Nat) (ks : List Nat) : State :=
  ks.foldl (fun t k => t.setObj k (s.cand slot k)) s

/-- The candidate's DOMAIN fields take effect. -/
def State.takeB (s : State) (slot : Nat) (ks : List Nat) : State :=
  ks.foldl (fun t k => t.setDom k (s.candB slot k)) s

/-! ### Free values, messages, time -/

/-- The next free number (DESIGN CHOICE, log 4). -/
def State.free (s : State) : Nat := Config.freeNat s.freeCtr

/-- The free number has been used (DESIGN CHOICE, log 4). -/
def State.spend (s : State) : State := { s with freeCtr := s.freeCtr + 1 }

/-- `n` bytes the device draws (R390, R450) (DESIGN CHOICE, log 4). -/
def State.draw (s : State) (n : Nat) : List Byte := (List.range n).map (Config.drawn s.freeCtr)

def State.ethSt (s : State) (e : Nat) : EthSt := Sparse.get (fun _ => EthSt.reset) s.eth e
def State.setEth (s : State) (e : Nat) (x : EthSt) : State := { s with eth := Sparse.set (fun _ => EthSt.reset) s.eth e x }
/-- A frame of the port's own traffic has arrived (R388). -/
def State.frameIn (s : State) (e : Nat) : State := s.setEth e { s.ethSt e with rcvd := (s.ethSt e).rcvd + 1 }

/-- Ethernet port by which a message leaves. -/
def Msg.ethPort : Msg → Option Nat
  | .udp p _ _ _ _ => some p
  | .arp p _ _ => some p
  | .neighbour p _ _ => some p
  | .echo p _ _ _ => some p
  | _ => none

/-- Send a message; an Ethernet port counts its frame (DESIGN CHOICE, log 5). -/
def State.emit (s : State) (m : Msg) : State :=
  let t := { s with outbox := s.outbox ++ [m] }
  match m.ethPort with
  | some e => t.setEth e { t.ethSt e with sent := (t.ethSt e).sent + 1 }
  | none => t

/-- Whole nanoseconds of the timebase (R58). -/
def TbSt.ns (t : TbSt) : Nat := (t.acc >>> 32).toNat

/-- Timebase now, whole nanoseconds. -/
def State.now (s : State) : Nat := s.tb.ns

/-- The 80 shown bits of the timebase. -/
def State.tb80 (s : State) : BitVec 80 := (s.tb.acc >>> 16).setWidth 80

/-- TB_FULL's ten bytes: nanoseconds, then fraction, each least significant byte first (R62). -/
def tbFullBytes (t : BitVec 80) : List Byte := leBytes 8 (t.toNat / 2 ^ 16) ++ leBytes 2 (t.toNat % 2 ^ 16)

/-! ### Event sources (Tables 17.1 and 18.10) -/

namespace Ev
def TICK : Nat := 0x000
def MGMT_RX : Nat := 0x001
def DAP_RX : Nat := 0x002
def FXP_RX : Nat := 0x003
def I2C : Nat := 0x004
def CIPHER_DONE : Nat := 0x005
def SHUTDOWN_REQ : Nat := 0x006
def POWER_PEAK : Nat := 0x010
def POWER_FLOOR : Nat := 0x011
def REFCLK_LOST : Nat := 0x012
def PPS_LOST : Nat := 0x013
def MEM_UNCORRECTABLE : Nat := 0x014
def LEDGER_CHECK : Nat := 0x015
def VERDICT_LOST : Nat := 0x016
def TILE_INVALID : Nat := 0x040
def TILE_RESIDUE : Nat := 0x041
def PERM_RANGE : Nat := 0x042
def DMA_FAULT : Nat := 0x043
def ACCESS_REFUSED : Nat := 0x044
def LINK_UP : Nat := 0x050
def LINK_DOWN : Nat := 0x051
def LINK_MISCABLED : Nat := 0x052
def ROUTE_MISS : Nat := 0x053
def SLICE_CREATED : Nat := 0x054
def SLICE_REFUSED : Nat := 0x055
def SLICE_OPEN : Nat := 0x056
def SLICE_CLOSED : Nat := 0x057
def SLICE_FAULT : Nat := 0x058
def COLL_FAULT : Nat := 0x060
def COLL_RETRACT : Nat := 0x061
def EPOCH_MIX : Nat := 0x062
def STEP_SKIPPED : Nat := 0x063
def VERSION_SKEW : Nat := 0x064
def COMMIT_STALL : Nat := 0x065
def JOB_LOADED : Nat := 0x070
def JOB_REFUSED : Nat := 0x071
def JOB_STOPPED : Nat := 0x072
def FEED_STALL : Nat := 0x073
def FEED_MISSING : Nat := 0x074
def RESHARD_DONE : Nat := 0x075
def RESHARD_REFUSED : Nat := 0x076
def RESHARD_FAILED : Nat := 0x077
def FXP_JOINED : Nat := 0x080
def FXP_REFUSED : Nat := 0x081
def MEMBER_LOST : Nat := 0x082
def COORD_TAKEOVER : Nat := 0x083
def CONTRIB_STALE : Nat := 0x084
def DELTA_VOID : Nat := 0x085
def FXP_FORK : Nat := 0x086
def FXP_ADOPT : Nat := 0x087
def TIME_SUSPECT : Nat := 0x090
def TIME_ACCEPTED : Nat := 0x091
def TIME_REFUSED : Nat := 0x092
def STREAM_GAP : Nat := 0x0A0
def SNAP_DONE : Nat := 0x0A1
def SNAP_FAILED : Nat := 0x0A2
def SNAP_MISSED : Nat := 0x0A3
def H_CHANGED : Nat := 0x0B0
def READY : Nat := 0x0C0
def GAUGE_START : Nat := 0x0C1
def GAUGE_DONE : Nat := 0x0C2
def DEGRADED : Nat := 0x0C3
def LC_CHANGED : Nat := 0x0C4
def FW_STAGED : Nat := 0x0C5
def FW_REFUSED : Nat := 0x0C6
def BOOT_FALLBACK : Nat := 0x0C7

/-- Rows of Tables 17.1 and 18.10: first source, last source, default priority. -/
def ranges : List (Nat × Nat × Nat) := [
  (0x000, 0x000, 28), (0x001, 0x001, 20), (0x002, 0x002, 12), (0x003, 0x003, 16), (0x004, 0x004, 10),
  (0x005, 0x005, 14), (0x006, 0x006, 29), (0x010, 0x010, 31), (0x011, 0x011, 22), (0x012, 0x012, 30),
  (0x013, 0x013, 16), (0x014, 0x014, 24), (0x015, 0x015, 24), (0x016, 0x016, 26), (0x040, 0x041, 8),
  (0x042, 0x042, 8), (0x043, 0x043, 8), (0x044, 0x044, 8), (0x050, 0x053, 18), (0x054, 0x058, 18),
  (0x060, 0x062, 20), (0x063, 0x063, 20), (0x064, 0x065, 20), (0x070, 0x077, 12), (0x080, 0x087, 16),
  (0x090, 0x092, 16), (0x0A0, 0x0A3, 10), (0x0B0, 0x0B0, 4), (0x0C0, 0x0C0, 12), (0x0C1, 0x0C1, 10),
  (0x0C2, 0x0C2, 10), (0x0C3, 0x0C3, 24), (0x0C4, 0x0C4, 20), (0x0C5, 0x0C5, 10), (0x0C6, 0x0C6, 10),
  (0x0C7, 0x0C7, 20)]

/-- Default priority of a listed source. -/
def default? (src : Nat) : Option Nat :=
  (ranges.find? (fun r => decide (r.1 ≤ src) && decide (src ≤ r.2.1))).map (fun r => r.2.2)

/-- The source is listed (R423). -/
def listed (src : Nat) : Bool := (default? src).isSome
def defaultPrio (src : Nat) : Nat := (default? src).getD 0
/-- Default targets as a mask of CPs. -/
def defaultTargets (src : Nat) : Nat :=
  if src = 0 then 1 else if src = 4 then 8 else if listed src then 15 else 0
end Ev

/-- Priority and targets in force (R432). -/
def EvSt.prioOf (e : EvSt) (src : Nat) : Nat := Sparse.get Ev.defaultPrio e.prio src
def EvSt.targetsOf (e : EvSt) (src : Nat) : Nat := Sparse.get Ev.defaultTargets e.targets src
/-- A control processor's state. -/
def EvSt.cp (e : EvSt) (c : Nat) : CpSt := Sparse.get (fun _ => CpSt.reset) e.cps c
def EvSt.setCp (e : EvSt) (c : Nat) (p : CpSt) : EvSt := { e with cps := Sparse.set (fun _ => CpSt.reset) e.cps c p }

/-- CPPRI (R426). -/
def CpSt.cppri (p : CpSt) : Nat :=
  match p.active with
  | [] => p.floor
  | as => max p.floor (1 + as.foldl (fun a x => max a x.2) 0)

/-- Occurrences of a source pending at a CP. -/
def CpSt.pendOf (p : CpSt) (src : Nat) : Option Pend := p.pend.find? (fun q => q.src == src)

/-- Join an occurrence to those pending in a list (the oldest detail word stays). -/
def joinPend (src : Nat) (detail : BitVec 64) : List Pend → List Pend
  | [] => [⟨src, 1, detail⟩]
  | q :: qs => if q.src = src then { q with count := q.count + 1 } :: qs else q :: joinPend src detail qs

/-- Occurrence is raised at CP `c`: it joins the pending ones, wakes a sleeping CP (R428), and counts as given (R425). -/
def EvSt.giveTo (e : EvSt) (c src : Nat) (detail : BitVec 64) : EvSt :=
  let p := e.cp c
  { e with order := e.order + 1 }.setCp c
    { p with pend := joinPend src detail p.pend, raised := p.raised + 1, sleeping := false, given := some e.order }

/-- Order of two candidate CPs (R425 step 2): lower CPPRI first, then the longest without an occurrence, then the number. -/
def betterCp (e : EvSt) (a b : Nat) : Bool :=
  let pa := e.cp a
  let pb := e.cp b
  if pa.cppri ≠ pb.cppri then decide (pa.cppri < pb.cppri)
  else
    match pa.given, pb.given with
    | none, none => decide (a < b)
    | none, some _ => true
    | some _, none => false
    | some x, some y => decide (x < y)

/-- The candidate of R425 step 2, if there is one. -/
def EvSt.candidate (e : EvSt) (src : Nat) : Option Nat :=
  ((List.range 4).filter (fun c => (e.cp c).online && bit (e.targetsOf src) c)).foldl
    (fun b c => match b with
      | none => some c
      | some x => if betterCp e c x then some c else some x) none

/-- The CP where occurrences of the source are pending. -/
def EvSt.pendingAt (e : EvSt) (src : Nat) : Option Nat :=
  (List.range 4).find? (fun c => ((e.cp c).pendOf src).isSome)

/-- Occurrences of the source held at it. -/
def EvSt.heldOf (e : EvSt) (src : Nat) : Nat := (e.held.filter (fun q => q.src == src)).length

/-- Route one occurrence (R425): the new controller state, and whether the occurrence overran a count. -/
def EvSt.route (e : EvSt) (src : Nat) (detail : BitVec 64) : EvSt × Bool :=
  match e.pendingAt src with
  | some c =>
    match (e.cp c).pendOf src with
    | some q => if 65535 ≤ q.count then (e, true) else (e.giveTo c src detail, false)
    | none => (e, false)
  | none =>
    match e.candidate src with
    | some c => (e.giveTo c src detail, false)
    | none =>
      if 65535 ≤ e.heldOf src then (e, true)
      else ({ e with held := e.held ++ [⟨src, 1, detail⟩] }, false)

/-! ### DAP reports (R402, R403) -/

/-- SESSION value of a slot (Table 15.4). -/
def Session.value (x : Session) (slot : Nat) : Nat := x.handshake * 8 + slot

/-- Payload of a REPORT (R402). -/
def Report.payload (r : Report) : List Byte :=
  beBytes 2 r.source ++ zeros 2 ++ beBytes 4 r.lost ++ beBytes 8 r.time ++ beBytes 8 r.detail.toNat

/-- DAP header (Table 15.4). -/
def dapHeader (kind session seq len : Nat) : List Byte :=
  [0x44, 0x41, 0x01, BitVec.ofNat 8 kind] ++ beBytes 4 session ++ beBytes 8 seq ++ beBytes 2 len ++ zeros 6

/-- Initialisation vector of an encrypted DAP datagram (R389). -/
def dapIv (kind seq : Nat) : List Byte := BitVec.ofNat 8 kind :: zeros 3 ++ beBytes 8 seq

/-- Ciphertext and tag of a DAP payload under a key (R389). -/
def dapSeal (key : List Byte) (kind session seq : Nat) (payload : List Byte) : List Byte × List Byte :=
  Aes.gcm key (dapIv kind seq) (dapHeader kind session seq payload.length) payload

/-- Send a sealed DAP datagram to a session's station (R389, R393). -/
def State.sendDap (s : State) (slot kind seq : Nat) (payload : List Byte) : State :=
  let x := s.session slot
  let v := x.value slot
  let c := dapSeal (x.key.drop 32) kind v seq payload
  s.emit (.udp x.port x.peer x.peerPort (s.obj Obj.DAP_PORT) (dapHeader kind v seq payload.length ++ c.1 ++ c.2))

/-- Report an occurrence to one session: sent, or discarded past 256 unacknowledged ones (R403). -/
def State.report (s : State) (slot src : Nat) (detail : BitVec 64) : State :=
  let x := s.session slot
  if 256 ≤ x.reports.length then
    (s.setSession slot { x with reportLost := x.reportLost + 1 }).inc32 Obj.REPORTS_LOST
  else
    let r : Report := ⟨x.reportSeq + 1, src, x.reportLost, s.now, detail⟩
    (s.setSession slot { x with reports := x.reports ++ [r], reportSeq := x.reportSeq + 1, reportLost := 0 }).sendDap
      slot 10 r.seq r.payload

/-- Live sessions that have subscribed to a source. -/
def State.subscribers (s : State) (src : Nat) : List Nat :=
  (List.range 8).filter (fun i => (s.session i).live && (s.session i).mask.contains src)

/-- An occurrence of a source (R424): counted, forwarded to the DAP sessions, then routed. -/
def State.raise (s : State) (src : Nat) (detail : BitVec 64) : State :=
  let subs := s.subscribers src
  let s1 := subs.foldl (fun s i => s.report i src detail) s
  let s2 := if subs.isEmpty then s1 else s1.inc64 Obj.FORWARDED
  let e := { s2.ev with occ := Sparse.set (fun _ => 0) s2.ev.occ src (counted (0x24000100 + src) 32 (Sparse.get (fun _ => 0) s2.ev.occ src + 1)) }
  let r := e.route src detail
  let s3 := { s2 with ev := r.1 }
  if r.2 then s3.inc32 Obj.OVERRUNS else s3

/-- An occurrence whose detail word is given as a number. -/
def State.raiseN (s : State) (src detail : Nat) : State := s.raise src (BitVec.ofNat 64 detail)

/-! ### Cores -/

def State.core (s : State) (c : Nat) : CoreSt := Sparse.get (fun _ => CoreSt.reset) s.cores c
def State.setCore (s : State) (c : Nat) (x : CoreSt) : State :=
  { s with cores := Sparse.set (fun _ => CoreSt.reset) s.cores c x }

def CoreSt.ctx (x : CoreSt) : CtxId → Ctx
  | .job => x.job
  | .filler => x.filler
def CoreSt.setCtx (x : CoreSt) (c : CtxId) (y : Ctx) : CoreSt :=
  match c with
  | .job => { x with job := y }
  | .filler => { x with filler := y }

/-- Number of a tile of a context in `CoreSt.tiles`. -/
def tileKey : CtxId → Nat → Nat
  | .job, t => t % 16
  | .filler, t => 16 + t % 16

def CoreSt.tile (x : CoreSt) (c : CtxId) (t : Nat) : Tile := Sparse.get (fun _ => Tile.reset) x.tiles (tileKey c t)
def CoreSt.setTile (x : CoreSt) (c : CtxId) (t : Nat) (y : Tile) : CoreSt :=
  { x with tiles := Sparse.set (fun _ => Tile.reset) x.tiles (tileKey c t) y }
def CoreSt.accAt (x : CoreSt) (i : Nat) : Int := Sparse.get (fun _ => 0) x.acc i
def CoreSt.setAcc (x : CoreSt) (i : Nat) (v : Int) : CoreSt := { x with acc := Sparse.set (fun _ => 0) x.acc i v }

/-- Value of an index register, 0 for no index (R155). -/
def Regs.x (r : Regs) (i : Nat) : Int :=
  match i with
  | 1 => r.x1.toInt
  | 2 => r.x2.toInt
  | 3 => r.x3.toInt
  | _ => 0
def Regs.setX (r : Regs) (i : Nat) (v : BitVec 16) : Regs :=
  match i with
  | 1 => { r with x1 := v }
  | 2 => { r with x2 := v }
  | 3 => { r with x3 := v }
  | _ => r

/-- OR flags into FSTAT (R89). -/
def Regs.flag (r : Regs) (f : Flg) : Regs := { r with fstat := r.fstat ||| BitVec.ofNat 32 f }

/-- Saturating addition for the counters of 0x6100 (R433). -/
def satAdd (w a n : Nat) : Nat := min (2 ^ w - 1) (a + n)

/-- Sums since reset of the counters of 0x6100 (TOTALS), array 1 to 6. -/
def State.total (s : State) (arr n : Nat) : State :=
  s.setObj (0x61000000 + arr) (satAdd 64 (s.obj (0x61000000 + arr)) n)

/-! ### Addresses and codewords (R190, R195) -/

/-- Address bits 51:0: class and offset. -/
def gta (cls off : Nat) : Nat := cls * 2 ^ 47 + off
/-- Byte of a core's pocket, of a vector buffer and of the instruction store; the last two under class 0x1F (DESIGN CHOICE, log 9). -/
def pocketAddr (core byte : Nat) : Nat := gta 4 (core * 2 ^ 18 + byte)
/-- DESIGN CHOICE, log 9. -/
def vbAddr (core vb byte : Nat) : Nat := gta 0x1F (core * 2 ^ 18 + vb * 16384 + byte)
/-- DESIGN CHOICE, log 9. -/
def istoreAddr (core word : Nat) : Nat := gta 0x1F (core * 2 ^ 18 + 131072 + word * 8)
def skeinAddr (byte : Nat) : Nat := gta 8 byte
def ledgerAddr (rec : Nat) : Nat := gta 9 (rec * 32)

/-- Class of an address. -/
def clsOf (a : Nat) : Nat := a / 2 ^ 47 % 32
/-- Data bytes of a codeword at the address. -/
def cwLen (a : Nat) : Nat := if clsOf a < 4 then 32 else 16
/-- First address of the codeword that holds the byte. -/
def cwOf (a : Nat) : Nat := a / cwLen a * cwLen a
/-- Error counter group of an address (Table 17.7). -/
def memGroup (a : Nat) : Nat :=
  match clsOf a with
  | 0 => 0 | 1 => 1 | 2 => 2 | 3 => 3 | 4 => 4 | 8 => 6 | 9 => 7 | _ => 5

/-- What an unlisted address reads as (DESIGN CHOICE, log 10): zero after start-up (R443), and in the Ledger after reset and UNLOAD (R270); an
open byte after Gauge runs (R457). -/
def memDflt (gen ledGen a : Nat) : Byte :=
  let g := if clsOf a = 9 then ledGen else gen
  if g = 0 then 0 else Config.freeByte g a
def MemSt.dflt (m : MemSt) : Nat → Byte := memDflt m.gen m.ledGen

def MemSt.byte (m : MemSt) (a : Nat) : Byte := Sparse.get m.dflt m.bytes a
def MemSt.read (m : MemSt) (a n : Nat) : List Byte := Sparse.getList m.dflt m.bytes a n
def MemSt.put (m : MemSt) (a : Nat) (bs : List Byte) : MemSt :=
  { m with bytes := Sparse.setList m.dflt m.bytes a bs }

/-- The bytes of an aligned little-endian word in memory. -/
def MemSt.word (m : MemSt) (a n : Nat) : Nat := ofLe (m.read a n)

/-- First addresses of the codewords that overlap `n` bytes from `a`. -/
def cwsOf (a n : Nat) : List Nat :=
  if n = 0 then [] else
  let l := cwLen a
  (List.range ((a + n - 1) / l - a / l + 1)).map (fun i => (a / l + i) * l)

/-- The codeword at `cw` is stored with the poison marker. -/
def MemSt.isPoison (m : MemSt) (cw : Nat) : Bool := m.poison.contains cw

/-- Mark or unmark a codeword. -/
def MemSt.setPoison (m : MemSt) (cw : Nat) : MemSt := { m with poison := insNat cw m.poison }
def MemSt.clearPoison (m : MemSt) (cw : Nat) : MemSt := { m with poison := m.poison.filter (fun x => x != cw) }

def symDflt : Nat → List Nat := fun _ => []
def MemSt.symsAt (m : MemSt) (cw : Nat) : List Nat := Sparse.get symDflt m.symErr cw
def MemSt.setSyms (m : MemSt) (cw : Nat) (l : List Nat) : MemSt :=
  { m with symErr := Sparse.set symDflt m.symErr cw l }

/-- Outcome of decoding a codeword (R195). -/
inductive Decode4 where
  | clean | corrected (symbol : Nat) | uncorrectable | poison | miscorrected
deriving DecidableEq, Repr

/-- Decode a codeword. Three or more symbols in error: the manual makes no promise, and a free value decides between an
uncorrectable report and a miscorrection (DESIGN CHOICE, log 11). -/
def State.decodeCw (s : State) (cw : Nat) : Decode4 :=
  if s.mem.isPoison cw then .poison
  else
    match s.mem.symsAt cw with
    | [] => .clean
    | [x] => .corrected x
    | [_, _] => .uncorrectable
    | _ => if s.free % 2 = 0 then .uncorrectable else .miscorrected

/-- Add a record to MEM_LOG (R201, Table 8.5). -/
def State.memLog (s : State) (cw kind symbol master : Nat) : State :=
  let chip := s.obj Obj.CHIP
  let r := leBytes 8 s.now ++ leBytes 8 (chip * 2 ^ 52 + cw) ++ leBytes 1 kind ++ leBytes 1 symbol ++
    leBytes 2 master ++ zeros 4
  { s with mem := { s.mem with log := (r :: s.mem.log).take 16 } }.inc32 Obj.MEM_LOG_ADDED

/-- Count a corrected, or an uncorrectable, error (R433). -/
def State.countCorr (s : State) (cw : Nat) : State :=
  let g := memGroup cw
  { s with mem := { s.mem with corr := Sparse.set (fun _ => 0) s.mem.corr g (satAdd 64 (Sparse.get (fun _ => 0) s.mem.corr g) 1) } }.total 5 1
def State.countUncorr (s : State) (cw : Nat) : State :=
  let g := memGroup cw
  { s with mem := { s.mem with uncorr := Sparse.set (fun _ => 0) s.mem.uncorr g (satAdd 64 (Sparse.get (fun _ => 0) s.mem.uncorr g) 1) } }.total 6 1

/-- A read meets one codeword (R196, R197): the codeword's data as delivered, the counts and the log. A corrected
codeword is written back. -/
def State.readCw (s : State) (cw master kindC kindU : Nat) : Bool × State :=
  match s.decodeCw cw with
  | .clean => (false, s)
  | .poison => (true, s)
  | .corrected x =>
    (false, ({ s with mem := s.mem.setSyms cw [] }.countCorr cw).memLog cw kindC x master)
  | .miscorrected =>
    let bs := (List.range (cwLen cw)).map (fun i => Config.freeByte (s.free + 1) (cw + i))
    (false, (({ s.spend with mem := (s.mem.setSyms cw []).put cw bs }.countCorr cw).memLog cw kindC 0xFF master))
  | .uncorrectable =>
    (true, ((s.spend.countUncorr cw).memLog cw kindU 0xFF master).raiseN Ev.MEM_UNCORRECTABLE
      (s.obj Obj.CHIP * 2 ^ 52 + cw))

/-- A read meets each of the codewords in turn: which of them deliver poisoned data. -/
def State.readCws (s : State) (master : Nat) : List Nat → List Nat × State
  | [] => ([], s)
  | cw :: cws =>
    let r := s.readCw cw master 1 3
    let t := r.2.readCws master cws
    (if r.1 then cw :: t.1 else t.1, t.2)

/-- Codewords of a range that need the decoder's attention: poisoned, or with symbols in error. -/
def MemSt.marked (m : MemSt) (a n : Nat) : List Nat :=
  let lo := cwOf a
  (m.poison ++ m.symErr.map Prod.fst).eraseDups.filter (fun cw => decide (lo ≤ cw) && decide (cw < a + n))

/-- Read `n` bytes: the bytes, the poisoned codewords among them, and the state after the decoder's work. -/
def State.readMem (s : State) (a n master : Nat) : List Byte × List Nat × State :=
  let r := s.readCws master (s.mem.marked a n)
  (r.2.mem.read a n, r.1, r.2)

/-- The byte at `a` lies in one of the poisoned codewords. -/
def inPoison (ps : List Nat) (a : Nat) : Bool := ps.contains (cwOf a)

/-- A write meets one codeword (R197, R198): a whole codeword loses its poison and its errors; a part of
one that decodes as uncorrectable or poison leaves it poisoned, and the read is logged as KIND 5 (DEDUCED, log 69). -/
def State.writeCw (s : State) (a n master cw : Nat) : State :=
  if a ≤ cw ∧ cw + cwLen cw ≤ a + n then { s with mem := (s.mem.clearPoison cw).setSyms cw [] }
  else
    match s.decodeCw cw with
    | .poison => s.memLog cw 5 0xFF master
    | .uncorrectable => (({ s.spend with mem := (s.mem.setPoison cw).setSyms cw [] }.countUncorr cw).memLog cw 5 0xFF master).raiseN
        Ev.MEM_UNCORRECTABLE (s.obj Obj.CHIP * 2 ^ 52 + cw)
    | .clean => s
    | _ => (s.readCw cw master 1 3).2

/-- Write bytes (R193, R198). -/
def State.writeMem (s : State) (a : Nat) (bs : List Byte) (master : Nat) : State :=
  let s1 := (s.mem.marked a bs.length).foldl (fun s cw => s.writeCw a bs.length master cw) s
  { s1 with mem := s1.mem.put a bs }

/-- Write bytes some of which are marked as poisoned: each codeword they touch is stored with the marker (R197). `ps`
holds the offsets within `bs` of poisoned bytes. -/
def State.writePoison (s : State) (a : Nat) (bs : List Byte) (ps : List Nat) (master : Nat) : State :=
  let s1 := s.writeMem a bs master
  { s1 with mem := ps.foldl (fun m o => m.setPoison (cwOf (a + o))) s1.mem }

/-- Write zero to `n` bytes as whole codewords. -/
def State.zeroMem (s : State) (a n : Nat) : State := s.writeMem a (zeros n) 0

/-- Memory zeroed: a whole-codeword write of zero to every codeword (R443 step 6, R450) (DESIGN CHOICE, log 10). -/
def MemSt.zeroed (m : MemSt) : MemSt := { m with bytes := [], gen := 0, ledGen := 0, poison := [], symErr := [] }

/-- Every byte open, as after a Gauge run (R457) (DESIGN CHOICE, log 10). -/
def MemSt.opened (m : MemSt) (gen : Nat) : MemSt := { m with bytes := [], gen := gen + 1, ledGen := gen + 1, poison := [], symErr := [] }

/-- An 8-byte aligned word read without the decoder, for the device's own tables. -/
def State.word64 (s : State) (a : Nat) : Nat := s.mem.word a 8

/-! ### Pins and conditions -/

/-- The device is out of reset and its firmware runs (step 5 of Table 18.3). -/
def State.up (s : State) : Bool :=
  s.boot.stage == .firmware || s.boot.stage == .fullStart || s.boot.stage == .memory || s.boot.stage == .ready

/-- JOB_STATE codes (Table 7.28). -/
def JOB_EMPTY : Nat := 0
def JOB_CHECKING : Nat := 1
def JOB_LOADED : Nat := 2
def JOB_STARTING : Nat := 3
def JOB_RUNNING : Nat := 4
def JOB_STOPPING : Nat := 5
def JOB_STOPPED : Nat := 6
def JOB_REFUSED : Nat := 7

def State.jobState (s : State) : Nat := s.obj Obj.JOB_STATE
/-- Contexts may issue instructions. -/
def State.jobRuns (s : State) : Bool := s.jobState == JOB_RUNNING || s.jobState == JOB_STOPPING
/-- No image is in force in a way that Gauge or a lifecycle change forbids (R450, R456). -/
def State.jobIdle (s : State) : Bool := s.jobState == JOB_EMPTY || s.jobState == JOB_REFUSED

/-- Master ID of a core's swatch (Table 8.9). -/
def swatchMaster (core : Nat) : Nat := 0x10 + core / 64

end Sys2Proof.Machine
end

