-- ==== Sys2Proof/Machine/Pattern.lean ====
section
/-! DEFINITION. The instruction words of a pattern (R153 to R176, Tables 7.1 to 7.15). Decoding is a total function from
two consecutive words to an instruction and the number of words it takes; a reserved class, operation or field value is
none (R11, R153). Checks that depend on more than the words are the loader's. -/

namespace Sys2Proof

/-- A 21-bit operand field (Table 7.3). -/
structure Opnd where
  kind : Nat
  str : Nat
  xs : Nat
  off : Nat
deriving DecidableEq, Repr

/-- A 16-bit location field (Table 7.4). -/
structure Loc where
  kind : Nat
  unit : Nat
deriving DecidableEq, Repr

/-- One instruction of a pattern. -/
inductive PI where
  | mm (mode tile : Nat) (init : Bool) (e : Int) (k aoff axs boff bxs ald bld : Nat)
  | pld (tensor : Bool) (sfmt tile : Nat) (e : Int) (soff sxs : Nat)
  | drn (tile : Nat) (free : Bool) (act ofmt rm : Nat) (sc bi et : Bool) (row0 rows : Nat) (dst etd scl bia : Loc)
  | cvt (src dst rm n tile : Nat) (d a : Opnd)
  | va (op fmt rm n gl tile : Nat) (d a b c : Opnd)
  | perm (fmt n tile : Nat) (d a b : Opnd)
  | copy (store : Bool) (vb vunit punit vxs pxs len : Nat)
  | dma (slot pxs tag : Nat) (pf : Bool)
  | cord (slot tag : Nat)
  | bar (id scope : Nat) (lend : Bool) (phase : Nat)
  | waitd (mask : Nat)
  | waitc (mask : Nat)
  | step
  | endF
  | cl (entry tag xs : Nat)
  | jmp (target : Nat)
  | loop (count last xsel xstep : Nat)
  | brv (target sqmask : Nat)
  | setx (xsel v : Nat)
  | xr (write : Bool) (sel tile : Nat) (loc : Opnd)
  | mr (op sel : Nat) (loc : Opnd) (imm : Nat)
  | dbgMark (imm : Nat)
  | dbgBreak (bp : Nat)
deriving DecidableEq, Repr

/-- Read an operand field. -/
def Opnd.of (v : Nat) : Opnd := ⟨bits v 20 18, bits v 17 16, bits v 15 14, bits v 13 0⟩

/-- The stride of a stride code. -/
def Opnd.stride (o : Opnd) : Nat := if o.str = 3 then 4 else o.str

/-- Read a location field. -/
def Loc.of (v : Nat) : Loc := ⟨bits v 15 13, bits v 12 0⟩

/-- Field `hi:lo` is zero. -/
def zeroF (w hi lo : Nat) : Bool := bits w hi lo == 0

/-- VA operation takes operands A only, A and B, or A, B and C (Table 7.9); none when reserved. -/
def vaArity (op : Nat) : Option Nat :=
  if op = 5 ∨ op = 0x0F then some 3
  else if op = 4 ∨ op = 0x0A ∨ op = 0x0B ∨ op = 0x0C ∨ op = 0x0E ∨ op = 0x19 then some 1
  else if op ≤ 0x1D then some 2
  else if 0x20 ≤ op ∧ op ≤ 0x29 then some 1
  else if 0x30 ≤ op ∧ op ≤ 0x35 then some 1
  else none

/-- FMT accepted by a VA operation (Table 7.9, R133, R138, R139, R142). -/
def vaFmtOk (op fmt : Nat) : Bool :=
  if op ≤ 0x0A then 2 ≤ fmt && fmt ≤ 4
  else if op ≤ 0x0D then 2 ≤ fmt && fmt ≤ 4
  else if op = 0x0E ∨ op = 0x0F then fmt ≤ 6
  else if op = 0x10 then fmt ≤ 5
  else if 0x16 ≤ op ∧ op ≤ 0x19 then fmt == 5 || fmt == 6
  else if op ≤ 0x1D then fmt == 5
  else if op ≤ 0x29 then 2 ≤ fmt && fmt ≤ 4
  else fmt ≤ 4

/-- RM accepted by a VA operation (R161). -/
def vaRmOk (op rm : Nat) : Bool :=
  if op ≤ 5 ∨ op = 0x0A then rm ≤ 4 || rm == 7
  else if op = 0x10 then true
  else if op = 0x30 ∨ op = 0x31 then rm == 7
  else rm == 0

/-- GL accepted (Table 7.8). -/
def vaGlOk (op gl : Nat) : Bool := if 0x30 ≤ op then gl ≤ 12 else gl == 0

/-- Source and destination form a path of Table 4.5. -/
def cvtPath (src dst : Nat) : Bool :=
  (dst == 4 && (src ≤ 3 || src == 5 || src == 7 || src == 8)) || (src == 4 && (dst ≤ 3 || dst == 5 || dst == 7 || dst == 8))

/-- Modes accepted on a path (Tables 4.4 and 4.5, R76). -/
def cvtRmOk (src dst rm : Nat) : Bool :=
  if dst = 4 then (if src = 5 then rm ≤ 4 || rm == 7 else rm != 6)
  else if dst = 5 then rm ≤ 4 || rm == 7
  else if dst = 2 ∨ dst = 3 then rm ≤ 5 || rm == 7
  else rm == 0 || rm == 1 || rm == 5 || rm == 7

/-- RM accepted by a drain's conversion to OFMT (R159): a binary32 result takes no part in rounding. -/
def drnRmOk (ofmt rm : Nat) : Bool :=
  if ofmt = 4 then rm ≤ 4 || rm == 7
  else if ofmt = 2 ∨ ofmt = 3 then rm ≤ 5 || rm == 7
  else rm == 0 || rm == 1 || rm == 5 || rm == 7

/-- Keep a value when the condition holds. -/
def guardO {α : Type} (c : Bool) (v : α) : Option α := if c then some v else none

/-- Operand fields of word 1 (R160). -/
def opA (w : Nat) : Opnd := Opnd.of (bits w 63 43)
def opB (w : Nat) : Opnd := Opnd.of (bits w 42 22)
def opC (w : Nat) : Opnd := Opnd.of (bits w 21 1)

/-- MM (Table 7.5). -/
def decMM (w v : Nat) : Option PI :=
  guardO (zeroF w 59 54 && decide (bits w 53 50 ≤ 8) && zeroF w 6 0 && zeroF v 29 0 && (bit w 45 || zeroF w 44 37))
    (.mm (bits w 53 50) (bits w 49 46) (bit w 45) (signed 8 (bits w 44 37)) (bits w 36 21 + 1)
      (bits w 20 9) (bits w 8 7) (bits v 63 52) (bits v 51 50) (bits v 49 40) (bits v 39 30))

/-- PLD (Table 7.6). -/
def decPLD (w : Nat) : Option PI :=
  guardO (decide (bits w 59 54 ≤ 1) && decide (bits w 53 50 ≤ 4) && zeroF w 23 0)
    (.pld (bit w 54) (bits w 53 50) (bits w 49 46) (signed 8 (bits w 45 38)) (bits w 37 26) (bits w 25 24))

/-- A location field in its place. -/
def locOk (l : Loc) (used : Bool) : Bool := if used then l.kind != 7 else true

/-- DRN (Table 7.7). -/
def decDRN (w v : Nat) : Option PI :=
  let ofmt := bits w 45 42
  let rm := bits w 41 39
  guardO (zeroF w 59 54 && decide (bits w 48 46 ≤ 4) && decide (ofmt ≤ 4) && drnRmOk ofmt rm && zeroF w 9 0)
    (.drn (bits w 53 50) (bit w 49) (bits w 48 46) ofmt rm (bit w 38) (bit w 37) (bit w 36) (bits w 35 23)
      (bits w 22 10 + 1) (Loc.of (bits v 63 48)) (Loc.of (bits v 47 32)) (Loc.of (bits v 31 16)) (Loc.of (bits v 15 0)))

/-- CVT, VA, PERM (Tables 7.8 and 7.9). -/
def decVec (w v : Nat) : Option PI :=
  let op := bits w 59 54
  let fmt := bits w 53 50
  let rm := bits w 49 47
  let n := bits w 46 35 + 1
  let gl := bits w 34 31
  let tile := bits w 30 27
  let d := Opnd.of (bits w 26 6)
  if !(zeroF w 5 0 && zeroF v 0 0) then none
  else if bits w 63 60 = 3 then
    guardO (op == 0 && decide (fmt ≤ 8) && decide (gl ≤ 8) && cvtPath gl fmt && cvtRmOk gl fmt rm &&
        d.kind ≤ 5 && (opA v).kind != 7 && (opB v).kind == 7 && (opC v).kind == 7)
      (.cvt gl fmt rm n tile d (opA v))
  else if bits w 63 60 = 4 then
    match vaArity op with
    | none => none
    | some ar =>
      guardO (vaFmtOk op fmt && vaRmOk op rm && vaGlOk op gl && d.kind ≤ 5 && (opA v).kind != 7 &&
          ((opB v).kind == 7) == decide (ar < 2) && ((opC v).kind == 7) == decide (ar < 3))
        (.va op fmt rm n gl tile d (opA v) (opB v) (opC v))
  else
    guardO (op == 0 && rm == 0 && gl == 0 && decide (fmt ≤ 6) && d.kind ≤ 5 && (opA v).kind != 7 &&
        (opB v).kind != 7 && (opC v).kind == 7)
      (.perm fmt n tile d (opA v) (opB v))

/-- MV (Table 7.11). A field that the operation does not use is not reserved. -/
def decMV (w : Nat) : Option PI :=
  let op := bits w 59 54
  if !(zeroF w 12 0) then none
  else if op ≤ 1 then
    guardO (decide (bits w 53 51 ≤ 5))
      (.copy (op == 1) (bits w 53 51) (bits w 50 43) (bits w 42 31) (bits w 30 29) (bits w 28 27) (bits w 26 19 + 1))
  else if op = 2 then some (.dma (bits w 42 31) (bits w 28 27) (bits w 18 14) (bit w 13))
  else if op = 3 then some (.cord (bits w 42 31) (bits w 18 14))
  else none

/-- SY (Table 7.13). -/
def decSY (w : Nat) : Option PI :=
  match bits w 59 54 with
  | 0 => guardO (zeroF w 35 0) (.bar (bits w 53 42) (bits w 41 40) (bit w 39) (bits w 38 36))
  | 1 => guardO (zeroF w 21 0) (.waitd (bits w 53 22))
  | 2 => guardO (zeroF w 21 0) (.waitc (bits w 53 22))
  | 3 => guardO (zeroF w 35 0) .step
  | 4 => guardO (zeroF w 35 0) .endF
  | _ => none

/-- CL (Table 7.15). -/
def decCL (w : Nat) : Option PI :=
  guardO (zeroF w 59 54 && zeroF w 30 0) (.cl (bits w 53 38) (bits w 37 33) (bits w 32 31))

/-- BR (Table 7.12). -/
def decBR (w : Nat) : Option PI :=
  if !(zeroF w 3 0) then none
  else match bits w 59 54 with
  | 0 => some (.jmp (bits w 53 42))
  | 1 => some (.loop (bits w 53 34 + 1) (bits w 33 22) (bits w 21 20) (bits w 19 4))
  | 2 => some (.brv (bits w 53 42) (bits w 41 10))
  | 3 => guardO (!zeroF w 21 20) (.setx (bits w 21 20) (bits w 19 4))
  | _ => none

/-- An operand field for one or two I32 elements of a buffer (Table 7.10). -/
def locBuf (o : Opnd) : Bool := decide (o.kind ≤ 5) && o.str == 1

/-- XR, MR, DBG (Table 7.10). -/
def decXMD (w : Nat) : Option PI :=
  let op := bits w 59 54
  let sel := bits w 53 52
  let tile := bits w 51 48
  let loc := Opnd.of (bits w 47 27)
  if bits w 63 60 = 0xA then
    guardO (decide (op ≤ 1) && locBuf loc) (.xr (op == 1) sel tile loc)
  else if bits w 63 60 = 0xB then
    if op ≤ 1 then guardO (tile == 0 && locBuf loc) (.mr op sel loc 0)
    else guardO (op == 2 && sel != 2 && tile == 0 && zeroF w 47 32) (.mr 2 sel ⟨7, 0, 0, 0⟩ (bits w 31 0))
  else if op = 0 then guardO (sel == 0 && tile == 0 && zeroF w 47 32) (.dbgMark (bits w 31 0))
  else guardO (op == 1 && sel == 0) (.dbgBreak tile)

/-- Words an instruction of a class takes (Table 7.1). -/
def wordsOf (cls : Nat) : Nat := if cls = 0 ∨ (2 ≤ cls ∧ cls ≤ 5) then 2 else 1

/-- Read the instruction that begins with word `w`; `v` is the word after it. -/
def decodePI (w v : Nat) : Option (PI × Nat) :=
  let cls := bits w 63 60
  let r := match cls with
    | 0 => decMM w v
    | 1 => decPLD w
    | 2 => decDRN w v
    | 3 => decVec w v
    | 4 => decVec w v
    | 5 => decVec w v
    | 6 => decMV w
    | 7 => decSY w
    | 8 => decCL w
    | 9 => decBR w
    | 0xA => decXMD w
    | 0xB => decXMD w
    | 0xC => decXMD w
    | _ => none
  r.map (fun i => (i, wordsOf cls))

end Sys2Proof
end

