-- ==== Sys2Proof/Machine/Operands.lean ====
section
/-! DEFINITION. The operand forms of a core's instructions: pocket and buffer bytes with the substitution of poisoned
elements (R199, R200), vector operands with offset, stride and index (R125, R155), tile sources (R130), locations (R156),
and the control of a context: which context may issue, fetching a word, and where the program counter goes (R150 to
R152, R166, R174, R200). -/

namespace Sys2Proof.Machine

/-! ### Reading and writing a core's memories -/

/-- A core instruction reads `n` bytes. A job-context read of poisoned data sets the device's poison contribution (R200). -/
def State.coreRead (s : State) (core : Nat) (c : CtxId) (a n : Nat) : List Byte × List Nat × State :=
  let r := s.readMem a n (swatchMaster core)
  let s1 := r.2.2
  (r.1, r.2.1, if c = .job ∧ r.2.1 ≠ [] then { s1 with poisonHere := true } else s1)

/-- A core instruction writes bytes. -/
def State.coreWrite (s : State) (core a : Nat) (bs : List Byte) : State := s.writeMem a bs (swatchMaster core)

/-- Value delivered for a poisoned element of a format code (Table 8.4). -/
def poisonValue (fmt : Nat) : Nat :=
  match fmt with
  | 0 => 0x80 | 1 => 0x80 | 2 => 0x7E00 | 3 => 0x7FC0 | 4 => 0x7FC00000 | 7 => 0x80 | 8 => 0xFF | _ => 0

/-- The `w` bytes from `a` overlap a poisoned codeword. -/
def overlaps (ps : List Nat) (a w : Nat) : Bool := (cwsOf a w).any (fun cw => ps.contains cw)

/-- `n` contiguous elements of a format, poisoned ones replaced. -/
def State.readElems (s : State) (core : Nat) (c : CtxId) (fmt a n : Nat) : List Nat × State :=
  let w := fmtWidth fmt
  let r := s.coreRead core c a (n * w)
  let xs := elemsOf w n r.1
  (if r.2.1 = [] then xs
   else (List.range n).map (fun i => if overlaps r.2.1 (a + i * w) w then poisonValue fmt else nth 0 xs i), r.2.2)

/-- First byte of an element of a buffer operand. -/
def elemAddr (core vb w : Nat) (o : Int) (stride i : Nat) : Nat :=
  vbAddr core vb ((o + (i * stride : Nat)).toNat * w)

/-- Elements of a buffer operand: offset, stride (R125), poisoned ones replaced. -/
def State.readBuf (s : State) (core : Nat) (c : CtxId) (fmt n vb : Nat) (o : Int) (stride : Nat) : List Nat × State :=
  let w := fmtWidth fmt
  if stride = 1 then s.readElems core c fmt (elemAddr core vb w o 1 0) n
  else if stride = 0 then
    let r := s.readElems core c fmt (elemAddr core vb w o 0 0) 1
    (List.replicate n (nth 0 r.1 0), r.2)
  else
    (List.range n).foldl (fun (acc : List Nat × State) i =>
      let r := acc.2.readElems core c fmt (elemAddr core vb w o stride i) 1
      (acc.1 ++ r.1, r.2)) ([], s)

/-- Write elements of a buffer operand. A stride of 1 is one write of all the bytes (R128, R198). -/
def State.writeBuf (s : State) (core fmt vb : Nat) (o : Int) (stride : Nat) (xs : List Nat) : State :=
  let w := fmtWidth fmt
  if stride ≤ 1 then s.coreWrite core (elemAddr core vb w o 1 0) (bytesOfElems w xs)
  else
    ((List.range xs.length).zip xs).foldl
      (fun s p => s.coreWrite core (elemAddr core vb w o stride p.1) (leBytes w p.2)) s

/-- First byte of a location (R156). -/
def locAddr (core : Nat) (l : Loc) : Nat :=
  if l.kind = 6 then pocketAddr core (l.unit * 64) else vbAddr core l.kind (l.unit * 64)

/-- First byte of a pocket unit plus an index (R156). -/
def unitAddr (core unit : Nat) (x : Int) : Nat := pocketAddr core ((((unit : Int) + x).toNat) * 64)

/-! ### Tiles as sources -/

/-- Elements of a tile. -/
def Tile.size (t : Tile) : Nat := t.m * t.n

/-- The tile's adder tree is empty: its settle token is there (Table 3.1). -/
def Tile.settled (t : Tile) : Bool := t.tree.isEmpty

/-- An accumulator element as binary32, RNE (stage 1 of Table 5.5). -/
def stage1 (t : Tile) (x : CoreSt) (i : Nat) : Nat × Flg :=
  if t.poisoned.contains i then (b32.dnan, 0)
  else encInt b32 .rne false (x.accAt (t.base + i)) (t.e - 40)

/-- Stage-1 values of elements `is`, the segment area added where the tile has closed a segment (R102, R130): values,
flags of the conversions, flags of the segment additions. -/
def State.tileValues (s : State) (core : Nat) (c : CtxId) (t : Tile) (is : List Nat) : List Nat × Flg × Flg × State :=
  let x := s.core core
  let vs := is.map (stage1 t x)
  if t.segn = 0 then (vs.map Prod.fst, Flg.union (vs.map Prod.snd), 0, s)
  else
    let r := is.foldl (fun (acc : List Nat × State) i =>
      let e := acc.2.readElems core c 4 (pocketAddr core (t.seg * 64 + i * 4)) 1
      (acc.1 ++ [nth 0 e.1 0], e.2)) ([], s)
    let ss := (vs.zip (r.1.zip is)).map (fun p =>
      if t.poisoned.contains p.2.2 then (b32.dnan, 0) else fadd b32 .rne p.2.1 p.1.1)
    (ss.map Prod.fst, Flg.union (vs.map Prod.snd), Flg.union (ss.map Prod.snd), r.2)

/-- Elements of an operand in the format of its instruction (R125, R130, R155): values, flags of a tile read, state. -/
def State.readOpnd (s : State) (core : Nat) (c : CtxId) (fmt n tile : Nat) (o : Opnd) : List Nat × Flg × State :=
  let x := s.core core
  let off : Int := (o.off : Int) + (x.ctx c).regs.x o.xs
  if o.kind = 6 then
    let r := s.tileValues core c (x.tile c tile) ((List.range n).map (fun i => off.toNat + i * o.stride))
    (r.1, r.2.1 ||| r.2.2.1, r.2.2.2)
  else
    let r := s.readBuf core c fmt n o.kind off o.stride
    (r.1, 0, r.2)

/-- Write an operand (R125, R155). -/
def State.writeOpnd (s : State) (core : Nat) (c : CtxId) (fmt : Nat) (o : Opnd) (xs : List Nat) : State :=
  s.writeBuf core fmt o.kind ((o.off : Int) + ((s.core core).ctx c).regs.x o.xs) o.stride xs

/-! ### Contexts -/

/-- Change a context of a core. -/
def State.modCtx (s : State) (core : Nat) (c : CtxId) (f : Ctx → Ctx) : State :=
  let x := s.core core
  s.setCore core (x.setCtx c (f (x.ctx c)))

/-- Change a core. -/
def State.modCore (s : State) (core : Nat) (f : CoreSt → CoreSt) : State := s.setCore core (f (s.core core))

/-- OR flags into a context's FSTAT (R89). -/
def State.flagCtx (s : State) (core : Nat) (c : CtxId) (f : Flg) : State :=
  s.modCtx core c (fun y => { y with regs := y.regs.flag f })

/-- Where control goes after the instruction at `pc` falls through to `nxt`: a loop whose body ends at `pc` iterates or
is left (R166). -/
def loopNext (pc nxt : Nat) : List Loop → Regs → Nat × List Loop × Regs
  | [], r => (nxt, [], r)
  | f :: fs, r =>
    if f.last = pc then
      let r' := if f.xsel = 0 then r else
        r.setX f.xsel ((match f.xsel with | 1 => r.x1 | 2 => r.x2 | _ => r.x3) + f.xstep)
      if 1 < f.left then (f.first, { f with left := f.left - 1 } :: fs, r')
      else loopNext pc nxt fs r'
    else (nxt, f :: fs, r)

/-- The instruction of `words` words at the program counter is done. -/
def Ctx.advance (y : Ctx) (words : Nat) : Ctx :=
  let r := loopNext y.pc (y.pc + words) y.loops y.regs
  { y with pc := r.1, loops := r.2.1, regs := r.2.2 }

def State.advance (s : State) (core : Nat) (c : CtxId) (words : Nat) : State := s.modCtx core c (fun y => y.advance words)

/-- The context may issue an instruction: the job runs, the core runs this context, and neither it nor the job context of
the core is stopped (R144, R145, R162, R173, R174). -/
def State.mayIssue (s : State) (core : Nat) (c : CtxId) : Bool :=
  let x := s.core core
  let y := x.ctx c
  s.jobRuns && y.present && !y.stopped && !y.broken && !y.ended && !y.atStop && !x.job.stopped && x.running == c

/-- The two words at a program counter. -/
def State.wordsAt (s : State) (core pc : Nat) : Nat × Nat :=
  (s.word64 (istoreAddr core pc), s.word64 (istoreAddr core (pc + 1)))

/-- Fetch the instruction at a program counter: none when a word of it is poisoned (R200) or does not decode. -/
def State.fetch (s : State) (core : Nat) (c : CtxId) (pc : Nat) : Bool × Option (PI × Nat) × State :=
  let f := s.coreRead core c (istoreAddr core pc) 8
  if f.2.1 ≠ [] then (true, none, f.2.2)
  else
    match decodePI (ofLe f.1) (f.2.2.wordsAt core pc).2 with
    | none => (false, none, f.2.2)
    | some (i, w) =>
      if w = 1 then (false, some (i, w), f.2.2)
      else
        let g := f.2.2.coreRead core c (istoreAddr core (pc + 1)) 8
        (decide (g.2.1 ≠ []), some (i, w), g.2.2)

/-- Run the instruction at the context's program counter by `k`, which answers none where the instruction is not of the
command's kind or must wait: then nothing changes (DESIGN CHOICE, log 1). A fetch of a poisoned word stops the context (R200). -/
def State.issue (s : State) (core : Nat) (c : CtxId) (k : PI → Nat → State → Option State) : State :=
  if s.mayIssue core c then
    let f := s.fetch core c ((s.core core).ctx c).pc
    if f.1 then f.2.2.modCtx core c (fun y => { y with stopped := true })
    else
      match f.2.1 with
      | none => s
      | some (i, w) =>
        match k i w f.2.2 with
        | some s' => s'
        | none => s
  else s

end Sys2Proof.Machine
end

