-- ==== Sys2Proof/Machine/Bed.lean ====
section
/-! DEFINITION. The needle bed (05): products on the accumulator grid, the adder tree and its group sums, saturation and
poison, segments, preload, drain, and the residue checks (R91 to R118). -/

namespace Sys2Proof.Machine

/-- Operand formats of a product mode (Table 5.1). -/
def modeFmts (mode : Nat) : Nat × Nat :=
  match mode with
  | 0 => (0, 0) | 1 => (0, 1) | 2 => (1, 0) | 3 => (1, 1) | 4 => (2, 2) | 5 => (3, 3) | 6 => (2, 3) | 7 => (3, 2)
  | _ => (4, 4)

/-- An operand of a product: a number, or a non-numeric operand (NaV, or ±Inf and NaN). -/
inductive POp where
  | num (neg : Bool) (m : Nat) (e : Int)
  | nav
  | bad
deriving DecidableEq, Repr

/-- Read a product operand of format code 0 to 4. -/
def POp.of (fmt c : Nat) : POp :=
  if fmt ≤ 1 then
    match (if fmt = 0 then v8 else g8).dec c with
    | none => .nav
    | some (s, m, e) => .num s m e
  else
    match (longFmt fmt).dec c with
    | .fin s m e => .num s m e
    | _ => .bad

/-- A value as an integer on the grid of anchor `E`, RNE (R97). -/
def onGrid (E : Int) (neg : Bool) (m : Nat) (e : Int) : Int :=
  let n := (roundAt .rne neg m (e + 40 - E) 0).1
  if neg then -(n : Int) else (n : Int)

/-- One product on the grid; an invalid product or one with a NaV operand is told apart (R97, R104). -/
def product (E : Int) (a b : POp) : Int × Bool × Bool :=
  match a, b with
  | .nav, _ => (0, false, true)
  | _, .nav => (0, false, true)
  | .bad, _ => (0, true, false)
  | _, .bad => (0, true, false)
  | .num sa ma ea, .num sb mb eb => (onGrid E (sa != sb) (ma * mb) (ea + eb), false, false)

/-- A group sum: 32 products summed exactly (R98), with its first poisoned term and its counts. -/
def groupSum (E : Int) (k0 : Nat) (as bs : List POp) : Int × Option Nat × Nat × Nat :=
  (as.zip bs).foldr (fun p (t : Nat → Int × Option Nat × Nat × Nat) k =>
    let r := product E p.1 p.2
    let u := t (k + 1)
    (r.1 + u.1, (if r.2.1 || r.2.2 then some k else u.2.1), u.2.2.1 + r.2.1.toNat, u.2.2.2 + r.2.2.toNat))
    (fun _ => (0, none, 0, 0)) k0

/-- The adder-tree items of one K-group: one group sum per element, in element order. -/
def groupItems (E : Int) (n k0 : Nat) (rows cols : List (List POp)) : List TreeItem :=
  ((List.range rows.length).zip rows).flatMap (fun r =>
    ((List.range cols.length).zip cols).map (fun c =>
      let g := groupSum E k0 r.2 c.2
      .sum (r.1 * n + c.1) g.1 g.2.1 g.2.2.1 g.2.2.2))

/-- The items of an MM: per K-group, with a mark before a group that begins at a multiple of 2^23 terms (R102). -/
def mmItems (E : Int) (n t0 k : Nat) (rows cols : List (List POp)) : List TreeItem :=
  (List.range (ceilDiv k 32)).flatMap (fun g =>
    let k0 := t0 + 32 * g
    let cut := fun (r : List POp) => (r.drop (32 * g)).take 32
    (if 0 < k0 ∧ k0 % 2 ^ 23 = 0 then [TreeItem.mark] else []) ++
      groupItems E n k0 (rows.map cut) (cols.map cut))

/-- Largest and smallest accumulator (R96). -/
def accMax : Int := 2 ^ 63 - 1
def accMin : Int := -(2 ^ 63)

/-- TSTAT as it reads (Table 5.2). -/
def Tile.tstat (t : Tile) : Nat :=
  unsigned 8 t.e * 2 ^ 24 + min 255 t.segn * 2 ^ 16 + (if t.live then 256 else 0) + t.flags % 256

/-- TXR1 as it reads (Table 5.4). -/
def Tile.txr1 (t : Tile) : Nat := min (2 ^ 40 - 1) t.terms * 2 ^ 24 + min 65535 t.pcount

/-- TXR0 for a first poisoned product, or all ones for a preload (Table 5.3). -/
def txr0Of (k : Option Nat) (elem : Nat) : BitVec 64 :=
  let f := match k with
    | some k => k % 2 ^ 40
    | none => 2 ^ 40 - 1
  BitVec.ofNat 64 (f * 2 ^ 24 + elem * 2 ^ 11 + 1)

/-- The record after a poisoned product at (k, elem): the lowest in order stands; a preload's record stays (R106). -/
def txr0Min (old : BitVec 64) (k elem : Nat) : BitVec 64 :=
  let o := old.toNat
  if o % 2 = 0 then txr0Of (some k) elem
  else if o / 2 ^ 24 = 2 ^ 40 - 1 then old
  else if k < o / 2 ^ 24 ∨ (k = o / 2 ^ 24 ∧ elem < o / 2 ^ 11 % 2 ^ 13) then txr0Of (some k) elem
  else old

/-- Change a tile of a core. -/
def State.modTile (s : State) (core : Nat) (c : CtxId) (t : Nat) (f : Tile → Tile) : State :=
  let x := s.core core
  s.setCore core (x.setTile c t (f (x.tile c t)))

/-- Count poisoning events on the core, and raise EV_TILE_INVALID when IVP or NVP rises (R106). -/
def State.poisonEvents (s : State) (core tile n : Nat) (rose : Bool) : State :=
  let s1 := (s.modCore core (fun x => { x with invalid := satAdd 32 x.invalid n })).total 1 n
  if rose then s1.raiseN Ev.TILE_INVALID (core + tile % 16 * 2 ^ 16) else s1

/-- Flags IVP and NVP for counts of the two kinds. -/
def poisonFlags (ivp nvp : Nat) : Nat := (if 0 < ivp then Tf.IVP else 0) ||| (if 0 < nvp then Tf.NVP else 0)

/-- The tile's flags gain a bit of IVP or NVP that was 0. -/
def rises (old new : Nat) : Bool := decide (new &&& 6 ≠ 0) && decide ((old &&& (new &&& 6)) ≠ (new &&& 6))

/-- Add a group sum into its element (R98, R101, R105, R106). -/
def State.addSum (s : State) (core : Nat) (c : CtxId) (t elem : Nat) (v : Int) (fk : Option Nat) (ivp nvp : Nat) : State :=
  let x := s.core core
  let y := x.tile c t
  let isP := y.poisoned.contains elem
  let y1 : Tile :=
    match fk with
    | none => y
    | some k =>
      { y with
        poisoned := insNat elem y.poisoned
        flags := y.flags ||| poisonFlags ivp nvp
        txr0 := txr0Min y.txr0 k elem
        pcount := y.pcount + ivp + nvp }
  let idx := y.base + elem
  let z := x.accAt idx + v
  let s1 : State :=
    if isP || fk.isSome || y.pinned.contains elem then s.setCore core (x.setTile c t y1)
    else if z ≤ accMax ∧ accMin ≤ z then s.setCore core ((x.setAcc idx z).setTile c t y1)
    else
      s.setCore core ((x.setAcc idx (if accMax < z then accMax else accMin)).setTile c t
        { y1 with pinned := insNat elem y1.pinned, flags := y1.flags ||| Tf.SAT })
  if ivp + nvp = 0 then s1
  else s1.poisonEvents core t (ivp + nvp) (rises y.flags (poisonFlags ivp nvp))

/-- A residue check on an addition (R117): 0 matches; 1 matches on the repeat; 2 fails again (DEDUCED, log 32). -/
def State.residueCheck (s : State) (core : Nat) (c : CtxId) (t elem faults : Nat) : State :=
  match faults with
  | 0 => s
  | 1 => (s.modCore core (fun x => { x with resCorr := satAdd 32 x.resCorr 1 })).total 3 1
  | _ =>
    (((s.modTile core c t (fun y => { y with poisoned := insNat elem y.poisoned, flags := y.flags ||| Tf.RXE })).modCore
      core (fun x => { x with resUncorr := satAdd 32 x.resUncorr 1 })).total 4 1).raiseN Ev.TILE_RESIDUE
        (core + t % 16 * 2 ^ 16)

/-- The first group sum of an element in a tree, before any mark, and the tree without it (DEDUCED, log 32). -/
def takeSum (elem : Nat) : List TreeItem → Option (TreeItem × List TreeItem)
  | [] => none
  | .mark :: _ => none
  | .sum e v k i n :: ts =>
    if e = elem then some (.sum e v k i n, ts)
    else (takeSum elem ts).map (fun r => (r.1, .sum e v k i n :: r.2))

/-- Close a segment (R102): convert, store into or add to the area, zero every element, clear its pin. -/
def State.closeSegment (s : State) (core : Nat) (c : CtxId) (t : Nat) : State :=
  let x := s.core core
  let y := x.tile c t
  let is := List.range y.size
  let r := s.tileValues core c y is
  let fl := r.2.1 ||| r.2.2.1
  let s1 := r.2.2.2.coreWrite core (pocketAddr core (y.seg * 64)) (bytesOfElems 4 r.1)
  s1.modCore core (fun x =>
    (is.foldl (fun (x : CoreSt) i => x.setAcc (y.base + i) 0) x).setTile c t
      { y with
        pinned := []
        segn := y.segn + 1
        flags := y.flags ||| Tf.SEG ||| (if fl &&& Fl.NX ≠ 0 then Tf.SNX else 0) |||
          (if fl &&& Fl.OF ≠ 0 then Tf.SOF else 0) })

/-- Take the next item of a tile's tree whatever it is, with no fault (R98, R102). -/
def State.treeStep (s : State) (core : Nat) (c : CtxId) (t : Nat) : State :=
  let y := (s.core core).tile c t
  match y.tree with
  | [] => s
  | .sum e v k i n :: ts => (s.modTile core c t (fun y => { y with tree := ts })).addSum core c t e v k i n
  | .mark :: ts => (s.modTile core c t (fun y => { y with tree := ts })).closeSegment core c t

/-- Let a tile's tree run empty. -/
def State.settleTile (s : State) (core : Nat) (c : CtxId) (t : Nat) : State :=
  ((s.core core).tile c t).tree.foldl (fun s _ => s.treeStep core c t) s

/-- Initialise a tile (R108): anchor, every element zero, pins, poison marks, counts, record and flags clear, live. -/
def State.initTile (s : State) (core : Nat) (c : CtxId) (t : Nat) (E : Int) : State :=
  s.modCore core (fun x =>
    let y := x.tile c t
    ((List.range y.size).foldl (fun (x : CoreSt) i => x.setAcc (y.base + i) 0) x).setTile c t
      { y with live := true, e := E, segn := 0, flags := 0, txr0 := 0, terms := 0, pcount := 0,
               pinned := [], poisoned := [] })

/-- The bed of the core may be used by the context: it is not lent (R116, R174). -/
def State.bedFree (s : State) (core : Nat) : Bool := !(s.core core).lent

/-- Operand rows of an MM: `count` rows of `k` elements from a pocket unit, `ld` units apart (R157). -/
def State.mmRows (s : State) (core : Nat) (c : CtxId) (fmt unit : Nat) (x : Int) (ld k count : Nat) :
    List (List POp) × State :=
  (List.range count).foldl (fun (acc : List (List POp) × State) i =>
    let r := acc.2.readElems core c fmt (unitAddr core (unit + ld * i) x) k
    (acc.1 ++ [r.1.map (POp.of fmt)], r.2)) ([], s)

/-- MM (R94, R95, R97, R98, R102, R108, R157): the products enter the adder tree. -/
def mmEffect (core : Nat) (c : CtxId) (i : PI) (w : Nat) (s : State) : Option State :=
  match i with
  | .mm mode tile init E k aoff axs boff bxs ald bld =>
    if !s.bedFree core then none
    else
      let s0 := if init then (s.settleTile core c tile).initTile core c tile E else s
      let y := (s0.core core).tile c tile
      let rg := ((s0.core core).ctx c).regs
      let a := s0.mmRows core c (modeFmts mode).1 aoff (rg.x axs) ald k y.m
      let b := a.2.mmRows core c (modeFmts mode).2 boff (rg.x bxs) bld k y.n
      let items := mmItems y.e y.n y.terms k a.1 b.1
      some ((b.2.modTile core c tile (fun y =>
        { y with tree := y.tree ++ items, terms := y.terms + 32 * ceilDiv k 32 })).advance core c w)
  | _ => none

/-- MM: the core's next instruction multiplies pocket operands into its tile. -/
def execMm (core : CoreId) (c : CtxId) (s : State) : Out := .next (s.issue core.val c (mmEffect core.val c))

/-! ### Debug drain (R114, R115) -/

/-- The debug objects take the elements as they stand; nothing in the core changes. The tile is the job context's (DEDUCED, log 31). -/
def State.drainNow (s : State) (q : Nat × Nat × Nat × Nat) (unsettled : Bool) : State :=
  let x := s.core q.1
  let y := x.tile .job q.2.1
  let es := rangeFrom q.2.2.1 q.2.2.2
  let map := (List.range (ceilDiv q.2.2.2 8)).map (fun b =>
    BitVec.ofNat 8 ((List.range 8).foldl (fun v i => if decide (8 * b + i < q.2.2.2) && y.poisoned.contains (q.2.2.1 + 8 * b + i) then v + 2 ^ i else v) 0))
  { ((((s.setDom Obj.DDR_TSTAT (leBytes 8 y.tstat ++ leBytes 8 y.txr0.toNat ++ leBytes 8 y.txr1)).setDom Obj.DDR_DATA
      (es.flatMap (fun e => leBytes 8 (unsigned 64 (x.accAt (y.base + e)))))).setDom Obj.DDR_POISON map).setObj Obj.DDR_STATUS
      (if unsettled then 7 else 5)) with dap := { s.dap with drain := none } }

/-- A waiting debug drain ends when its tile's settle token arrives (DEDUCED, log 31). -/
def State.drainCheck (s : State) : State :=
  match s.dap.drain with
  | some q => if ((s.core q.1).tile .job q.2.1).settled then s.drainNow q false else s
  | none => s

/-- APPLY on 0xC010. -/
def applyDebugDrain (s : State) (slot : Nat) : Ans :=
  let c := s.cand slot
  let y := (s.core (c Obj.DDR_CORE)).tile .job (c Obj.DDR_TILE)
  if 12288 ≤ c Obj.DDR_CORE then s.no St.OUT_OF_RANGE 1
  else if 16 ≤ c Obj.DDR_TILE ∨ y.live = false then s.no St.OUT_OF_RANGE 2
  else if y.size < c Obj.DDR_FIRST + c Obj.DDR_COUNT then s.no St.OUT_OF_RANGE 4
  else
    let t := (s.take slot [Obj.DDR_CORE, Obj.DDR_TILE, Obj.DDR_FIRST, Obj.DDR_COUNT]).setObj Obj.DDR_STATUS 0
    ({ t with dap := { t.dap with drain := some (c Obj.DDR_CORE, c Obj.DDR_TILE, c Obj.DDR_FIRST, c Obj.DDR_COUNT) } }).drainCheck.ok

/-- DEBUG_DRAIN_LIMIT: 4 µs have passed without the settle token. -/
def execDebugDrainLimit (s : State) : Out :=
  match s.dap.drain with
  | some q => .next (s.drainNow q (!((s.core q.1).tile .job q.2.1).settled))
  | none => .next s

/-- GROUP_SUM_ADD: the oldest group sum of an element leaves the tree and is added (R98, R117). -/
def execGroupSumAdd (core : CoreId) (c : CtxId) (tile : TileId) (elem : Fin 8192) (faults : Fin 3) (s : State) : Out :=
  let y := (s.core core.val).tile c tile.val
  match takeSum elem.val y.tree with
  | some (.sum e v k i n, ts) =>
    let s1 := (s.modTile core.val c tile.val (fun y => { y with tree := ts })).addSum core.val c tile.val e v k i n
    .next (if y.pinned.contains e || ((s1.core core.val).tile c tile.val).poisoned.contains e then s1
      else s1.residueCheck core.val c tile.val e faults.val).drainCheck
  | _ => .next s

/-- SEGMENT_CLOSURE: every sum before a multiple of 2^23 terms is in; the segment closes (R102). -/
def execSegmentClosure (core : CoreId) (c : CtxId) (tile : TileId) (s : State) : Out :=
  match ((s.core core.val).tile c tile.val).tree with
  | .mark :: ts =>
    .next ((s.modTile core.val c tile.val (fun y => { y with tree := ts })).closeSegment core.val c tile.val).drainCheck
  | _ => .next s

/-- One preload element (R105, R109): its integer, whether it saturates, and whether it is poisoned as Inf or NaN, or NaV. -/
def preload (E : Int) (fmt c : Nat) : Int × Bool × Bool × Bool :=
  match POp.of fmt c with
  | .nav => (0, false, false, true)
  | .bad => (0, false, true, false)
  | .num s m e =>
    let z := onGrid E s m e
    if accMax < z then (accMax, true, false, false)
    else if z < accMin then (accMin, true, false, false)
    else (z, false, false, false)

/-- Load the elements of a tile from a list of source codes (R109). -/
def State.loadTile (s : State) (core : Nat) (c : CtxId) (t fmt : Nat) (xs : List Nat) : State :=
  let y := (s.core core).tile c t
  let ps := xs.map (preload y.e fmt)
  let ips := (List.range ps.length).zip ps
  let sat := (ips.filter (fun p => p.2.2.1)).map Prod.fst
  let ivp := (ips.filter (fun p => p.2.2.2.1)).map Prod.fst
  let nvp := (ips.filter (fun p => p.2.2.2.2)).map Prod.fst
  let bad := (ips.filter (fun p => p.2.2.2.1 || p.2.2.2.2)).map Prod.fst
  let fl := (if sat = [] then 0 else Tf.SAT) ||| poisonFlags ivp.length nvp.length
  let s1 := s.modCore core (fun x =>
    (ips.foldl (fun (x : CoreSt) p => x.setAcc (y.base + p.1) p.2.1) x).setTile c t
      { y with
        pinned := sat
        poisoned := bad
        flags := fl
        pcount := bad.length
        txr0 := match bad with
          | [] => 0
          | e :: _ => txr0Of none e })
  if bad = [] then s1 else s1.poisonEvents core t bad.length true

/-- PLD (R46, R109, R158): waits for settle, initialises and loads the tile. -/
def pldEffect (core : Nat) (c : CtxId) (i : PI) (w : Nat) (s : State) : Option State :=
  match i with
  | .pld tensor sfmt tile E soff sxs =>
    let y := (s.core core).tile c tile
    if !s.bedFree core || !y.settled then none
    else
      let r := s.readElems core c sfmt (unitAddr core soff (((s.core core).ctx c).regs.x sxs))
        (if tensor then y.size else y.n)
      let xs := if tensor then r.1 else (List.replicate y.m r.1).flatten
      some (((r.2.initTile core c tile E).loadTile core c tile sfmt xs).advance core c w)
  | _ => none

/-- PLD: the core's next instruction preloads its tile. -/
def execPld (core : CoreId) (c : CtxId) (s : State) : Out := .next (s.issue core.val c (pldEffect core.val c))

/-- Map with flags gathered. -/
def mapFlags (f : Nat → Nat × Flg) (xs : List Nat) : List Nat × Flg :=
  let r := xs.map f
  (r.map Prod.fst, Flg.union (r.map Prod.snd))

/-- Combine two lists with flags gathered. -/
def zipFlags (f : Nat → Nat → Nat × Flg) (xs ys : List Nat) : List Nat × Flg :=
  let r := (xs.zip ys).map (fun p => f p.1 p.2)
  (r.map Prod.fst, Flg.union (r.map Prod.snd))

/-- The error term of one element (R112): value before conversion, its G8 result. -/
def errTerm (v g : Nat) : Nat × Flg :=
  if b32.isNaN v || g = g8.nav then (g8.nav, 0)
  else
    let d := fsub b32 .rne v (g8.widen 0 g).1
    let r := toShort g8 .rne false false 0 d.1
    (r.1, d.2 ||| r.2)

/-- DRN (R102, R110 to R112, R159): waits for settle, passes the rows through the five stages, writes the results. The flags of a
segment addition go to SNX and SOF alone. -/
def drnEffect (core : Nat) (c : CtxId) (i : PI) (w : Nat) (s : State) : Option State :=
  match i with
  | .drn tile free act ofmt rm sc bi et row0 rows dst etd scl bia =>
    let y := (s.core core).tile c tile
    if !s.bedFree core || !y.settled then none
    else
      let rg := ((s.core core).ctx c).regs
      let md := RMode.ofCode (rg.fmode.toNat % 8)
      let is := rangeFrom (row0 * y.n) (rows * y.n)
      let v1 := s.tileValues core c y is
      let c1 := if sc then v1.2.2.2.readElems core c 4 (locAddr core scl) 1 else ([], v1.2.2.2)
      let v2 := if sc then mapFlags (fun v => fmul b32 md v (nth 0 c1.1 0)) v1.1 else (v1.1, 0)
      let b1 := if bi then c1.2.readElems core c 4 (locAddr core bia) y.n else ([], c1.2)
      let v3 := if bi then zipFlags (fadd b32 md) v2.1 ((List.replicate rows b1.1).flatten) else (v2.1, 0)
      let v4 := mapFlags (activation act md) v3.1
      let v5 := if ofmt = 4 then (v4.1, 0, rg.srstate.toNat)
        else convList (cvtSel rm rg.fmode.toNat ofmt) (fun m x => narrowEl ofmt (navOvf rg.fmode.toNat) m x)
          rg.srstate.toNat v4.1
      let ev := if et then zipFlags errTerm v4.1 v5.1 else ([], 0)
      let s1 := b1.2.coreWrite core (locAddr core dst) (bytesOfElems (fmtWidth ofmt) v5.1)
      let s2 := if et then s1.coreWrite core (locAddr core etd) (bytesOfElems 1 ev.1) else s1
      let fl := v1.2.1 ||| v2.2 ||| v3.2 ||| v4.2 ||| v5.2.1 ||| ev.2
      let seg := (if v1.2.2.1 &&& Fl.NX ≠ 0 then Tf.SNX else 0) ||| (if v1.2.2.1 &&& Fl.OF ≠ 0 then Tf.SOF else 0)
      let s3 := s2.modTile core c tile (fun y =>
        { y with flags := y.flags ||| seg, live := y.live && !free })
      some ((s3.modCtx core c (fun z =>
        { z with regs := { z.regs.flag fl with srstate := BitVec.ofNat 64 v5.2.2 } })).advance core c w)
  | _ => none

/-- DRN: the core's next instruction drains rows of its tile. -/
def execDrn (core : CoreId) (c : CtxId) (s : State) : Out := .next (s.issue core.val c (drnEffect core.val c))

/-- The bed comes back (R116): every tile not live, every accumulator zero, every status word and record at reset. -/
def CoreSt.bedReset (x : CoreSt) : CoreSt :=
  { x with
    lent := false
    acc := []
    tiles := x.tiles.map (fun p => (p.1,
      { p.2 with live := false, e := 0, segn := 0, flags := 0, txr0 := 0, terms := 0, pcount := 0, pinned := [],
                 poisoned := [], tree := [] })) }

/-- BED_RETURN: the Blocking Unit gives a lent bed back (R116). -/
def execBedReturn (core : CoreId) (s : State) : Out :=
  if (s.core core.val).lent then .next (s.modCore core.val CoreSt.bedReset) else .next s

end Sys2Proof.Machine
end

