-- ==== Sys2Proof/Machine/Ledger.lean ====
section
/-! DEFINITION. The Block Ledger: record fields, CHECK, and the operations of Table 11.3 (R270 to R274). -/

namespace Sys2Proof.Machine

/-- One byte into the CRC-16 of R272, most significant bit first. -/
def crc16Byte (c : Nat) (b : Byte) : Nat :=
  (List.range 8).foldl (fun c _ => if 0x8000 ≤ c then (c * 2 % 65536) ^^^ 0x1021 else c * 2) (c ^^^ (b.toNat * 256))

/-- CRC-16 with polynomial 0x1021 and initial value 0xFFFF. -/
def crc16 (bs : List Byte) : Nat := bs.foldl crc16Byte 0xFFFF

/-- CHECK of record `i` (R272). -/
def recCheck (i : Nat) (r : List Byte) : Nat := crc16 (leBytes 4 i ++ r.take 24 ++ slice r 26 6)

/-- Word `w` of a record. -/
def recWord (r : List Byte) (w : Nat) : Nat := leAt r (8 * w) 8

/-- A field of a record: word, high bit, low bit (Table 11.2). -/
def recField (r : List Byte) (w hi lo : Nat) : Nat := bits (recWord r w) hi lo

/-- The record with a field given a value. -/
def setField (r : List Byte) (w hi lo v : Nat) : List Byte :=
  let x := recWord r w
  r.take (8 * w) ++ leBytes 8 (x - bits x hi lo * 2 ^ lo + v % 2 ^ (hi + 1 - lo) * 2 ^ lo) ++ r.drop (8 * w + 8)

namespace Rec
def blockId (r : List Byte) : Nat := recField r 0 63 24
def version (r : List Byte) : Nat := recField r 0 23 8
def sel (r : List Byte) : Nat := recField r 0 7 7
def rsel (r : List Byte) : Nat := recField r 0 6 6
def valid (r : List Byte) : Bool := recField r 0 5 5 == 1
def resident (r : List Byte) : Bool := recField r 0 4 4 == 1
def frozen (r : List Byte) : Bool := recField r 0 2 2 == 1
def federation (r : List Byte) : Bool := recField r 0 1 1 == 1
def pins (r : List Byte) : Nat := recField r 1 63 56
def owner (r : List Byte) : Nat := recField r 1 47 36
def mclass (r : List Byte) : Nat := recField r 1 35 34
def moff (r : List Byte) : Nat := recField r 1 33 7
def lastSent (r : List Byte) : Nat := recField r 2 63 32
def lastAck (r : List Byte) : Nat := recField r 2 31 0
def rclass (r : List Byte) : Nat := recField r 3 63 62
def roff (r : List Byte) : Nat := recField r 3 61 35
def layer (r : List Byte) : Nat := recField r 3 34 16
def check (r : List Byte) : Nat := recField r 3 15 0
/-- Address of the state frame; of master slot, moment slot, anchor (Table 11.4). -/
def frame (r : List Byte) : Nat := gta (mclass r) (moff r * 1024)
def master (r : List Byte) (slot : Nat) : Nat := frame r + 16384 * slot
def moments (r : List Byte) (slot : Nat) : Nat := frame r + 32768 + 8448 * slot
def anchor (r : List Byte) : Nat := frame r + 49664
/-- Address of a residue slot (R274). -/
def residue (r : List Byte) (slot : Nat) : Nat := gta (rclass r) (roff r * 1024 + 8192 * slot)
end Rec

/-- Number of Ledger records. -/
def ledgerSize : Nat := 1048576

/-- Bytes of record `i`. -/
def State.record (s : State) (i : Nat) : List Byte := s.mem.read (ledgerAddr i) 32

/-- A record whose CHECK fails, or that is stored poisoned (DEDUCED, log 13). -/
def State.recBad (s : State) (i : Nat) : Bool :=
  !(s.mem.marked (ledgerAddr i) 32).all (fun cw => decide (s.decodeCw cw = .clean)) || Rec.check (s.record i) != recCheck i (s.record i)

/-- Store a record with its CHECK. -/
def State.putRec (s : State) (i : Nat) (r : List Byte) : State :=
  s.writeMem (ledgerAddr i) (setField r 3 15 0 (recCheck i r)) 0

/-- One indivisible operation on a record: CHECK is verified first (R271, R272). The answer says whether it was
performed. -/
def State.ledgerOp (s : State) (i : Nat) (f : List Byte → List Byte) : Bool × State :=
  if s.recBad i then (false, { (s.inc32 Obj.CHECK_FAILS).raiseN Ev.LEDGER_CHECK i with poisonHere := true })
  else (true, s.putRec i (f (s.record i)))

/-- PIN and UNPIN (R297). -/
def State.pin (s : State) (i : Nat) : Bool × State := s.ledgerOp i (fun r => setField r 1 63 56 (Rec.pins r + 1))
def State.unpin (s : State) (i : Nat) : Bool × State := s.ledgerOp i (fun r => setField r 1 63 56 (Rec.pins r - 1))
/-- DEFER. -/
def State.defer (s : State) (i : Nat) : State :=
  let o := s.ledgerOp i (fun r => setField r 0 0 0 1)
  if o.1 then o.2.inc32 Obj.DEFERRALS else o.2
/-- FLIP: VERSION + 1, SEL inverted, DEFER := 0 (DEDUCED, log 62). -/
def State.flip (s : State) (i : Nat) : Bool × State :=
  s.ledgerOp i (fun r => setField (setField (setField r 0 23 8 (Rec.version r + 1)) 0 7 7 (1 - Rec.sel r)) 0 0 0 0)
/-- RFLIP: RSEL inverted, on a FEDERATION record only (R274). -/
def State.rflip (s : State) (i : Nat) : State :=
  if Rec.federation (s.record i) then (s.ledgerOp i (fun r => setField r 0 6 6 (1 - Rec.rsel r))).2 else s
/-- SENT, ACKED. -/
def State.setSent (s : State) (i round : Nat) : State := (s.ledgerOp i (fun r => setField r 2 63 32 round)).2
def State.setAcked (s : State) (i round : Nat) : State := (s.ledgerOp i (fun r => setField r 2 31 0 round)).2
/-- MOVE: OWNER, RESIDENT, EPOCH, MCLASS, MOFF, RCLASS, ROFF. -/
def State.moveRec (s : State) (i owner : Nat) (res : Bool) (epoch mcls moff rcls roff : Nat) : State :=
  (s.ledgerOp i (fun r =>
    setField (setField (setField (setField (setField (setField (setField r 1 47 36 owner) 0 4 4 (if res then 1 else 0))
      1 55 48 epoch) 1 35 34 mcls) 1 33 7 moff) 3 63 62 rcls) 3 61 35 roff)).2

/-- Records listed in memory: numbers of the records with a byte that is not zero. -/
def State.recsUsed (s : State) : List Nat :=
  ((s.mem.bytes.filter (fun p => clsOf p.1 == 9)).map (fun p => p.1 % 2 ^ 47 / 32)).eraseDups

/-- Records with VALID set (RECORDS_VALID); the sum of PINS (PIN_TOTAL). Both are open while a Gauge run has left the records open. -/
def State.recordsValid (s : State) : Nat :=
  if s.mem.ledGen = 0 then (s.recsUsed.filter (fun i => Rec.valid (s.record i))).length else s.free % (ledgerSize + 1)
def State.pinTotal (s : State) : Nat :=
  if s.mem.ledGen = 0 then s.recsUsed.foldl (fun n i => n + Rec.pins (s.record i)) 0 else s.free % (255 * ledgerSize + 1)

/-- The Ledger as after reset and UNLOAD: every record zero (R270). -/
def State.clearLedger (s : State) : State :=
  { s with mem := { s.mem with
      bytes := Sparse.drop (fun a => clsOf a == 9) s.mem.bytes
      ledGen := 0
      poison := s.mem.poison.filter (fun a => clsOf a != 9)
      symErr := Sparse.drop (fun a => clsOf a == 9) s.mem.symErr } }

/-- The image's layers; the records of a layer; those the Blocking Unit works on. -/
def State.layers (s : State) : List Layer := match s.job.image with | some im => im.layers | none => []
def Layer.recs (l : Layer) : List Nat := rangeFrom l.first l.blocks

end Sys2Proof.Machine
end

