-- ==== Sys2Proof/Machine/Jersey.lean ====
section
/-! DEFINITION. The shape of the jersey and of the slice: chip numbers, logical coordinates, ports and routes (R179, R223,
R224, R227, R228, R242), and how management messages leave (R236, R237). -/

namespace Sys2Proof.Machine

/-! ### Coordinates -/

/-- This device's chip number. -/
def State.chip (s : State) : Nat := s.obj Obj.CHIP

/-- Nibble `i` of a position word. -/
def nib (v i : Nat) : Nat := v / 16 ^ i % 16

/-- A logical position from its three coordinates. -/
def posOf (x y z : Nat) : Nat := x + 16 * y + 256 * z

/-- Physical pair of logical axis `a`, and its reverse bit (Table 9.5). -/
def State.pairOf (s : State) (a : Nat) : Nat := bits (s.obj Obj.AXIS_MAP) (3 * a + 1) (3 * a)
def State.revOf (s : State) (a : Nat) : Bool := bit (s.obj Obj.AXIS_MAP) (3 * a + 2)

/-- Logical length of axis `a`. -/
def State.jlen (s : State) (a : Nat) : Nat := s.obj (Obj.JERSEY_X + a)
def State.jwrap (s : State) (a : Nat) : Bool := bit (s.obj Obj.JERSEY_WRAP) a

/-- Logical coordinate `a` of a chip number (R224). -/
def State.coordOf (s : State) (chip a : Nat) : Nat :=
  let v := nib chip (s.pairOf a)
  if s.revOf a then s.jlen a - 1 - v else v

/-- Logical position of a chip. -/
def State.posOfChip (s : State) (chip : Nat) : Nat := posOf (s.coordOf chip 0) (s.coordOf chip 1) (s.coordOf chip 2)

/-- Chip number at a logical position. -/
def State.chipAt (s : State) (pos : Nat) : Nat :=
  (List.range 3).foldl (fun c a =>
    let v := nib pos a
    c + (if s.revOf a then s.jlen a - 1 - v else v) * 16 ^ s.pairOf a) 0

/-- Physical port of a logical port code 1 to 6 (+X, −X, +Y, −Y, +Z, −Z; R224). -/
def State.physOf (s : State) (code : Nat) : Nat :=
  let a := (code - 1) / 2
  let minus := decide ((code - 1) % 2 = 1)
  2 * s.pairOf a + (if minus != s.revOf a then 1 else 0)

/-- Logical port code of a physical port. -/
def State.roleOf (s : State) (port : Nat) : Nat :=
  ((List.range 6).map (· + 1)).find? (fun c => s.physOf c == port) |>.getD 0

/-! ### Slice -/

/-- The definition in force (R231). -/
def State.sliceDef (s : State) : SliceDef where
  id := BitVec.ofNat 16 (s.obj Obj.SLICE_ID)
  origin := BitVec.ofNat 16 (s.obj Obj.ORIGIN)
  extentM1 := BitVec.ofNat 16 (s.obj Obj.EXTENT_M1)
  wrap := BitVec.ofNat 8 (s.obj Obj.WRAP)
  dimord := BitVec.ofNat 8 (s.obj Obj.DIMORD)

/-- Origin, extent and wrap bit of a definition on axis `a`. -/
def sOrg (d : SliceDef) (a : Nat) : Nat := nib d.origin.toNat a
def sExt (d : SliceDef) (a : Nat) : Nat := nib d.extentM1.toNat a + 1
def sWrap (d : SliceDef) (a : Nat) : Bool := bit d.wrap.toNat a

/-- Devices of the box. -/
def sliceSize (d : SliceDef) : Nat := sExt d 0 * sExt d 1 * sExt d 2

/-- Position of device index `i` (R179). -/
def posOfIndex (d : SliceDef) (i : Nat) : Nat :=
  posOf (sOrg d 0 + i % sExt d 0) (sOrg d 1 + i / sExt d 0 % sExt d 1) (sOrg d 2 + i / (sExt d 0 * sExt d 1))

/-- Device index of a position (R179). -/
def indexOfPos (d : SliceDef) (pos : Nat) : Nat :=
  (nib pos 0 - sOrg d 0) + sExt d 0 * ((nib pos 1 - sOrg d 1) + sExt d 1 * (nib pos 2 - sOrg d 2))

/-- The position lies in the box. -/
def inBox (d : SliceDef) (pos : Nat) : Bool :=
  (List.range 3).all (fun a => decide (sOrg d a ≤ nib pos a) && decide (nib pos a < sOrg d a + sExt d a))

/-- Chips of the slice in device-index order. -/
def State.membersOf (s : State) (d : SliceDef) : List Nat := (List.range (sliceSize d)).map (fun i => s.chipAt (posOfIndex d i))

/-- The coordinator: the member at device index 0 (R232). -/
def State.coordinator (s : State) (d : SliceDef) : Nat := s.chipAt (posOfIndex d 0)

def SLICE_NONE : Nat := 0
def SLICE_PROPOSED : Nat := 1
def SLICE_CREATED : Nat := 2
def SLICE_OPENING : Nat := 3
def SLICE_OPEN : Nat := 4

def State.sliceState (s : State) : Nat := s.obj Obj.SLICE_STATE
/-- Open mode. -/
def State.isOpen (s : State) : Bool := s.sliceState == SLICE_OPEN

/-- The chip is set in SLICE_MAP. -/
def State.inSlice (s : State) (chip : Nat) : Bool :=
  bit (nth (0 : Byte) (s.dom Obj.SLICE_MAP) (chip / 8)).toNat (chip % 8)

/-- Chip of a device index of the slice in force. -/
def State.chipOfIndex (s : State) (i : Nat) : Nat := s.chipAt (posOfIndex s.sliceDef i)

/-- This device's index. -/
def State.deviceIndex (s : State) : Nat := s.obj Obj.DEVICE_INDEX

/-! ### Routes (R227) -/

/-- Axes in the order of a DIMORD code (Table 7.17). -/
def dimOrder (code : Nat) : List Nat :=
  match code with
  | 0 => [0, 1, 2] | 1 => [0, 2, 1] | 2 => [1, 0, 2] | 3 => [1, 2, 0] | 4 => [2, 0, 1] | _ => [2, 1, 0]

/-- One step along an axis of length `len`: the port code's minus bit, and whether it is the wrap link. -/
def axisStep (a len : Nat) (wrap : Bool) (c d : Nat) : Nat × Bool :=
  let plus := if wrap then decide ((d + len - c) % len ≤ (c + len - d) % len) else decide (c < d)
  (2 * a + (if plus then 1 else 2), if plus then wrap && decide (c + 1 = len) else wrap && decide (c = 0))

/-- The output port code of R227 at position `me` for position `to`: 0 when there, and whether the link wraps. -/
def State.routeBy (s : State) (order : List Nat) (wrap : Nat → Bool) (me dst : Nat) : Nat × Bool :=
  match order.find? (fun a => nib me a != nib dst a) with
  | none => (0, false)
  | some a => axisStep a (s.jlen a) (wrap a) (nib me a) (nib dst a)

/-- Route within a slice definition. -/
def State.routeIn (s : State) (d : SliceDef) (me dst : Nat) : Nat × Bool :=
  s.routeBy (dimOrder d.dimord.toNat) (sWrap d) me dst

/-- Route over the jersey. -/
def State.routeJersey (s : State) (me dst : Nat) : Nat × Bool := s.routeBy [0, 1, 2] s.jwrap me dst

/-- Position one hop along a port code. -/
def State.hop (s : State) (pos code : Nat) : Nat :=
  let a := (code - 1) / 2
  let l := s.jlen a
  let c := nib pos a
  let c' := if (code - 1) % 2 = 0 then (if c + 1 < l then c + 1 else 0) else (if c = 0 then l - 1 else c - 1)
  pos - c * 16 ^ a + c' * 16 ^ a

/-- Hops of the route from a position to another in a slice, within `fuel`. -/
def State.hops (s : State) (d : SliceDef) (dst : Nat) : Nat → Nat → Nat
  | 0, _ => 0
  | f + 1, me =>
    let r := s.routeIn d me dst
    if r.1 = 0 then 0 else 1 + s.hops d dst f (s.hop me r.1)

/-- A unicast route entry (Table 9.7). -/
def unicastEntry (dest port : Nat) (wrapLink : Bool) : Nat :=
  2 ^ 63 + dest % 4096 * 2 ^ 49 + port * 2 ^ 46 + (if wrapLink then 2 ^ 45 else 0)

def routeDflt : Nat → Nat := fun _ => 0
def State.route (s : State) (i : Nat) : Nat := Sparse.get routeDflt s.torus.routes i

/-- Put words into free entries from entry `i` upward (DEDUCED, log 39). -/
def putRoutes : Sparse Nat → Nat → Nat → List Nat → Sparse Nat
  | r, _, _, [] => r
  | r, _, 0, _ => r
  | r, i, f + 1, w :: ws =>
    if bit (Sparse.get routeDflt r i) 63 then putRoutes r (i + 1) f (w :: ws)
    else putRoutes (Sparse.set routeDflt r i w) (i + 1) f ws

/-- Entries in use. -/
def State.routesUsed (s : State) : Nat := s.torus.routes.length

/-- Unicast entries of a slice at this device (R228), in device-index order. -/
def State.sliceEntries (s : State) (d : SliceDef) : List Nat :=
  (List.range (sliceSize d)).map (fun i =>
    let dst := posOfIndex d i
    let r := s.routeIn d (s.posOfChip s.chip) dst
    unicastEntry (s.chipAt dst) r.1 r.2)

/-- Output port code of the unicast entry for a chip, if there is a valid one. -/
def State.unicast (s : State) (dest : Nat) : Option Nat :=
  (s.torus.routes.find? (fun p => bits p.2 62 61 == 0 && bits p.2 60 49 == dest)).map (fun p => bits p.2 48 46)

/-! ### Trees (R242) -/

/-- Parent port code of this device toward a root position; 0 at the root. -/
def State.upPort (s : State) (d : SliceDef) (me root : Nat) : Nat := (s.routeIn d me root).1

/-- Port codes, in the order of R243, on which a child of `me` lies. -/
def State.childPorts (s : State) (d : SliceDef) (me root : Nat) : List Nat :=
  ((List.range 6).map (· + 1)).filter (fun c =>
    let a := (c - 1) / 2
    let edge := if (c - 1) % 2 = 0 then decide (nib me a + 1 = sOrg d a + sExt d a) else decide (nib me a = sOrg d a)
    let p := s.hop me c
    (!edge || sWrap d a) && inBox d p && p != me && decide (s.hop p (s.upPort d p root) = me) &&
      decide (s.upPort d p root ≠ 0) && decide (s.upPort d p root = (if c % 2 = 1 then c + 1 else c - 1)))

/-- Largest hop count from a descendant to `me` (Table 10.2). -/
def State.depthBelow (s : State) (d : SliceDef) (root : Nat) : Nat → Nat → Nat
  | 0, _ => 0
  | f + 1, me => (s.childPorts d me root).foldl (fun m c => max m (1 + s.depthBelow d root f (s.hop me c))) 0

/-- The tree entry for a root position at this device (Table 10.2). -/
def State.treeEntry (s : State) (d : SliceDef) (root : Nat) : Nat :=
  let me := s.posOfChip s.chip
  let cs := s.childPorts d me root
  2 ^ 63 + 2 ^ 61 + s.chipAt root % 4096 * 2 ^ 49 + s.upPort d me root * 2 ^ 46 +
    cs.foldl (fun v c => v + 2 ^ (39 + c)) 0 + min 7 (s.depthBelow d root 24 me) * 2 ^ 37

/-- UPPORT and the child port codes of the tree entry for a root chip, if there is one. -/
def State.tree (s : State) (rootChip : Nat) : Option (Nat × List Nat) :=
  (s.torus.routes.find? (fun p => bits p.2 62 61 == 1 && bits p.2 60 49 == rootChip)).map (fun p =>
    (bits p.2 48 46, ((List.range 6).map (· + 1)).filter (fun c => bit p.2 (39 + c))))

/-! ### Ports -/

def State.port (s : State) (p : Nat) : PortSt := Sparse.get (fun _ => PortSt.reset) s.torus.ports p
def State.setPort (s : State) (p : Nat) (x : PortSt) : State :=
  { s with torus := { s.torus with ports := Sparse.set (fun _ => PortSt.reset) s.torus.ports p x } }

/-- Physical ports that the slice uses: those facing other members, wrap links of wrapped axes included (R233). -/
def State.slicePorts (s : State) (d : SliceDef) : List Nat :=
  let me := s.posOfChip s.chip
  (((List.range 6).map (· + 1)).filter (fun c =>
    let a := (c - 1) / 2
    let edge := if (c - 1) % 2 = 0 then decide (nib me a + 1 = sOrg d a + sExt d a) else decide (nib me a = sOrg d a)
    if edge then sWrap d a && decide (1 < sExt d a) else true)).map s.physOf

/-- Every port that the slice uses is up. -/
def State.slicePortsUp (s : State) : Bool := (s.slicePorts s.sliceDef).all (fun p => (s.port p).st == 2)

/-! ### Sending -/

/-- Send a management message over the slice (kind 0), the jersey (2) or the proposal box (4). -/
def State.mgmt (s : State) (dest kind : Nat) (b : MgmtBody) : State := s.emit (.mgmt dest kind b)

/-- Send to every member but this one. -/
def State.mgmtAll (s : State) (d : SliceDef) (b : MgmtBody) : State :=
  ((s.membersOf d).filter (· != s.chip)).foldl (fun s m => s.mgmt m 0 b) s

/-- Flood over every port of the slice (R234) (DEDUCED, log 39). -/
def State.flood (s : State) (b : MgmtBody) : State :=
  (s.slicePorts s.sliceDef).foldl (fun s p => s.emit (.flood p b)) s

/-- A management message that the control processors act on leaves the receive queue (R236). -/
def takeMgmt (src ty : Nat) : List MgmtIn → List MgmtIn
  | [] => []
  | m :: ms => if m.src = src ∧ m.ty = ty then ms else m :: takeMgmt src ty ms

def State.takeMgmt (s : State) (src ty : Nat) : State :=
  { s with torus := { s.torus with mgmtQ := Sys2Proof.Machine.takeMgmt src ty s.torus.mgmtQ } }

/-- The norm-anchor device and this device's own answer to it. -/
def State.memberCount (s : State) : Nat := s.obj Obj.SLICE_SIZE

end Sys2Proof.Machine
end

