-- ==== Sys2Proof/Machine/Packet.lean ====
section
/-! DEFINITION. Torus packets: the header of Table 9.6, cutting a packet into flits, queueing it at an output port (R219,
R226, R227), and the collective header of Table 10.5. -/

namespace Sys2Proof.Machine

/-- Packet header, bytes 0 to 11 and the 20 bytes that the traffic's chapter lays out (Table 9.6). -/
structure PktHdr where
  dest : Nat
  src : Nat
  sliceId : Nat
  kind : Nat
  ty : Nat
  length : Nat
  master : Nat
  rest : List Byte
deriving DecidableEq, Repr

def PktHdr.bytes (h : PktHdr) : List Byte :=
  beBytes 2 h.dest ++ beBytes 2 h.src ++ beBytes 2 h.sliceId ++ beBytes 1 h.kind ++ beBytes 1 h.ty ++
    beBytes 2 h.length ++ beBytes 2 h.master ++ padTo 20 h.rest

def PktHdr.of (b : List Byte) : PktHdr where
  dest := beAt b 0 2 % 4096
  src := beAt b 2 2
  sliceId := beAt b 4 2
  kind := beAt b 6 1
  ty := beAt b 7 1
  length := beAt b 8 2
  master := beAt b 10 2
  rest := slice b 12 20

/-- Collective header bytes (Table 10.5). -/
def collBytes (h : CollHdr) : List Byte :=
  beBytes 2 h.entry.toNat ++ [h.stream, h.epoch] ++ beBytes 4 h.issue.toNat ++ beBytes 4 h.chunk.toNat ++
    [h.form, h.flags] ++ beBytes 2 h.poisonChip.toNat ++ [h.res, h.aflags] ++ zeros 2

def collOf (b : List Byte) : CollHdr where
  entry := BitVec.ofNat 16 (beAt b 0 2)
  stream := BitVec.ofNat 8 (beAt b 2 1)
  epoch := BitVec.ofNat 8 (beAt b 3 1)
  issue := BitVec.ofNat 32 (beAt b 4 4)
  chunk := BitVec.ofNat 32 (beAt b 8 4)
  form := BitVec.ofNat 8 (beAt b 12 1)
  flags := BitVec.ofNat 8 (beAt b 13 1)
  poisonChip := BitVec.ofNat 16 (beAt b 14 2)
  res := BitVec.ofNat 8 (beAt b 16 1)
  aflags := BitVec.ofNat 8 (beAt b 17 1)

/-- Cut a packet's bytes into flits of 256 payload bytes, the last padded with zeros (R217). `marks` numbers the poisoned
32-byte units of the data after the first flit (R257). -/
def flitsOf (vc cls : Nat) (bs : List Byte) (marks : List Nat) : List Flit :=
  let n := ceilDiv bs.length 256
  (List.range n).map (fun i =>
    { vc := vc
      cls := cls
      first := i == 0
      last := i + 1 == n
      payload := padTo 256 (slice bs (256 * i) 256)
      marks := if i = 0 then [] else (marks.filter (fun u => u / 8 == i - 1)).map (· % 8) })

/-- Queue flits at a physical port. -/
def State.queueFlits (s : State) (port : Nat) (fs : List Flit) : State :=
  let x := s.port port
  s.setPort port { x with outq := x.outq ++ fs }

/-- The link on a port code at this device is the axis's wrap link. -/
def State.wrapLink (s : State) (code : Nat) : Bool :=
  let a := (code - 1) / 2
  let c := nib (s.posOfChip s.chip) a
  if (code - 1) % 2 = 0 then decide (c + 1 = s.jlen a) else decide (c = 0)

/-- Send a packet by a port code: header in the first flit, data in those that follow. -/
def State.sendPacket (s : State) (code vc : Nat) (h : PktHdr) (data : List Byte) (marks : List Nat) : State :=
  let h := { h with length := 1 + ceilDiv data.length 256 }
  s.queueFlits (s.physOf code) (flitsOf vc (if s.wrapLink code then 1 else 0) (padTo 256 h.bytes ++ data) marks)

/-- Send a slice unicast to a chip by its unicast entry (R227, R228); without one nothing leaves. -/
def State.sendUnicast (s : State) (dest vc ty master : Nat) (rest data : List Byte) : State :=
  match s.unicast dest with
  | some code =>
    if code = 0 then s
    else s.sendPacket code vc ⟨dest, s.chip, s.obj Obj.SLICE_ID, 0, ty, 0, master, rest⟩ data []
  | none => s

/-- Packet types of Table 10.6. -/
def T_CHUNK : Nat := 0x40
def T_CREQ : Nat := 0x41
def T_CGNT : Nat := 0x42
def T_CACK : Nat := 0x43
def T_CNAK : Nat := 0x44
def T_RETRACT : Nat := 0x45
def T_CRED : Nat := 0x46
def T_RESOLVE : Nat := 0x47

end Sys2Proof.Machine
end

