-- ==== Sys2Proof/Machine/Collective.lean ====
section
/-! DEFINITION. Broadcast and reduce-to-one (10): plan entries and trees as this device sees them, chunk values, slots and
grants, the hop protocol, operand addition, fused checks, tags, epochs, and the end of collectives. -/

namespace Sys2Proof.Machine

/-! ### Plan entries at this device -/

namespace PlanEntry
def gate (p : PlanEntry) : Bool := bit p.flags 0
def fuse (p : PlanEntry) : Bool := bit p.flags 1
def system (p : PlanEntry) : Bool := bit p.flags 2
/-- The entry is one of the two system entries of R279. -/
def norm (p : PlanEntry) : Bool := decide (0xFFFE ≤ p.entry)
def isLocal (p : PlanEntry) : Bool := bit p.flags 3
/-- Widest element among SFMT, PFMT, OFMT (R247). -/
def wmax (p : PlanEntry) : Nat := max (fmtWidth p.sfmt) (max (fmtWidth p.pfmt) (fmtWidth p.ofmt))
/-- Elements of a whole chunk, chunks, elements of chunk `c` (R247). -/
def perChunk (p : PlanEntry) : Nat := p.chunkKib * 1024 / p.wmax
def nChunks (p : PlanEntry) : Nat := ceilDiv p.elems p.perChunk
def elemsIn (p : PlanEntry) (c : Nat) : Nat := min p.perChunk (p.elems - c * p.perChunk)
end PlanEntry

/-- The two system entries (R279). -/
def sysEntry (anchor e : Nat) : PlanEntry where
  entry := e
  kind := if e = 0xFFFE then 1 else 0
  flags := if e = 0xFFFE then 5 else 4
  stream := 0
  sfmt := 4
  pfmt := if e = 0xFFFE then 4 else 0
  ofmt := 4
  root := anchor
  issuer := 0
  chunkKib := 1
  icount := 1
  elems := 64
  src := 0
  dst := 0
  maskFirst := 0
  maskCount := 0

/-- A plan entry of the image in force, or a system entry. -/
def State.plan (s : State) (e : Nat) : Option PlanEntry :=
  match s.job.image with
  | none => none
  | some im =>
    if e = 0xFFFE ∨ e = 0xFFFF then some (sysEntry (s.obj Obj.NORM_ANCHOR) e)
    else im.plan.find? (fun p => p.entry == e)

/-- Mask record by which a device contributes a chunk (R243, R247). -/
def State.maskOf (s : State) (p : PlanEntry) (dev c : Nat) : Option MaskRec :=
  match s.job.image with
  | none => none
  | some im => ((im.masks.drop p.maskFirst).take p.maskCount).find? (fun m =>
      m.device == dev && decide (m.first ≤ c) && decide (c < m.first + m.chunks))

/-- The device has the chunk to send: no chunk without a mask record is sent where the entry has any (R241) (DEDUCED, log 68). -/
def State.supplies (s : State) (p : PlanEntry) (dev c : Nat) : Bool := p.maskCount == 0 || (s.maskOf p dev c).isSome

/-- The device contributes the chunk to a reduce. -/
def State.contributes (s : State) (p : PlanEntry) (dev c : Nat) : Bool := p.kind != 0 && s.supplies p dev c

/-- The tree path from position `me` to the root passes `target`. -/
def State.via (s : State) (d : SliceDef) (root target : Nat) : Nat → Nat → Bool
  | 0, _ => false
  | f + 1, me =>
    if me = target then true
    else
      let r := s.routeIn d me root
      if r.1 = 0 then false else s.via d root target f (s.hop me r.1)

/-- Position of this device; of the entry's root. -/
def State.myPos (s : State) : Nat := s.posOfChip s.chip
def State.rootPos (s : State) (p : PlanEntry) : Nat := posOfIndex s.sliceDef p.root

/-- UPPORT and children of this device in the entry's tree (R245). -/
def State.treeOf (s : State) (p : PlanEntry) : Nat × List Nat := (s.tree (s.chipOfIndex p.root)).getD (0, [])

/-- This device is the entry's root. -/
def State.isRoot (s : State) (p : PlanEntry) : Bool := p.root == s.deviceIndex

/-- The child on a port code sends chunk `c` of a reduce (R243): some device of its subtree contributes it. -/
def State.childSends (s : State) (p : PlanEntry) (c code : Nat) : Bool :=
  (List.range (sliceSize s.sliceDef)).any (fun i =>
    s.contributes p i c && s.via s.sliceDef (s.rootPos p) (s.hop s.myPos code) 48 (posOfIndex s.sliceDef i))

/-- Operands of a chunk at this node in the order of R243: 0 is the local contribution, else a child's port code. -/
def State.operands (s : State) (p : PlanEntry) (c : Nat) : List Nat :=
  (if s.contributes p s.deviceIndex c then [0] else []) ++ (s.treeOf p).2.filter (s.childSends p c)

/-- Some device contributes the chunk, or the root of a broadcast has it (DEDUCED, log 68). -/
def State.chunkExists (s : State) (p : PlanEntry) (c : Nat) : Bool :=
  if p.kind = 0 then s.supplies p p.root c else (List.range (sliceSize s.sliceDef)).any (fun i => s.contributes p i c)

/-! ### Issues and chunks -/

def chunkDflt : Nat → ChunkSt := fun _ => ChunkSt.fresh
def Issue.chunk (x : Issue) (c : Nat) : ChunkSt := Sparse.get chunkDflt x.chunks c
def Issue.setChunk (x : Issue) (c : Nat) (v : ChunkSt) : Issue := { x with chunks := Sparse.set chunkDflt x.chunks c v }

def State.issueOf (s : State) (e n : Nat) : Option Issue := s.coll.issues.find? (fun x => x.entry == e && x.num == n)

/-- Change an issue. -/
def State.modIssue (s : State) (e n : Nat) (f : Issue → Issue) : State :=
  { s with coll := { s.coll with
      issues := s.coll.issues.map (fun x => if x.entry = e ∧ x.num = n then f x else x) } }

/-- Change a chunk of an issue. -/
def State.modChunk (s : State) (e n c : Nat) (f : ChunkSt → ChunkSt) : State :=
  s.modIssue e n (fun x => x.setChunk c (f (x.chunk c)))

/-- Every issuing core of the entry has executed its CL at this device (R244, R253). -/
def Issue.started (x : Issue) (p : PlanEntry) : Bool := p.system || decide (p.icount ≤ x.xs.length)

/-- XS offset that a core gave. -/
def Issue.xsOf (x : Issue) (core : Nat) : Int := ((x.xs.find? (fun q => q.1 == core)).map Prod.snd).getD 0

/-! ### Chunk values (R247, R255, R257, R258) -/

/-- Data bytes of a chunk as sent, padded to 256. -/
def ChunkVal.bytes (v : ChunkVal) : List Byte :=
  let b := bytesOfElems (fmtWidth v.form) v.els
  padTo (roundUp b.length 256) b

/-- End-to-end residue (R258). -/
def resOf (bs : List Byte) : Nat := bs.foldl (fun a b => (a + b.toNat) % 255) 0

/-- 32-byte units that hold a poisoned element (R257). -/
def ChunkVal.marks (v : ChunkVal) : List Nat :=
  v.bad.foldl (fun m i => insNat (i * fmtWidth v.form / 32) m) []

/-- Elements of a form that lie in marked units. -/
def badOf (form n : Nat) (marks : List Nat) : List Nat :=
  (List.range n).filter (fun i => marks.contains (i * fmtWidth form / 32))

/-- A chunk wholly poisoned by this device (R259, R260, R264). -/
def State.poisonVal (s : State) (form n : Nat) : ChunkVal :=
  ⟨form, List.replicate n (poisonValue form), List.range n, true, s.chip, 0⟩

/-- The lower of two poison chips. -/
def minChip (a b : Nat) : Nat := min a b

/-- AFLAGS bits of FSTAT flags: NX, UF, OF, NV (Table 10.5). -/
def aflags (f : Flg) : Nat := f % 8 + (if bit f 4 then 8 else 0)

/-- Widen a chunk to binary32 (R255). -/
def ChunkVal.widen (v : ChunkVal) : ChunkVal :=
  let r := mapFlags (widenEl v.form) v.els
  { v with form := 4, els := r.1, afl := v.afl ||| aflags r.2 }

/-- Round or convert a chunk to a format with RNE and saturation (R86, R255). -/
def ChunkVal.convert (v : ChunkVal) (fmt : Nat) : ChunkVal :=
  if v.form = fmt then v
  else
    let w := v.widen
    let r := mapFlags (narrowEl fmt false .rne) w.els
    { w with form := fmt, els := r.1, afl := w.afl ||| aflags r.2 }

/-- Add two operands in binary32, RNE (R255). -/
def addVals (a b : ChunkVal) : ChunkVal :=
  let x := a.widen
  let y := b.widen
  let r := zipFlags (fadd b32 .rne) x.els y.els
  { form := 4
    els := r.1
    bad := y.bad.foldl (fun l i => insNat i l) x.bad
    poison := x.poison || y.poison
    chip := minChip x.chip y.chip
    afl := x.afl ||| y.afl ||| aflags r.2 }

/-- Read `n` elements of a form for a chunk as the Purl router; poisoned units are replaced, and for an entry of the job
the device's poison contribution is set (R257). -/
def State.readChunk (s : State) (form n : Nat) (a : Int) : ChunkVal × State :=
  let w := fmtWidth form
  let addr := a.toNat % 2 ^ 52
  let r := s.readMem addr (n * w) 0x0DA
  let xs := elemsOf w n r.1
  if r.2.1 = [] then (⟨form, xs, [], false, 0xFFFF, 0⟩, r.2.2)
  else
    let bad := (List.range n).filter (fun i => overlaps r.2.1 (addr + i * w / 32 * 32) (min 32 (n * w - i * w / 32 * 32)))
    (⟨form, (List.range n).map (fun i => if bad.contains i then poisonValue form else nth 0 xs i), bad, true, s.chip, 0⟩,
      { r.2.2 with poisonHere := true })

/-- Pairwise tree level where absent leaves pass their neighbour unchanged (R17, R244). -/
def pairLevel : List (Option ChunkVal) → List (Option ChunkVal)
  | a :: b :: r =>
    (match a, b with
     | some x, some y => some (addVals x y)
     | some x, none => some x
     | none, y => y) :: pairLevel r
  | l => l

def pairTree : Nat → List (Option ChunkVal) → Option ChunkVal
  | 0, l => l.head?.getD none
  | n + 1, l => if l.length ≤ 1 then l.head?.getD none else pairTree n (pairLevel l)

/-- Left operand plus right operand, either absent. -/
def addOpt : Option ChunkVal → Option ChunkVal → Option ChunkVal
  | some x, some y => some (addVals x y)
  | some x, none => some x
  | none, y => y

/-- Sum of a panel's 48 swatch sums (R19). -/
def panelSum (g : List (Option ChunkVal)) : Option ChunkVal :=
  let t := fun i => pairTree 4 ((g.drop (16 * i)).take 16)
  addOpt (addOpt (t 0) (t 1)) (t 2)

/-- The in-device sum of per-core regions (R17, R19, R20, R244). -/
def deviceSum (leaf : Nat → Option ChunkVal) : Option ChunkVal :=
  let sw := (List.range 192).map (fun w => pairTree 6 ((List.range 64).map (fun j => leaf (64 * w + j))))
  let p := fun i => panelSum ((sw.drop (48 * i)).take 48)
  addOpt (addOpt (p 0) (p 1)) (addOpt (p 2) (p 3))

/-- Replace the core field of a pocket-window address (R244). -/
def coreField (a core : Nat) : Nat := a / 2 ^ 32 * 2 ^ 32 + core * 2 ^ 18 + a % 2 ^ 18

/-- Source address of a chunk before XS, at this device (R247). -/
def State.srcAddr (s : State) (p : PlanEntry) (c : Nat) : Nat :=
  let w := fmtWidth p.sfmt
  match s.maskOf p s.deviceIndex c with
  | some m => m.src % 2 ^ 52 + (c - m.first) * p.perChunk * w
  | none => p.src % 2 ^ 52 + c * p.perChunk * w

/-- The local contribution, or a broadcast root's chunk, read from its source (R244, R251) (DEDUCED, log 62). -/
def State.localVal (s : State) (p : PlanEntry) (x : Issue) (c : Nat) : ChunkVal × State :=
  let n := p.elemsIn c
  if p.norm then
    let els := if p.entry = 0xFFFE then s.coll.norm else elemsOf 4 64 s.coll.verdict
    let pz := p.entry = 0xFFFE && s.coll.normPoison
    (⟨4, els, [], pz, if pz then s.chip else 0xFFFF, 0⟩, s)
  else if p.isLocal then
    let r := (List.range p.icount).foldl (fun (acc : Sparse ChunkVal × State) i =>
      let v := acc.2.readChunk p.sfmt n ((coreField (s.srcAddr p c) (p.issuer + i) : Int) + x.xsOf (p.issuer + i))
      (acc.1 ++ [(p.issuer + i, v.1)], v.2)) ([], s)
    let v := (deviceSum (fun k => (r.1.find? (fun q => q.1 == k)).map Prod.snd)).getD (s.poisonVal p.sfmt n)
    (if (s.operands p c).length ≤ 1 then v else v.convert p.pfmt, r.2)
  else s.readChunk p.sfmt n ((s.srcAddr p c : Int) + x.xsOf p.issuer)

/-- Write a chunk to the entry's destination (R247, R257). -/
def State.writeChunk (s : State) (p : PlanEntry) (x : Issue) (c : Nat) (v : ChunkVal) : State :=
  if p.norm then
    (if p.entry = 0xFFFE then { s with coll := { s.coll with normSum := some v } }
     else { s with coll := { s.coll with verdictIn := some v } })
  else
    let w := fmtWidth v.form
    let a := (((p.dst % 2 ^ 52 + c * p.perChunk * w : Nat) : Int) + x.xsOf p.issuer).toNat % 2 ^ 52
    let bs := bytesOfElems w v.els
    s.writePoison a bs (v.marks.flatMap (fun u => [32 * u, min (32 * u + 16) (bs.length - 1), min (32 * u + 31) (bs.length - 1)])) 0x0DA

/-! ### Slots (R252 to R254) -/

def slotDflt : Nat → SlotRec := fun _ => ⟨0, 0, 0, 0, 0, 0, 0⟩
def CollSt.slot (c : CollSt) (i : Nat) : SlotRec := Sparse.get slotDflt c.slots i
def State.setSlot (s : State) (i : Nat) (r : SlotRec) : State :=
  { s with coll := { s.coll with slots := Sparse.set slotDflt s.coll.slots i r } }
/-- Slots claimed. -/
def State.slotsClaimed (s : State) : Nat := s.coll.slots.length

/-- The slot of a chunk with a role. -/
def State.slotOf (s : State) (e n c : Nat) (ok : SlotRec → Bool) : Option Nat :=
  (s.coll.slots.find? (fun q => q.2.entry == e && q.2.issue == n && q.2.chunk == c && ok q.2)).map Prod.fst

def State.freeSlot (s : State) (i : Option Nat) : State :=
  match i with
  | some k => s.setSlot k (slotDflt 0)
  | none => s

/-- A free reserved slot of a stream; a free shared slot. -/
def State.freeReserved (s : State) (st : Nat) : Option Nat :=
  [2 * st, 2 * st + 1].find? (fun i => (s.coll.slot i).role == 0)
def State.freeShared (s : State) : Option Nat :=
  (rangeFrom 64 320).find? (fun i => (s.coll.slot i).role == 0)

/-- A waiting CREQ may be granted: this device's own part of the issue has been issued (R253). -/
def State.grantable (s : State) (q : Creq) : Bool :=
  match s.issueOf q.entry q.issue, s.plan q.entry with
  | some x, some p => x.started p
  | _, _ => false

/-- Place of an issue in issue order. -/
def State.issueRank (s : State) (e n : Nat) : Nat := s.coll.issues.findIdx (fun x => x.entry == e && x.num == n)

/-- Order (issue, chunk, operand) of two CREQs (R253). -/
def State.creqBefore (s : State) (a b : Creq) : Bool :=
  let x := s.issueRank a.entry a.issue
  let y := s.issueRank b.entry b.issue
  if x ≠ y then decide (x < y) else if a.chunk ≠ b.chunk then decide (a.chunk < b.chunk)
  else decide (s.roleOf a.port < s.roleOf b.port)

/-- The next grant: reserved slots first, then shared slots in order of arrival (R252, R253). -/
def State.nextGrant (s : State) : Option (Creq × Nat) :=
  let ready := s.coll.waiting.filter s.grantable
  let res := (List.range 32).findSome? (fun st =>
    match s.freeReserved st with
    | none => none
    | some i =>
      ((ready.filter (fun q => q.stream == st)).foldl (fun b q =>
        match b with
        | none => some q
        | some y => if s.creqBefore q y then some q else some y) none).map (fun q => (q, i)))
  match res with
  | some r => some r
  | none =>
    match ready.head?, s.freeShared with
    | some q, some i => some (q, i)
    | _, _ => none

/-! ### Sending on a hop (R250, R251) -/

/-- Virtual channel of a packet on a port code of the entry's tree: 1 toward the root, 2 away (R250). -/
def State.vcOf (s : State) (p : PlanEntry) (code : Nat) : Nat := if (s.treeOf p).1 = code then 1 else 2

/-- Send a collective packet to the neighbour on a port code. -/
def State.sendColl (s : State) (p : PlanEntry) (code ty : Nat) (h : CollHdr) (data : List Byte) (marks : List Nat) : State :=
  s.sendPacket code (s.vcOf p code)
    ⟨s.chipAt (s.hop s.myPos code), s.chip, s.obj Obj.SLICE_ID, 1, ty, 0, 0x0DA, collBytes h⟩ data marks

/-- Header that names a chunk. -/
def chunkHdr (p : PlanEntry) (epoch n c : Nat) : CollHdr where
  entry := BitVec.ofNat 16 p.entry
  stream := BitVec.ofNat 8 p.stream
  epoch := BitVec.ofNat 8 epoch
  issue := BitVec.ofNat 32 n
  chunk := BitVec.ofNat 32 c
  form := 0
  flags := 0
  poisonChip := 0xFFFF
  res := 0
  aflags := 0

/-- Header of a CHUNK that carries a value. -/
def valHdr (p : PlanEntry) (epoch n c : Nat) (v : ChunkVal) (resend redo : Bool) : CollHdr :=
  { chunkHdr p epoch n c with
    form := BitVec.ofNat 8 v.form
    flags := BitVec.ofNat 8 ((if v.poison then 1 else 0) + (if resend then 2 else 0) + (if redo then 4 else 0))
    poisonChip := BitVec.ofNat 16 v.chip
    res := BitVec.ofNat 8 (resOf v.bytes)
    aflags := BitVec.ofNat 8 v.afl }

/-- The fold of a chunk is complete at this node; it needs none at a leaf. -/
def State.foldDone (s : State) (p : PlanEntry) (ch : ChunkSt) (c : Nat) : Bool :=
  ch.acc.isSome && ch.used == (s.operands p c).length
/-- A contributor with no child operand, which sends from its source. -/
def State.isLeaf (s : State) (p : PlanEntry) (c : Nat) : Bool := s.operands p c == [0] && !s.isRoot p

/-- Hop state and readiness of a chunk on a port code, none when the chunk does not travel there. -/
def State.hopOf (s : State) (p : PlanEntry) (x : Issue) (c code : Nat) : Option (Nat × Bool) :=
  let t := s.treeOf p
  let ch := x.chunk c
  if code = t.1 then
    if p.kind = 0 ∨ s.operands p c = [] then none
    else some (ch.up, s.isLeaf p c || s.foldDone p ch c)
  else if t.2.contains code ∧ p.kind ≠ 1 ∧ s.chunkExists p c = true then
    some (Sparse.get (fun _ => 0) ch.down code,
      if s.isRoot p then p.kind == 0 || ch.done || (p.fuse && ch.val.isSome) else ch.val.isSome)
  else none

def ChunkSt.setHop (ch : ChunkSt) (up code v : Nat) : ChunkSt :=
  if code = up then { ch with up := v } else { ch with down := Sparse.set (fun _ => 0) ch.down code v }

/-- Send the CREQs that may go on one hop of a stream: in order, for consecutive ready chunks, at most four outstanding
(R251, R253). -/
def State.pumpHop (s : State) (st code : Nat) : State :=
  let cand := s.coll.issues.flatMap (fun x =>
    match s.plan x.entry with
    | some p => if p.stream = st ∧ !x.done ∧ x.started p then (List.range p.nChunks).map (fun c => (p, x, c)) else []
    | none => [])
  (cand.foldl (fun (acc : State × Nat × Bool) q =>
    if acc.2.2 then acc
    else
      match s.hopOf q.1 q.2.1 q.2.2 code with
      | none => acc
      | some (0, true) =>
        if 4 ≤ acc.2.1 then (acc.1, acc.2.1, true)
        else
          ((acc.1.modChunk q.2.1.entry q.2.1.num q.2.2 (fun ch => ch.setHop (s.treeOf q.1).1 code 1)).sendColl q.1 code
            T_CREQ (chunkHdr q.1 q.2.1.epoch q.2.1.num q.2.2) [] [], acc.2.1 + 1, false)
      | some (0, false) => (acc.1, acc.2.1, true)
      | some (1, _) => (acc.1, acc.2.1 + 1, false)
      | some _ => acc) (s, 0, false)).1

/-- Send every CREQ of a stream that may go. -/
def State.pump (s : State) (st : Nat) : State := [1, 2, 3, 4, 5, 6].foldl (fun s code => s.pumpHop st code) s

/-! ### Issues begin (R248, R253, R264, R297) -/

/-- PIN a record and keep its VERSION in the journal (R297). -/
def State.pinJournal (s : State) (plan issue i : Nat) : State :=
  let v := Rec.version (s.record i)
  let o := s.pin i
  if o.1 then { o.2 with upd := { o.2.upd with journal := o.2.upd.journal ++ [(plan, issue, i, v)] } } else o.2

/-- Pins that issue `n` of an entry takes at its root. -/
def State.takePins (s : State) (p : PlanEntry) (n : Nat) : State :=
  match s.job.image with
  | none => s
  | some im =>
    if p.kind = 0 ∧ s.isRoot p then
      ((List.range im.pinPlans.length).zip im.pinPlans).foldl (fun s q =>
        if q.2.gather = p.entry then
          (rangeFrom q.2.first q.2.count).foldl (fun s i => s.pinJournal q.1 n i) s
        else s) s
    else s

/-- UNPIN one journal entry; a VERSION that differs is a skew (R298). -/
def State.releasePin (s : State) (j : Nat × Nat × Nat × Nat) : State :=
  let v := Rec.version (s.record j.2.2.1)
  let o := s.unpin j.2.2.1
  if o.1 && v != j.2.2.2 then
    let t := (o.2.inc32 Obj.SKEWS).raiseN Ev.VERSION_SKEW j.2.2.1
    { t with upd := { t.upd with skews := t.upd.skews + 1 } }
  else o.2

/-- UNPIN the journal entries that a release event ends. -/
def State.releasePins (s : State) (ends : PinPlan → Nat → Bool) : State :=
  match s.job.image with
  | none => s
  | some im =>
    let hit := fun (j : Nat × Nat × Nat × Nat) =>
      match im.pinPlans[j.1]? with
      | some q => ends q j.2.1
      | none => false
    let t := (s.upd.journal.filter hit).foldl State.releasePin s
    { t with upd := { t.upd with journal := t.upd.journal.filter (fun j => !hit j) } }

/-- An issue begins at this device: it takes its number and EPOCH. -/
def State.newIssue (s : State) (e : Nat) (xs : List (Nat × Int)) (tags : List (Nat × Nat)) : State :=
  let n := Sparse.get (fun _ => 0) s.coll.next e
  { s with coll := { s.coll with
      next := Sparse.set (fun _ => 0) s.coll.next e (n + 1)
      issues := s.coll.issues ++ [⟨e, n, s.obj Obj.EPOCH, xs, tags, [], false⟩] } }

/-- A core executes its CL for an entry: its part joins the oldest issue that lacks it, or begins a new one (R244, R248). -/
def State.clIssue (s : State) (p : PlanEntry) (core : Nat) (xs : Int) (tag : Nat) : State :=
  let s1 :=
    match (if p.isLocal then s.coll.issues.find? (fun x => x.entry == p.entry && !(x.xs.any (fun q => q.1 == core))) else none) with
    | some x => s.modIssue x.entry x.num (fun y => { y with xs := y.xs ++ [(core, xs)], tags := y.tags ++ [(core, tag)] })
    | none => s.newIssue p.entry [(core, xs)] [(core, tag)]
  let s2 :=
    match (s1.coll.issues.reverse).find? (fun x => x.entry == p.entry && x.xs.any (fun q => q.1 == core)) with
    | some x => if x.started p then s1.takePins p x.num else s1
    | none => s1
  s2.pump p.stream

/-- The device issues an entry with SYSTEM set (R248, R281, R282, R322). -/
def State.sysIssue (s : State) (e : Nat) : State :=
  (s.newIssue e [] []).pump (match s.plan e with | some p => p.stream | none => 0)

/-! ### Faults -/

/-- LAST_FAULT (Table 10.10). -/
def State.lastFault (s : State) (p : PlanEntry) (kind n c other : Nat) : State :=
  s.setDom Obj.LAST_FAULT (leBytes 8 s.now ++ leBytes 2 p.entry ++ leBytes 1 p.stream ++ leBytes 1 kind ++ leBytes 4 n ++
    leBytes 4 c ++ leBytes 2 other ++ zeros 2)

/-- An uncorrected fault poisons a chunk (R259, R260). -/
def State.collFault (s : State) (p : PlanEntry) (kind n c other : Nat) : State :=
  { ((s.inc32 Obj.UNCORRECTED).lastFault p kind n c other).raiseN Ev.COLL_FAULT (p.entry + c * 2 ^ 16) with poisonHere := true }

/-- A packet of another epoch than its issue's (R264). -/
def State.epochMix (s : State) (p : PlanEntry) (n c other : Nat) : State :=
  { ((s.inc32 Obj.EPOCH_MIX).lastFault p 3 n c other).raiseN Ev.EPOCH_MIX (p.entry + c * 2 ^ 16) with poisonHere := true }

/-! ### Handlers of the packets (R250 to R253) -/

/-- Give a slot to a waiting CREQ and send CGNT (R252, R254). -/
def State.grant (s : State) (q : Creq) (i : Nat) : State :=
  match s.plan q.entry with
  | none => s
  | some p =>
    let code := s.roleOf q.port
    let s1 := { s with coll := { s.coll with waiting := s.coll.waiting.erase q } }
    (s1.setSlot i ⟨q.entry, q.stream, if (s.treeOf p).1 = code then 3 else 1, q.issue, q.chunk, q.epoch, q.port⟩).sendColl
      p code T_CGNT (chunkHdr p q.epoch q.issue q.chunk) [] []

/-- SLOT_GRANT: the next waiting CREQ by the fixed orders. -/
def State.grantNext (s : State) : State :=
  match s.nextGrant with
  | some (q, i) => s.grant q i
  | none => s

/-- CREQ: granted when its turn is now, else it waits. -/
def State.onCreq (s : State) (port : Nat) (h : CollHdr) : State :=
  match s.plan h.entry.toNat with
  | none => s
  | some p =>
    let q : Creq := ⟨port, h.entry.toNat, p.stream, h.epoch.toNat, h.issue.toNat, h.chunk.toNat⟩
    if s.coll.waiting.contains q || (s.coll.slots.any (fun r => r.2.port == port && r.2.entry == q.entry &&
        r.2.issue == q.issue && r.2.chunk == q.chunk && r.2.role != 2 && r.2.role != 4)) then s
    else
      let s1 := { s with coll := { s.coll with waiting := s.coll.waiting ++ [q] } }
      match s1.nextGrant with
      | some (r, i) => if r = q then s1.grant q i else s1
      | none => if (s.freeReserved p.stream).isNone && s.freeShared.isNone then s1.inc32 Obj.SLOT_WAITS else s1

/-- Value that a chunk's sender sends on a port code, read from the source where it holds no copy (R251). -/
def State.sendVal (s : State) (p : PlanEntry) (x : Issue) (c code : Nat) : Option (ChunkVal × State) :=
  let ch := x.chunk c
  if code = (s.treeOf p).1 then
    if s.isLeaf p c then some (s.localVal p x c) else ch.acc.map (fun v => (v, s))
  else if s.isRoot p && p.kind == 0 then some (s.localVal p x c)
  else ch.val.map (fun v => (v, s))

/-- Send a chunk on a hop. -/
def State.sendChunk (s : State) (p : PlanEntry) (x : Issue) (c code : Nat) (resend : Bool) : State :=
  match s.sendVal p x c code with
  | none => s
  | some (v, t) =>
    ((t.modChunk x.entry x.num c (fun ch => ch.setHop (s.treeOf p).1 code 2)).inc64 Obj.CHUNKS_OUT).sendColl p code T_CHUNK
      (valHdr p x.epoch x.num c v resend (code == (s.treeOf p).1 && (x.chunk c).redo)) v.bytes v.marks

/-- CGNT: the sender sends the chunk. -/
def State.onCgnt (s : State) (port : Nat) (h : CollHdr) : State :=
  match s.plan h.entry.toNat, s.issueOf h.entry.toNat h.issue.toNat with
  | some p, some x =>
    let code := s.roleOf port
    match s.hopOf p x h.chunk.toNat code with
    | some (1, _) => (s.sendChunk p x h.chunk.toNat code false).pump p.stream
    | _ => s
  | _, _ => s

/-- CNAK: the sender sends its copy again with RESEND. -/
def State.onCnak (s : State) (port : Nat) (h : CollHdr) : State :=
  match s.plan h.entry.toNat, s.issueOf h.entry.toNat h.issue.toNat with
  | some p, some x =>
    let code := s.roleOf port
    match s.hopOf p x h.chunk.toNat code with
    | some (2, _) => s.sendChunk p x h.chunk.toNat code true
    | _ => s
  | _, _ => s

/-- Every child has acknowledged the chunk. -/
def State.kidsAcked (s : State) (p : PlanEntry) (ch : ChunkSt) : Bool :=
  (s.treeOf p).2.all (fun k => Sparse.get (fun _ => 0) ch.down k == 3)

/-- CACK: the sender frees its copy (R251, R253). -/
def State.onCack (s : State) (port : Nat) (h : CollHdr) : State :=
  let e := h.entry.toNat
  let n := h.issue.toNat
  let c := h.chunk.toNat
  match s.plan e, s.issueOf e n with
  | some p, some x =>
    let code := s.roleOf port
    match s.hopOf p x c code with
    | some (2, _) =>
      let s1 := s.modChunk e n c (fun ch => ch.setHop (s.treeOf p).1 code 3)
      let ch := (x.chunk c).setHop (s.treeOf p).1 code 3
      let s2 :=
        if code = (s.treeOf p).1 then s1.freeSlot (s1.slotOf e n c (fun r => r.role == 2))
        else if ch.done && s.kidsAcked p ch then s1.freeSlot (s1.slotOf e n c (fun r => r.role == 3))
        else s1
      s2.pump p.stream
    | _ => s
  | _, _ => s

/-- A chunk that has passed its checks, or was filled, is taken into its slot: an operand of a reduce waits for its turn,
a broadcast copy is written to the destination (R251, R253). -/
def State.takeChunk (s : State) (p : PlanEntry) (x : Issue) (port c : Nat) (v : ChunkVal) : State :=
  let code := s.roleOf port
  let s1 := (s.inc64 Obj.CHUNKS_IN).sendColl p code T_CACK (chunkHdr p x.epoch x.num c) [] []
  if code = (s.treeOf p).1 then
    let s2 := (s1.writeChunk p x c v).modChunk x.entry x.num c (fun ch => { ch with val := some v, done := true })
    let s3 := if (s.treeOf p).2 = [] then s2.freeSlot (s2.slotOf x.entry x.num c (fun r => r.role == 3)) else s2
    s3.pump p.stream
  else s1.modChunk x.entry x.num c (fun ch => { ch with ops := Sparse.set (fun _ => none) ch.ops code (some v) })

/-- CHUNK: residue and epoch are checked, then CACK or CNAK is answered (R251, R258, R260, R264). -/
def State.onChunk (s : State) (port : Nat) (h : CollHdr) (data : List Byte) (marks : List Nat) : State :=
  let e := h.entry.toNat
  let n := h.issue.toNat
  let c := h.chunk.toNat
  match s.plan e, s.issueOf e n with
  | some p, some x =>
    match s.slotOf e n c (fun r => r.port == port && (r.role == 1 || r.role == 3)) with
    | none => s
    | some _ =>
      let code := s.roleOf port
      let ch := x.chunk c
      let got := if code = (s.treeOf p).1 then ch.val.isSome else (Sparse.get (fun _ => none) ch.ops code).isSome
      if got then s
      else
        let k := p.elemsIn c
        let form := h.form.toNat
        let other := s.chipAt (s.hop s.myPos code)
        if resOf data ≠ h.res.toNat ∨ data.length < k * fmtWidth form then
          let fails := Sparse.get (fun _ => 0) ch.fails code + 1
          let s1 := (s.inc32 Obj.RES_FAIL).modChunk e n c (fun ch => { ch with fails := Sparse.set (fun _ => 0) ch.fails code fails })
          if s.obj Obj.RESEND_LIMIT ≤ fails then
            (s1.collFault p 2 n c other).takeChunk p x port c (s.poisonVal form k)
          else s1.sendColl p code T_CNAK (chunkHdr p x.epoch n c) [] []
        else if h.epoch.toNat ≠ x.epoch then (s.epochMix p n c other).takeChunk p x port c (s.poisonVal form k)
        else
          s.takeChunk p x port c
            ⟨form, elemsOf (fmtWidth form) k data, badOf form k marks, bit h.flags.toNat 0, h.poisonChip.toNat,
              h.aflags.toNat⟩
  | _, _ => s

/-! ### Operand addition (R243, R259, R263) -/

/-- Every fold of the stream before this chunk is complete (R253). -/
def State.foldTurn (s : State) (p : PlanEntry) (e n c : Nat) : Bool :=
  (s.coll.issues.takeWhile (fun x => !(x.entry == e && x.num == n))).all (fun x =>
    match s.plan x.entry with
    | some q => q.stream != p.stream || q.kind == 0 || x.done ||
        (List.range q.nChunks).all (fun i => s.isLeaf q i || s.operands q i == [] || s.foldDone q (x.chunk i) i)
    | none => true) &&
  (match s.issueOf e n with
   | some x => (List.range c).all (fun i => s.isLeaf p i || s.operands p i == [] || s.foldDone p (x.chunk i) i)
   | none => false)

/-- The root's result: converted once to OFMT, written, its flags kept (R255, R261). -/
def State.rootResult (s : State) (p : PlanEntry) (x : Issue) (c : Nat) (v : ChunkVal) : State :=
  let r := v.convert p.ofmt
  let s1 := s.setObj Obj.ARITH_FLAGS (s.obj Obj.ARITH_FLAGS ||| r.afl % 16)
  match (x.chunk c).kept with
  | some k =>
    let same := k.els == r.els
    let anchor := s.chipOfIndex (s.obj Obj.NORM_ANCHOR)
    let h := { chunkHdr p x.epoch x.num c with flags := if same then 0 else 8 }
    let s2 := s1.modChunk x.entry x.num c (fun ch => { ch with val := some k, done := true, kept := none, redo := false })
    let s3 := (s2.freeSlot (s2.slotOf x.entry x.num c (fun r => r.role == 4)))
    let s4 := s3.freeSlot (s3.slotOf x.entry x.num c (fun r => r.role == 1 || r.role == 2))
    let s5 := if same then s4 else { s4 with poisonHere := true }
    if anchor = s.chip then
      { s5 with coll := { s5.coll with retracts := s5.coll.retracts.erase (s.chip, x.entry, x.num, c) } }
    else s5.sendUnicast anchor 1 T_RESOLVE 0x0DA (collBytes h) []
  | none =>
    let s2 := (s1.writeChunk p x c r).modChunk x.entry x.num c (fun ch => { ch with val := some r, done := true })
    if p.fuse then s2
    else s2.freeSlot (s2.slotOf x.entry x.num c (fun r => r.role == 1 || r.role == 2))

/-- A node adds the next operand of a chunk: `faults` of its adder checks fail (0 to 2) (R243, R259). -/
def State.addOperand (s : State) (e n c faults : Nat) : State :=
  match s.plan e, s.issueOf e n with
  | some p, some x =>
    let ch := x.chunk c
    let ops := s.operands p c
    if ¬ x.started p ∨ s.isLeaf p c ∨ p.nChunks ≤ c ∨ ops.length ≤ ch.used ∨ !s.foldTurn p e n c then s
    else
      let code := nth 0 ops ch.used
      let got : Option (ChunkVal × State) :=
        if code = 0 then some (s.localVal p x c)
        else (Sparse.get (fun _ => none) ch.ops code).map (fun v => (v, s))
      match got with
      | none => s
      | some (v, t) =>
        let sum := match ch.acc with
          | none => v
          | some a => addVals a v
        let t1 := if ch.acc.isSome then
            (if faults = 1 then t.inc32 Obj.ADD_REPEAT
             else if 2 ≤ faults then t.collFault p 1 n c 0xFFFF else t)
          else t
        let sum := if ch.acc.isSome && decide (2 ≤ faults) then
            { t.poisonVal 4 (p.elemsIn c) with afl := sum.afl, chip := min sum.chip s.chip } else sum
        let last := ch.used + 1 == ops.length
        let out := if last && !s.isRoot p && decide (1 < ops.length) then sum.convert p.pfmt else sum
        let t2 := t1.modChunk e n c (fun ch => { ch with acc := some out, used := ch.used + 1, ops := Sparse.set (fun _ => none) ch.ops code none })
        -- the first child operand's slot accumulates; any other operand's slot is free once it is added
        let firstKid := (ops.filter (· ≠ 0)).head?.getD 0
        let mine := t2.slotOf e n c (fun r => r.role == 1 && s.roleOf r.port == code)
        let t3 := if code = 0 ∨ code = firstKid then t2 else t2.freeSlot mine
        let t4 :=
          if last then
            match t3.slotOf e n c (fun r => r.role == 1 && s.roleOf r.port == firstKid) with
            | some i => t3.setSlot i { t3.coll.slot i with role := 2 }
            | none => t3
          else t3
        if !last then t4
        else if s.isRoot p then (t4.rootResult p x c out).pump p.stream
        else t4.pump p.stream
  | _, _ => s

/-- A late check fails at the root of a fused all-reduce (R263). -/
def State.fusedFail (s : State) (e n c : Nat) : State :=
  match s.plan e, s.issueOf e n with
  | some p, some x =>
    let ch := x.chunk c
    match s.slotOf e n c (fun r => r.role == 2) with
    | none => s
    | some i =>
      if p.fuse && p.kind == 2 && s.isRoot p && ch.done && ch.kept.isNone then
        let anchor := s.chipOfIndex (s.obj Obj.NORM_ANCHOR)
        let s1 := ((s.inc32 Obj.RETRACTS).lastFault p 4 n c 0xFFFF).raiseN Ev.COLL_RETRACT (e + c * 2 ^ 16)
        let s2 := s1.setSlot i { s1.coll.slot i with role := 4 }
        let s3 := s2.modChunk e n c (fun ch =>
          { ch with kept := ch.val, done := false, redo := true, acc := none, used := 0, ops := [], fails := [] })
        let s4 :=
          if anchor = s.chip then
            let t := if s3.coll.withheld then s3 else s3.inc32 Obj.RETRACT_HOLDS
            { t with coll := { t.coll with retracts := t.coll.retracts ++ [(s.chip, e, n, c)], withheld := true } }
          else s3.sendUnicast anchor 1 T_RETRACT 0x0DA (collBytes (chunkHdr p x.epoch n c)) []
        ((s.operands p c).filter (· ≠ 0)).foldl (fun s k => s.sendColl p k T_CRED (chunkHdr p x.epoch n c) [] []) s4
      else s
  | _, _ => s

/-- CRED from the parent: the chunk is contributed again (R263). -/
def State.onCred (s : State) (port : Nat) (h : CollHdr) : State :=
  let e := h.entry.toNat
  let n := h.issue.toNat
  let c := h.chunk.toNat
  match s.plan e, s.issueOf e n with
  | some p, some x =>
    if s.roleOf port = (s.treeOf p).1 ∧ s.operands p c ≠ [] then
      let s1 := s.modIssue e n (fun y => { y with done := false })
      let s2 := s1.modChunk e n c (fun ch =>
        { ch with redo := true, acc := none, used := 0, ops := [], up := 0, fails := [] })
      let s3 := ((s.operands p c).filter (· ≠ 0)).foldl (fun s k => s.sendColl p k T_CRED (chunkHdr p x.epoch n c) [] []) s2
      s3.pump p.stream
    else s
  | _, _ => s

/-- RETRACT at the norm-anchor device: the verdict is withheld (R263). -/
def State.onRetract (s : State) (src : Nat) (h : CollHdr) : State :=
  if s.obj Obj.NORM_ANCHOR = s.deviceIndex then
    let t := if s.coll.withheld then s else s.inc32 Obj.RETRACT_HOLDS
    { t with coll := { t.coll with
        retracts := t.coll.retracts ++ [(src, h.entry.toNat, h.issue.toNat, h.chunk.toNat)], withheld := true } }
  else s

/-- RESOLVE at the norm-anchor device closes its RETRACT (R263). -/
def State.onResolve (s : State) (src : Nat) (h : CollHdr) : State :=
  { s with coll := { s.coll with
      retracts := s.coll.retracts.erase (src, h.entry.toNat, h.issue.toNat, h.chunk.toNat) } }

/-! ### Completion, epochs, the end (R261, R262, R265, R267) -/

/-- Every role this device holds in the issue is done (Table 10.7). -/
def State.rolesDone (s : State) (p : PlanEntry) (x : Issue) : Bool :=
  x.started p && (List.range p.nChunks).all (fun c =>
    let ch := x.chunk c
    let reduce := p.kind == 0 ||
      (if s.isRoot p then s.operands p c == [] || (ch.done && ch.kept.isNone) else s.operands p c == [] || ch.up == 3)
    let bcast := p.kind == 1 || !s.chunkExists p c || ((s.isRoot p || ch.done) && s.kidsAcked p ch)
    reduce && bcast)

/-- The tag of an issue completes (R261). -/
def State.completeIssue (s : State) (e n : Nat) : State :=
  match s.plan e, s.issueOf e n with
  | some p, some x =>
    if x.done || !s.rolesDone p x then s
    else
      let s1 := s.modIssue e n (fun y => { y with done := true, tags := [] })
      let s2 := x.tags.foldl (fun s q => s.modCtx q.1 .job (fun y => { y with collTags := y.collTags.filter (· != q.2) })) s1
      let s3 := { s2 with coll := { s2.coll with
        streamDone := Sparse.set (fun _ => 0) s2.coll.streamDone p.stream (Sparse.get (fun _ => 0) s2.coll.streamDone p.stream + 1) } }
      let s4 := (List.range p.nChunks).foldl (fun s c => s.freeSlot (s.slotOf e n c (fun r => r.role == 2 && s.isRoot p))) s3
      if s.isRoot p then
        let s5 := (s4.inc32 Obj.ROOT_ISSUES)
        let s6 := { s5 with coll := { s5.coll with
          rootDone := Sparse.set (fun _ => 0) s5.coll.rootDone e (Sparse.get (fun _ => 0) s5.coll.rootDone e + 1) } }
        s6.releasePins (fun q m => q.kind == 0 && q.release == e && m == n)
      else s4
  | _, _ => s

/-- UNVERIFIED: chunks of GATE entries rooted here that are not verified, or are held under a RETRACT (R262). -/
def State.unverified (s : State) : Nat :=
  s.coll.issues.foldl (fun k x =>
    match s.plan x.entry with
    | some p =>
      if p.gate && !p.system && p.kind != 0 && s.isRoot p then
        k + ((List.range p.nChunks).filter (fun c => s.operands p c != [] && (!(x.chunk c).done || (x.chunk c).kept.isSome))).length
      else k
    | none => k) 0

/-- The old epoch has drained (R265). -/
def State.drained (s : State) : Bool :=
  s.coll.slots.isEmpty && s.coll.waiting.isEmpty && s.coll.issues.all (fun x => x.done || x.entry == 0xFFFE || x.entry == 0xFFFF) && s.unverified == 0

/-- Leaving open mode, or ABORT, ends every issue in flight (R267). -/
def State.endCollectives (s : State) : State :=
  let s1 := s.coll.issues.foldl (fun s x =>
    x.tags.foldl (fun s q => s.modCtx q.1 .job (fun y => { y with collTags := [] })) s) s
  { s1 with
    poisonHere := true
    coll := { s1.coll with issues := [], slots := [], waiting := [], retracts := [], withheld := false, normSum := none, verdictIn := none } }

/-- Issue numbers, tree routes, UNVERIFIED and EPOCH at LOAD and UNLOAD (R267). -/
def State.clearCollectives (s : State) : State :=
  { ((s.setObj Obj.EPOCH 0).setObj Obj.CHUNKS_IN 0).setObj Obj.CHUNKS_OUT 0 with
    coll := CollSt.reset
    torus := { s.torus with routes := s.torus.routes.filter (fun q => bits q.2 62 61 != 1) } }

/-! ### Commands -/

def execCreq (port : PortId) (h : CollHdr) (s : State) : Out := .next (if s.isOpen then s.onCreq port.val h else s)
def execSlotGrant (s : State) : Out := .next (if s.isOpen then s.grantNext else s)
def execCgnt (port : PortId) (h : CollHdr) (s : State) : Out := .next (if s.isOpen then s.onCgnt port.val h else s)
def execChunk (port : PortId) (h : CollHdr) (data : List Byte) (marks : List Nat) (s : State) : Out :=
  .next (if s.isOpen then s.onChunk port.val h data marks else s)
def execCack (port : PortId) (h : CollHdr) (s : State) : Out := .next (if s.isOpen then s.onCack port.val h else s)
def execCnak (port : PortId) (h : CollHdr) (s : State) : Out := .next (if s.isOpen then s.onCnak port.val h else s)
def execOperandAdd (entry : BitVec 16) (issue chunk : BitVec 32) (faults : Fin 3) (s : State) : Out :=
  .next (if s.isOpen then s.addOperand entry.toNat issue.toNat chunk.toNat faults.val else s)
def execFusedCheckFail (entry : BitVec 16) (issue chunk : BitVec 32) (s : State) : Out :=
  .next (if s.isOpen then s.fusedFail entry.toNat issue.toNat chunk.toNat else s)
def execRetract (src : ChipId) (h : CollHdr) (s : State) : Out := .next (if s.isOpen then s.onRetract src.toNat h else s)
def execCred (port : PortId) (h : CollHdr) (s : State) : Out := .next (if s.isOpen then s.onCred port.val h else s)
def execResolve (src : ChipId) (h : CollHdr) (s : State) : Out := .next (if s.isOpen then s.onResolve src.toNat h else s)
def execCollectiveTagComplete (entry : BitVec 16) (issue : BitVec 32) (s : State) : Out :=
  .next (s.completeIssue entry.toNat issue.toNat)

end Sys2Proof.Machine
end

