-- ==== Sys2Proof/Machine/Dma.lean ====
section
/-! DEFINITION. Requests at a target: rights, windows, refusals (R207 to R211); the swatch DMA engine: requests, replies,
completion records, descriptors (R203 to R206, R210, R230); the patrol scrubber (R202). -/

namespace Sys2Proof.Machine

/-! ### Windows and rights -/

/-- A DRAM window: class, kind (0 job, 1 loan, 2 reserved), borrower chip, first offset, first offset beyond. -/
structure Window where
  cls : Nat
  kind : Nat
  borrower : Nat
  base : Nat
  limit : Nat
deriving DecidableEq, Repr

/-- First offset of the reserved region, and the size of a stack (R191). -/
def reservedBase : Nat := 0x17E0000000
def stackSize : Nat := 0x1800000000

/-- Put a window in order of class and offset. -/
def insWindow (w : Window) : List Window → List Window
  | [] => [w]
  | x :: xs => if w.cls < x.cls ∨ (w.cls = x.cls ∧ w.base < x.base) then w :: x :: xs else x :: insWindow w xs

/-- Windows in force (R208, Table 8.13) (DEDUCED, log 67). -/
def State.windows (s : State) : List Window :=
  let res := (List.range 4).map (fun p => (⟨p, 2, 0xFFFF, reservedBase, stackSize⟩ : Window))
  match s.job.image with
  | none => res
  | some im =>
    let job := ((List.range 4).filter (fun p => 0 < nth 0 im.dram p)).map (fun p => (⟨p, 0, 0xFFFF, 0, nth 0 im.dram p⟩ : Window))
    let loans := (im.loans.filter (fun l => l.host == s.deviceIndex)).map
      (fun l => (⟨l.cls, 1, s.chipOfIndex l.borrower, l.base, l.base + l.length⟩ : Window))
    (job ++ loans ++ res).foldr insWindow []

/-- Kinds of master that Table 8.10 tells apart. -/
def isCp (m : Nat) : Bool := decide (m ≤ 3)
def isSwatch (m : Nat) : Bool := decide (0x010 ≤ m) && decide (m ≤ 0x0CF)
def isBu (m : Nat) : Bool := decide (0x0D0 ≤ m) && decide (m ≤ 0x0D3)

/-- The offsets of Table 8.3, for a range of `n` bytes. -/
def offsetOk (cls off n : Nat) : Bool :=
  let last := off + n - 1
  if cls < 4 then decide (last < stackSize)
  else if cls = 4 then decide (last < 2 ^ 32) && decide (off / 2 ^ 18 < 12288) && decide (last / 2 ^ 18 < 12288)
  else if cls = 8 then decide (last < 0x6000000)
  else if cls = 9 then decide (last < 0x2000000)
  else decide (last < 8)

def classOk (cls : Nat) : Bool := decide (cls < 5) || cls == 8 || cls == 9 || cls == 10

/-- Table 8.10, column by column; windows are judged after it. -/
def State.hasRight (s : State) (remote : Bool) (m cls : Nat) (write : Bool) : Bool :=
  if cls = 10 then !write
  else if remote then isSwatch m && decide (cls ≤ 4)
  else if isCp m then true
  else if isSwatch m then decide (cls ≤ 4) || (cls == 9 && !write)
  else if m = 0x0DA then decide (cls ≤ 4) || cls == 8
  else if isBu m then decide (cls < 4) || (cls == 8 && !write) || cls == 9
  else if m = 0x0D8 then decide (cls < 4) || cls == 9
  else if m = 0x0D9 then decide (cls < 4)
  else if m = 0x0DB then s.gauge.run.isSome
  else false

/-- A pocket range named by a plan entry of the image in force (note (c) of Table 8.10). -/
def State.planNames (s : State) (a n : Nat) : Bool :=
  match s.job.image with
  | none => false
  | some im =>
    im.plan.any (fun p =>
      let hit := fun (b w : Nat) => decide (b % 2 ^ 18 ≤ a % 2 ^ 18) && decide (a % 2 ^ 18 + n ≤ b % 2 ^ 18 + p.elems * w) && clsOf b == 4
      hit (p.src % 2 ^ 52) (fmtWidth p.sfmt) || hit (p.dst % 2 ^ 52) (fmtWidth p.ofmt))

/-- Some window grants the master the whole range (R208, notes of Table 8.10). `job` names the issuing context. -/
def State.granted (s : State) (remote : Bool) (src m : Nat) (job : Bool) (a n : Nat) : Bool :=
  let cls := clsOf a
  let off := a % 2 ^ 47
  if isCp m || m == 0x0DB then true
  else if cls < 4 then
    s.windows.any (fun w => w.cls == cls && decide (w.base ≤ off) && decide (off + n ≤ w.limit) &&
      (if w.kind = 0 then true
       else if w.kind = 1 then remote && isSwatch m && w.borrower == src
       else m == 0x0D8 || m == 0x0D9))
  else if cls = 4 then
    if m = 0x0DA then s.planNames a n
    else
      let y := (s.core (off / 2 ^ 18)).ctx (if job then .job else .filler)
      let b := off % 2 ^ 18
      decide (y.pocketBase * 64 ≤ b) && decide (b + n ≤ (y.pocketBase + y.pocketUnits) * 64)
  else true

/-- The checks of R209 in order: the reason of the first that fails. -/
def State.targetCheck (s : State) (src m : Nat) (job write : Bool) (a n : Nat) : Option Nat :=
  let remote := src != s.chip
  let cls := clsOf a
  let off := a % 2 ^ 47
  if remote && !s.inSlice src then some 4
  else if remote && !s.isOpen then some 5
  else if !classOk cls then some 1
  else if !offsetOk cls off n then some 2
  else if !s.hasRight remote m cls write then some 3
  else if !s.granted remote src m job a n then some 6
  else none

/-- A refusal at this target is counted, recorded and raised (R209, Table 8.11). -/
def State.refuseReq (s : State) (src m : Nat) (write : Bool) (a reason : Nat) : State :=
  let r := leBytes 8 s.now ++ leBytes 8 (s.chip * 2 ^ 52 + a % 2 ^ 52) ++ leBytes 2 src ++ leBytes 2 m ++
    leBytes 1 (if write then 1 else 0) ++ leBytes 1 reason ++ zeros 2
  ({ s.inc32 Obj.REFUSALS with mem := { (s.inc32 Obj.REFUSALS).mem with lastRefusal := r } }).raiseN
    Ev.ACCESS_REFUSED (src + m * 2 ^ 16 + reason * 2 ^ 32)

/-! ### Poison marks of 32-byte units (R197) -/

/-- 32-byte units of `n` bytes at `a` that a poisoned codeword touches. -/
def poisonUnits (ps : List Nat) (a n : Nat) : List Nat :=
  if ps = [] then [] else
  (List.range (ceilDiv n 32)).filter (fun u => overlaps ps (a + 32 * u) (min 32 (n - 32 * u)))

/-- Offsets that touch every codeword of marked units. -/
def unitOffsets (n : Nat) (us : List Nat) : List Nat :=
  us.flatMap (fun u => [32 * u, min (32 * u + 16) (n - 1), min (32 * u + 31) (n - 1)])

/-- The bytes of a target, the identity mirror included (Table 8.3). -/
def State.targetRead (s : State) (a n m : Nat) : List Byte × List Nat × State :=
  if clsOf a = 10 then ((leBytes 8 (s.obj Obj.ID_REV)).drop (a % 8) |>.take n, [], s)
  else
    let r := s.readMem a n m
    (r.1, poisonUnits r.2.1 a n, r.2.2)

/-- Symbols that an upset has put into error join those already there (R195). -/
def State.upset (s : State) (u : Upset) : State :=
  let cw := cwOf u.addr.toNat
  if s.mem.isPoison cw then s
  else
    { s with mem := s.mem.setSyms cw (u.symbols.foldl (fun l x => insNat x.val l) (s.mem.symsAt cw)) }

/-- Serve or refuse one request, and what is answered: STATUS, REASON, bytes, marks (R209). -/
def State.serve (s : State) (src m : Nat) (job write : Bool) (a n : Nat) (data : List Byte) (marks : List Nat) :
    (Nat × Nat × List Byte × List Nat) × State :=
  match s.targetCheck src m job write a n with
  | some reason => ((1, reason, [], []), s.refuseReq src m write a reason)
  | none =>
    if write then ((0, 0, [], []), s.writePoison a data (unitOffsets data.length marks) m)
    else
      let r := s.targetRead a n m
      ((0, 0, r.1, r.2.1), r.2.2)

/-! ### Transfers -/

def xferDflt : Nat → Xfer := fun _ =>
  ⟨0, 0, .job, 0, 0, false, false, false, 0, 0, 0, 0, 0, 0, false, 0, [], none, none, [], 0, 0⟩

def State.xfer (s : State) (i : Nat) : Option Xfer := (s.dma.xfers.find? (fun q => q.1 == i)).map Prod.snd

def State.setXfer (s : State) (i : Nat) (x : Xfer) : State :=
  { s with dma := { s.dma with xfers := Sparse.set xferDflt s.dma.xfers i x } }
def State.dropXfer (s : State) (i : Nat) : State :=
  { s with dma := { s.dma with
      xfers := Sparse.drop (fun k => k == i) s.dma.xfers
      flights := s.dma.flights.filter (fun f => f.xfer != i) } }

/-- Number of the transfer that holds a context's tag. -/
def State.xferOf (s : State) (core : Nat) (c : CtxId) (tag : Nat) : Option Nat :=
  (s.dma.xfers.find? (fun q => q.2.core == core && q.2.ctx == c && q.2.tag == tag)).map Prod.fst

/-- Descriptors of a swatch: free, queued, active (R205). -/
def State.descs (s : State) (sw : Nat) : Nat × Nat × Nat :=
  let l := s.dma.xfers.filter (fun q => q.2.swatch == sw)
  let a := (l.filter (fun q => q.2.active)).length
  (32 - l.length, l.length - a, a)

/-- Bytes of the transfer. -/
def Xfer.total (x : Xfer) : Nat := x.rowLen * x.rows

/-- Far-side address, pocket byte and length of the request that begins at byte `b` of the transfer (R203, R204). -/
def Xfer.reqAt (x : Xfer) (b : Nat) : Nat × Nat × Nat :=
  let r := b / x.rowLen
  let o := b % x.rowLen
  (x.gaddr + r * x.gstride + o, x.pbase + r * x.pstride * 64 + o, min 256 (x.rowLen - o))

/-- The swatch's master ID for a transfer. -/
def Xfer.master (x : Xfer) : Nat := 0x010 + x.swatch

/-- Note a fault; the first in issue order stands (R204). -/
def Xfer.withFault (x : Xfer) (b status reason addr : Nat) : Xfer :=
  match x.fault with
  | some (b0, _) => if b < b0 then { x with fault := some (b, status, reason, addr) } else x
  | none => { x with fault := some (b, status, reason, addr) }

/-- Note a poisoned byte; the first stands. -/
def Xfer.withPoison (x : Xfer) (b addr : Nat) (us : List Nat) : Xfer :=
  match us.head? with
  | none => x
  | some u =>
    let b' := b + 32 * u
    match x.poisonAt with
    | some (b0, _) => if b' < b0 then { x with poisonAt := some (b', addr + 32 * u) } else x
    | none => { x with poisonAt := some (b', addr + 32 * u) }

/-- Bytes that precede the first fault and have completed. -/
def Xfer.bytesDone (x : Xfer) : Nat :=
  let lim := match x.fault with
    | some (b, _) => b
    | none => x.total
  x.reqs.foldl (fun n r => if r.done ∧ r.at_ < lim then n + min r.len (lim - r.at_) else n) 0

/-- Completion record, words 4 and 5 (Table 8.7). -/
def completion (bytes status reason addr : Nat) : List Byte :=
  leBytes 8 (min bytes (2 ^ 32 - 1) * 2 ^ 32 + status * 2 ^ 24 + reason * 2 ^ 16 + 1) ++ leBytes 8 addr

/-- Destination bytes of a read from byte `b` of the transfer on are open (R165, R204). -/
def State.openDest (s : State) (x : Xfer) (b : Nat) : State :=
  let m := (List.range x.rows).foldl (fun (m : MemSt) r =>
    let a := pocketAddr x.core (x.pbase + r * x.pstride * 64)
    let o := b - r * x.rowLen
    m.put (a + o) ((List.range (x.rowLen - o)).map (fun j => Config.freeByte s.free (a + o + j)))) s.mem
  { s.spend with mem := m }

/-- End a transfer with a STATUS: the record is written, the descriptor returns and the tag ends, in one action (R204,
R205); a cord path's work ends so only when it is aborted, with a record that does not show DONE. STATUS other than 0 and 3 of a job transfer poisons the step (R200). -/
def State.endXfer (s : State) (i status reason addr : Nat) : State :=
  match s.xfer i with
  | none => s
  | some x =>
    let y := (s.core x.core).ctx x.ctx
    let s0 := match x.fault with
      | some (b, _) => if x.write ∨ status = 6 then s else s.openDest x b
      | none => s
    let s1 := s0.writeMem (pocketAddr x.core ((y.descBase + x.slot) * 64 + 32))
      (if x.cord then zeros 16 else completion x.bytesDone status reason addr) x.master
    let s2 := (s1.dropXfer i).modCtx x.core x.ctx (fun y => { y with xferTags := y.xferTags.filter (· != x.tag) })
    let s3 := if status ≠ 0 ∧ status ≠ 3 ∧ x.ctx = .job then { s2 with poisonHere := true } else s2
    if status = 1 ∨ status = 2 ∨ status = 4 ∨ status = 5 then
      s3.raiseN Ev.DMA_FAULT (x.swatch + status * 2 ^ 8 + reason * 2 ^ 16 + x.tag * 2 ^ 24)
    else s3

/-- A transfer whose requests are all answered ends (R204). -/
def State.checkXfer (s : State) (i : Nat) : State :=
  match s.xfer i with
  | none => s
  | some x =>
    let out := s.dma.flights.any (fun f => f.xfer == i)
    if out then s
    else
      match x.fault with
      | some (_, st, rs, a) => s.endXfer i st rs a
      | none =>
        if x.issued < x.total then s
        else
          match x.poisonAt with
          | some (_, a) => s.endXfer i 2 0 a
          | none => s.endXfer i 0 0 0

/-- A core read of the pocket by the engine, and a write into it, with marks. -/
def State.pocketRead (s : State) (x : Xfer) (b n : Nat) : List Byte × List Nat × State :=
  let a := pocketAddr x.core b
  let r := s.readMem a n x.master
  (r.1, poisonUnits r.2.1 a n, r.2.2)

/-- The answer to a request of a transfer is taken: bytes of a read are written with their marks. -/
def State.takeAnswer (s : State) (i b len status reason : Nat) (data : List Byte) (marks : List Nat) : State :=
  match s.xfer i with
  | none => s
  | some x =>
    let q := x.reqAt b
    if status ≠ 0 then
      (s.setXfer i { x.withFault b status reason q.1 with reqs := x.reqs.filter (fun r => r.at_ != b) }).checkXfer i
    else
      let s1 := if x.write then s else s.writePoison (pocketAddr x.core q.2.1) (padTo len data) (unitOffsets len marks) x.master
      let x1 := (if x.write then x else x.withPoison b q.1 marks)
      (s1.setXfer i { x1 with reqs := x1.reqs.map (fun r => if r.at_ = b then { r with done := true } else r) }).checkXfer i

/-- The engine issues the next request of a transfer (R204, R210). -/
def State.issueReq (s : State) (i : Nat) : State :=
  match s.xfer i with
  | none => s
  | some x =>
    if x.cord || x.fault.isSome || decide (x.total ≤ x.issued) then s
    else
      let b := x.issued
      let q := x.reqAt b
      let chip := q.1 / 2 ^ 52 % 4096
      let a := q.1 % 2 ^ 52
      let x1 := { x with active := true, issued := b + q.2.2 }
      let bad := if chip = s.chip then none else if !s.isOpen then some 5 else if !s.inSlice chip then some 4 else none
      match bad with
      | some reason =>
        ((s.inc32 Obj.SRC_REFUSALS).setXfer i (x1.withFault b 4 reason q.1)).checkXfer i
      | none =>
        let x2 := { x1 with reqs := x1.reqs ++ [(⟨s.dma.nextReq, b, q.2.2, false⟩ : DmaReq)] }
        let job := x.ctx == .job
        let src : List Byte × List Nat × State := if x.write then s.pocketRead x q.2.1 q.2.2 else ([], [], s)
        let s1 := { src.2.2 with dma := { src.2.2.dma with nextReq := src.2.2.dma.nextReq + 1 } }
        let x3 := if x.write then x2.withPoison b (s.chip * 2 ^ 52 + pocketAddr x.core q.2.1) src.2.1 else x2
        if chip = s.chip then
          let r := (s1.setXfer i x3).serve s.chip x.master job x.write a q.2.2 src.1 src.2.1
          r.2.takeAnswer i b q.2.2 r.1.1 r.1.2.1 r.1.2.2.1 r.1.2.2.2
        else if (s.unicast chip).isNone then
          ((s1.setXfer i { x3.withFault b 5 0 q.1 with reqs := x.reqs })).checkXfer i
        else
          { s1.setXfer i x3 with dma := { (s1.setXfer i x3).dma with
              flights := s1.dma.flights ++ [(⟨s.dma.nextReq, i, s.now⟩ : Flight)] } }.emit
            (.memReq chip s.dma.nextReq x.write q.1 x.master job q.2.2 src.1 src.2.1)

/-- A reply to a request in flight, or none of that number: discarded and counted (R230). -/
def State.onReply (s : State) (id status reason : Nat) (data : List Byte) (marks : List Nat) : State :=
  match s.dma.flights.find? (fun f => f.id == id) with
  | none => s.inc32 Obj.ROUTE_MISS
  | some f =>
    let s1 := { s with dma := { s.dma with flights := s.dma.flights.filter (fun g => g.id != id) } }
    match s.xfer f.xfer with
    | none => s1
    | some x =>
      match x.reqs.find? (fun r => r.id == id) with
      | none => s1
      | some r => s1.takeAnswer f.xfer r.at_ r.len status reason data marks

/-- Squash a run-ahead prefetch: its destination bytes are open (R165). -/
def State.squash (s : State) (i : Nat) : State :=
  match s.xfer i with
  | none => s
  | some x => (s.openDest x 0).endXfer i 3 0 0

/-- Abort every transfer of the job's contexts with STATUS 6 (R188, R205). -/
def State.abortXfers (s : State) : State := s.dma.xfers.foldl (fun s q => s.endXfer q.1 6 0 0) s

/-! ### Commands -/

/-- DMA_REQUEST_ISSUE: the next request of the transfer that holds the tag. -/
def execDmaRequestIssue (core : CoreId) (c : CtxId) (tag : Fin 32) (s : State) : Out :=
  match s.xferOf core.val c tag.val with
  | some i => .next (s.issueReq i)
  | none => .next s

/-- MEMORY_REQUEST at this device as the target, and its answer. -/
def execMemoryRequest (src : ChipId) (id : BitVec 32) (master : BitVec 12) (job write : Bool) (addr : BitVec 52)
    (len : Fin 257) (data : List Byte) (marks : List Nat) (upsets : List Upset) (s : State) : Out :=
  if len.val = 0 ∨ addr.toNat % 8 ≠ 0 ∨ len.val % 8 ≠ 0 ∨ (write ∧ data.length ≠ len.val) then .fault .illFormed
  else
    let s1 := upsets.foldl State.upset s
    let r := s1.serve src.toNat master.toNat job write addr.toNat len.val data marks
    .next (r.2.emit (.memRep src.toNat id.toNat r.1.1 r.1.2.1 r.1.2.2.1 r.1.2.2.2))

/-- DMA_REPLY: the reply or refusal of a request in flight. -/
def execDmaReply (id : BitVec 32) (refused : Bool) (reason : Byte) (data : List Byte) (marks : List Nat) (s : State) : Out :=
  .next (s.onReply id.toNat (if refused then 1 else 0) (if refused then reason.toNat else 0) data marks)

/-- REQUEST_TIMEOUT: a request in flight ends as target unreachable (DEDUCED, log 19). -/
def execRequestTimeout (id : BitVec 32) (s : State) : Out :=
  .next (if s.dma.flights.any (fun f => f.id == id.toNat) then s.onReply id.toNat 5 0 [] [] else s)

/-- SCRUB_CODEWORD: read, correct or poison one codeword (R202) (DEDUCED, log 14). -/
def State.scrub (s : State) (cw : Nat) : State :=
  let r := s.readCw cw 0x0FF 2 4
  let s1 := if s.decodeCw cw = .uncorrectable then
      { r.2 with mem := (r.2.mem.setPoison cw).setSyms cw [] } else r.2
  -- a patrol pass ends with the last codeword of its memories in address order (DEDUCED, log 14)
  if cw = gta 3 (stackSize - 32) then s1.inc32 Obj.DRAM_PASSES
  else if cw = gta 9 (0x2000000 - 16) then s1.inc32 Obj.SRAM_PASSES
  else s1

def execScrubCodeword (u : Upset) (s : State) : Out := .next ((s.upset u).scrub (cwOf u.addr.toNat))

end Sys2Proof.Machine
end

