-- ==== Sys2Proof/Machine/Stream.lean ====
section
/-! DEFINITION. The state delta stream: records, the coding of differences, the ring (R406 to R410). -/

namespace Sys2Proof.Machine

/-- The ring's first byte and its size (R410). -/
def ringBase : Nat := gta 0 reservedBase
def State.ringSize (s : State) : Nat := s.obj Obj.STREAM_RING * 2 ^ 20
/-- Ring bytes free. -/
def State.ringFree (s : State) : Nat := s.ringSize - (s.obj Obj.STREAM_OFFSET - s.obj Obj.STREAM_DURABLE)

/-- Write bytes into the ring at a stream offset. -/
def State.putRing (s : State) (off : Nat) (bs : List Byte) : State :=
  let o := off % s.ringSize
  let k := s.ringSize - o
  (s.writeMem (ringBase + o) (bs.take k) 0x0D8).writeMem ringBase (bs.drop k) 0x0D8

/-- Bytes of the stream from an offset that is still in the ring. -/
def State.ringBytes (s : State) (off n : Nat) : List Byte :=
  let o := off % s.ringSize
  let k := min n (s.ringSize - o)
  s.mem.read (ringBase + o) k ++ s.mem.read ringBase (n - k)

/-- Append what fits of the waiting records, in order; a record waits for space (R406, R410). -/
def State.drainBacklog : Nat → State → State
  | 0, s => s
  | f + 1, s =>
    match s.stream.backlog with
    | [] => s
    | r :: rs =>
      if r.length ≤ s.ringFree then
        let s1 := (s.putRing (s.obj Obj.STREAM_OFFSET) r)
        State.drainBacklog f { s1.setObj Obj.STREAM_OFFSET (s.obj Obj.STREAM_OFFSET + r.length) with
          stream := { s1.stream with backlog := rs } }
      else s

/-- Append a record while STREAM_MODE is 1 or 2. -/
def State.streamPush (s : State) (r : List Byte) : State :=
  if s.obj Obj.STREAM_MODE = 0 then s
  else
    let s1 := { s with stream := { s.stream with backlog := s.stream.backlog ++ [r] } }
    s1.drainBacklog s1.stream.backlog.length

/-- Record header (Table 16.1). -/
def State.streamHdr (s : State) (kind flags h body : Nat) : List Byte :=
  beBytes 1 kind ++ beBytes 1 flags ++ zeros 2 ++ beBytes 4 body ++ beBytes 8 (s.obj Obj.COMMITTED) ++
    beBytes 4 (s.obj Obj.HEAD_ROUND) ++ beBytes 2 h ++ zeros 2 ++ beBytes 8 s.now

def State.streamRecord (s : State) (kind flags h : Nat) (body : List Byte) : State :=
  s.streamPush (s.streamHdr kind flags h body.length ++ body)

/-! ### Coding (R408) -/

/-- Length of the run of zero words at the front. -/
def zeroRun : List Nat → Nat
  | 0 :: ws => 1 + zeroRun ws
  | _ => 0

/-- Words before the first pair of consecutive zero words. -/
def literalRun : List Nat → Nat
  | [] => 0
  | [_] => 1
  | a :: b :: ws => if a = 0 ∧ b = 0 then 0 else 1 + literalRun (b :: ws)

/-- Tokens of a part's difference words. -/
def codeWords : Nat → List Nat → List Byte
  | 0, _ => []
  | _ + 1, [] => []
  | f + 1, ws =>
    let z := zeroRun ws
    if 2 ≤ z ∨ (z = 1 ∧ ws.length = 1) then
      let n := min z 4096
      beBytes 2 (n - 1) ++ codeWords f (ws.drop n)
    else
      let n := min (literalRun ws) 4096
      beBytes 2 (0x8000 + (n - 1)) ++ (ws.take n).flatMap (beBytes 4) ++ codeWords f (ws.drop n)

/-- Coded part for the bytes before and after (R407). -/
def codePart (before after : List Byte) : List Byte :=
  let ws := (elemsOf 4 (after.length / 4) before).zip (elemsOf 4 (after.length / 4) after)
  codeWords (ws.length + 1) (ws.map (fun p => p.1 ^^^ p.2))

/-- A block record (R407): BLOCK_ID, PARTS, VERSION, the coded parts. -/
def blockRecord (blockId parts version : Nat) (coded : List Byte) : List Byte :=
  beBytes 5 blockId ++ beBytes 1 parts ++ zeros 2 ++ beBytes 2 version ++ zeros 2 ++ beBytes 4 coded.length ++ coded

/-- Largest block record of a step commit (R410). -/
def State.blockRecMax (s : State) : Nat := 16 + 16386 + (if s.obj Obj.STREAM_CONTENT = 1 then 8450 else 0)

/-- Block record of a block that has just flipped at a step commit: its other slot holds what was live before. -/
def State.commitRecord (s : State) (i : Nat) : List Byte :=
  let r := s.record i
  let new := Rec.sel r
  let old := 1 - new
  let full := s.obj Obj.STREAM_CONTENT = 1
  let m := codePart (s.mem.read (Rec.master r old) 16384) (s.mem.read (Rec.master r new) 16384)
  let q := if full then codePart (s.mem.read (Rec.moments r old) 8448) (s.mem.read (Rec.moments r new) 8448) else []
  blockRecord (Rec.blockId r) (if full then 3 else 1) (Rec.version r) (m ++ q)

end Sys2Proof.Machine
end

