-- ==== Sys2Proof/Machine/JobOps.lean ====
section
/-! DEFINITION. What ends a job's work: discarding shadows, returning its resources (R188, R267, R294, R295), and the step
interval's bookkeeping that several chapters share. -/

namespace Sys2Proof.Machine

/-- Enter a job state. -/
def State.setJob (s : State) (v : Nat) : State := s.setObj Obj.JOB_STATE v

/-- Discard every shadow of the step (R38, R292). Nothing live is touched. -/
def State.discardShadows (s : State) : State :=
  { s with upd := { s.upd with shadows := [], rerun := [], hpStep := none } }

/-- Return every pin the job holds (R188). -/
def State.returnPins (s : State) : State :=
  let s1 := s.upd.journal.foldl (fun s j => (s.unpin j.2.2.1).2) s
  { s1 with upd := { s1.upd with journal := [] } }

/-- A channel after the verdict: its rows may be packed again from pass 0 (R318). -/
def ChanRun.verdict (x : ChanRun) : ChanRun := ⟨if x.st = 4 then 1 else x.st, x.pass, x.packed, x.segs, 0, 0⟩
def State.feedVerdict (s : State) : State :=
  { s with feed := { s.feed with chans := s.feed.chans.map (fun q => (q.1, q.2.verdict)) } }

/-- Return every sequence-channel token; the step's samples are abandoned (R188, R318). -/
def State.returnTokens (s : State) : State :=
  { s.bump Obj.SAMPLES_DROPPED s.feed.taken 64 with
    feed := { s.feed with chans := s.feed.chans.map (fun q => (q.1, { ChanRun.fresh with st := 1 })), replay := false, taken := 0 } }

/-- A context's part in the step in progress ends: it waits at nothing and holds no tag. -/
def Ctx.drop (y : Ctx) : Ctx :=
  { y with wait := .none, released := false, loops := [], xferTags := [], collTags := [], reached := false, atStop := false }

/-- ABORT acts (R188): no instruction issues, collectives are cancelled, shadows are discarded, and pins, descriptors,
slots and tokens return (DESIGN CHOICE, log 36; DEDUCED, log 61). -/
def State.abortNow (s : State) : State :=
  let s1 := (((s.abortXfers).returnPins).endCollectives).discardShadows
  let s2 := s1.returnTokens
  let s3 := { s2 with
    cores := s2.cores.map (fun (q : Nat × CoreSt) =>
      let x := if q.2.lent then q.2.bedReset else q.2
      (q.1, { x with job := x.job.drop, filler := x.filler.drop, running := .job }))
    upd := { s2.upd with leaf := false, verdict := none, committed := [], stalled := [], lost := false, skews := 0 }
    job := { s2.job with starts := [], stopMark := false, stopAt := none, abortWaits := false } }
  (s3.setObj Obj.ABORTED 1).setJob JOB_STOPPED

/-- A commit has begun at this device and runs to its end (R294). -/
def State.committing (s : State) : Bool := s.upd.verdict.isSome

/-- Moves of a re-shard are in progress: steps 3 to 8 of Table 12.8 (R323). -/
def State.moving (s : State) : Bool := decide (3 ≤ s.resh.phase)

/-- A re-shard fails: a move has ended under R267, or the slice has failed (R323). Installed records are discarded, and EPOCH stays. -/
def State.reshFail (s : State) : State :=
  if s.moving then
    let s1 := s.resh.installed.foldl (fun s i => s.writeMem (ledgerAddr i) (zeros 32) 0) s
    { (s1.setObj Obj.RS_STATE 6).raiseN Ev.RESHARD_FAILED 0 with
      resh := ReshSt.reset
      coll := { s1.coll with advance := none } }
  else s

/-- ABORT on receipt: a commit or a re-shard in progress ends first; the commit's pins return at once (R294, R323). -/
def State.doAbort (s : State) : State :=
  let j := s.jobState
  if j = JOB_STARTING ∨ j = JOB_RUNNING ∨ j = JOB_STOPPING then
    (if s.committing || s.moving then { s.returnPins with job := { s.returnPins.job with abortWaits := true } } else s.abortNow)
  else s

/-- The member leaves open mode, or its opening ends (R234): `fault` names a failing chip. -/
def State.leaveNow (s : State) (fault : Option Nat) : State :=
  let s1 := (s.reshFail.setObj Obj.SLICE_STATE SLICE_CREATED).setObj Obj.OPEN 0
  let s2 := { s1.endCollectives.discardShadows with torus := { s1.torus with opening := false, ready := [], answered := false } }
  let s3 := match fault with
    | some c => s2.setObj Obj.FAULT_CHIP c
    | none => s2
  let d := s3.obj Obj.SLICE_REASON + s3.obj Obj.FAULT_CHIP % 4096 * 2 ^ 16
  let s4 := s3.raiseN Ev.SLICE_CLOSED d
  if fault.isSome then s4.raiseN Ev.SLICE_FAULT d else s4

/-- What waited for a commit or a re-shard to end acts now (R294, R323). -/
def State.afterCommit (s : State) : State :=
  let s1 := match s.job.closeWaits with
    | some c => { s with job := { s.job with closeWaits := none } }.leaveNow (if c = 0x1000 then none else some c)
    | none => s
  if s1.job.abortWaits then s1.abortNow else s1

/-- CLOSE and SLICE_FAULT act after a commit in progress; CLOSE after a re-shard too, while a SLICE_FAULT ends it (R294, R323). -/
def State.leaveOpen (s : State) (fault : Option Nat) : State :=
  if s.committing || (s.moving && fault.isNone) then
    (if s.job.closeWaits.isSome then s else { s with job := { s.job with closeWaits := some (fault.getD 0x1000) } })
  else if s.moving then { s.leaveNow fault with job := { (s.leaveNow fault).job with closeWaits := none } }.afterCommit
  else s.leaveNow fault

/-- Flood SLICE_FAULT with this device's chip and leave open mode (R234). -/
def State.faultSlice (s : State) (port : Nat) : State :=
  if s.sliceState = SLICE_OPEN ∨ s.sliceState = SLICE_OPENING then
    (s.flood (.sliceFault s.chip port)).leaveOpen (some s.chip)
  else s

/-- Job cores: those that hold a job program. -/
def State.jobCores (s : State) : List Nat := (s.cores.filter (fun q => q.2.job.present)).map Prod.fst

/-- Steps wait at this boundary: the step just committed ends a round and the new anchor has not taken effect yet (R40, R172), or the
member is forked or adopting state (R357, R412). -/
def State.roundDue (s : State) : Bool :=
  decide (4 ≤ s.obj Obj.FED_STATE) || (decide (s.obj Obj.FED_STATE = 3) && decide (s.fed.mark + s.obj Obj.H_NOW ≤ s.obj Obj.COMMITTED))

/-- The number of the attempt in progress: verdicts received, plus one (R282, R284). -/
def State.attempt (s : State) : Nat := s.obj Obj.ATTEMPTS + 1

end Sys2Proof.Machine
end

