-- ==== Sys2Proof/Machine/Cipher.lean ====
section
/-! DEFINITION. The cipher engine (R416 to R420, R422): key slots, initialisation vectors, wrapped keys, and the requests
of Table 16.6 with their suspension. -/

namespace Sys2Proof.Machine

/-! ### Key slots and initialisation vectors -/

/-- DEVICE_KEY and its key ID (Table 15.11). -/
def deviceKey : List Byte := C448.pub Config.identitySecret
def deviceKeyId : List Byte := keyIdOf deviceKey

def State.keySlot (s : State) (i : Nat) : CipherSlot := Sparse.get (fun _ => CipherSlot.empty) s.cipher.slots i
def State.setKeySlot (s : State) (i : Nat) (x : CipherSlot) : State :=
  { s with cipher := { s.cipher with slots := Sparse.set (fun _ => CipherSlot.empty) s.cipher.slots i x } }

/-- Raise IV_EPOCH by 1, unless it cannot rise (R417). -/
def State.raiseEpoch (s : State) : Option State :=
  if s.flash.ivEpoch < 2 ^ 32 - 1 then some { s with flash := { s.flash with ivEpoch := s.flash.ivEpoch + 1 } } else none

/-- PREFIX of an initialisation vector (R417). -/
def State.ivPrefix (s : State) : List Byte := (digest64 (deviceKeyId ++ beBytes 4 s.flash.ivEpoch)).take 8

/-- The IV of the next message under a slot, and the slot's counter advanced; none when the counter is exhausted and
IV_EPOCH cannot rise (R417, STATUS 5). -/
def State.nextIv (s : State) (i : Nat) : Option (List Byte × State) :=
  let x := s.keySlot i
  if x.counter < 2 ^ 32 then some (s.ivPrefix ++ beBytes 4 x.counter, s.setKeySlot i { x with counter := x.counter + 1 })
  else (s.raiseEpoch).map (fun t => (t.ivPrefix ++ beBytes 4 0, t.setKeySlot i { x with counter := 1 }))

/-- The slot holds a key with a use (bits of USES). -/
def State.slotAllows (s : State) (i use : Nat) : Bool := decide ((s.keySlot i).key ≠ []) && bit (s.keySlot i).uses use

/-- One whole message that the selvedge engine has encrypted: IV, ciphertext, tag. -/
def State.seal (s : State) (i use : Nat) (aad pt : List Byte) : Option ((List Byte × List Byte × List Byte) × State) :=
  if s.slotAllows i use then
    (s.nextIv i).map (fun q =>
      let c := Aes.gcm (s.keySlot i).key q.1 aad pt
      ((q.1, c.1, c.2), q.2))
  else none

/-- One whole message that the selvedge engine has decrypted; a tag mismatch counts in TAG_FAILS (R420). -/
def State.unseal (s : State) (i use : Nat) (iv aad ct tag : List Byte) : Option (List Byte) × State :=
  if s.slotAllows i use then
    match Aes.ungcm (s.keySlot i).key iv aad ct tag with
    | some pt => (some pt, s)
    | none => (none, s.inc32 Obj.TAG_FAILS)
  else (none, s)

/-! ### Wrapped keys (R416) -/

/-- A job-owner key with this key ID is enrolled. -/
def State.ownerEnrolled (s : State) (id : List Byte) : Bool :=
  s.flash.keys.any (fun q => q.2.role == 2 && keyIdOf q.2.key == id)

/-- Outcome of unwrapping a blob: the slot's new contents, or the STATUS of Table 16.6 that a requester sees. -/
def State.openBlob (s : State) (b : List Byte) (own : Option (List Byte)) : CipherSlot ⊕ Nat :=
  match s.flash.wrapGen with
  | none => .inr 6
  | some g =>
    let keyLen := beAt b 1 1
    let uses := beAt b 2 1
    let owner := slice b 4 8
    let eph := slice b 16 56
    let z := x448 (Config.wrapSecret g) eph
    let kek := shake256 (ascii "SGN4-WRAP" ++ z ++ eph ++ deviceKeyId) 32
    match Aes.ungcm kek (slice b 72 12) (b.take 84) (slice b 84 32) (slice b 116 16) with
    | none => .inr 1
    | some pt =>
      if b.length ≠ 132 ∨ beAt b 0 1 ≠ 1 ∨ (keyLen ≠ 16 ∧ keyLen ≠ 32) ∨ 8 ≤ uses ∨ !s.ownerEnrolled owner ∨
          (own.any (fun k => decide (k ≠ owner))) = true then .inr 6
      else .inl ⟨pt.take keyLen, uses, owner, 0⟩

/-- Install the key of a blob (R416, R417): STATUS 0, or why it failed. A failure counts in UNWRAP_FAILS. -/
def State.unwrapKey (s : State) (i : Nat) (b : List Byte) (own : Option (List Byte)) : Nat × State :=
  match s.openBlob b own with
  | .inr st => (st, s.inc32 Obj.UNWRAP_FAILS)
  | .inl x =>
    match s.raiseEpoch with
    | some t => (0, t.setKeySlot i x)
    | none => (5, s.inc32 Obj.UNWRAP_FAILS)

/-! ### Requests (R418 to R420) -/

/-- A request's answer: completion kept, EV_CIPHER_DONE raised. -/
def State.cipherDone (s : State) (chain status : Nat) (iv : List Byte) : State :=
  { s with cipher := { s.cipher with answers := ((status, iv) :: s.cipher.answers).take 256 } }.raiseN Ev.CIPHER_DONE
    (chain % 8 + status * 2 ^ 8)

/-- Context of a chain between parts. -/
def State.parkedOf (s : State) (chain : Nat) : Option CipherCtx := s.cipher.parked.find? (fun x => x.chain == chain)
def State.unpark (s : State) (chain : Nat) : State :=
  { s with cipher := { s.cipher with parked := s.cipher.parked.filter (fun x => x.chain != chain) } }

/-- Context frames free (R419). -/
def State.freeFrames (s : State) : Nat := 8 - s.cipher.parked.length - s.cipher.suspended.length

/-- The engine reads through R209 as master 0x0D9: the bytes, whether some are poisoned; none when refused. -/
def State.cipherRead (s : State) (a n : Nat) : Option (List Byte × Bool) × State :=
  if n = 0 then (some ([], false), s)
  else
    let r := s.serve s.chip 0x0D9 false false (a % 2 ^ 52) n [] []
    if r.1.1 = 0 then (some (r.1.2.2.1, decide (r.1.2.2.2 ≠ [])), r.2) else (none, r.2)

/-- The engine writes likewise: refused or not. -/
def State.cipherWrite (s : State) (a : Nat) (bs : List Byte) : Bool × State :=
  if bs = [] then (true, s)
  else
    let r := s.serve s.chip 0x0D9 false true (a % 2 ^ 52) bs.length bs []
    (r.1.1 == 0, r.2)

/-- Open bytes where a request has left its output undefined. -/
def State.openOut (s : State) (a n : Nat) : State :=
  (s.spend.cipherWrite a ((List.range n).map (Config.freeByte s.free))).2

/-- Write a decryption's plaintext to where its parts asked for it. -/
def writeOuts : List (Nat × Nat) → List Byte → State → Bool × State
  | [], _, s => (true, s)
  | (a, n) :: os, bs, s =>
    let w := s.cipherWrite a (bs.take n)
    if w.1 then writeOuts os (bs.drop n) w.2 else w

/-- Key stream output of the part of a text that begins at byte `o`. -/
def ctrPart (key iv text : List Byte) (o : Nat) : List Byte := (xorBytes text (Aes.stream key iv 2 text.length)).drop o

/-- A message that has begun goes on over `n` bytes at `src`: `last` ends it, and `stop` names the bytes done when an
urgent request waits (R419) (DEDUCED, log 55). -/
def State.cipherRun (s : State) (c : CipherCtx) (urgent last : Bool) (src dst n tagAddr : Nat) (stop : Option Nat) : State :=
  let key := (s.keySlot c.slot).key
  let cut := match stop with
    | some b =>
      let d := roundUp b 16
      if urgent || decide (n ≤ d + 4096) || s.freeFrames == 0 then none else some d
    | none => none
  let m := cut.getD n
  if c.decrypt && decide (65536 < c.text.length + n) then (s.unpark c.chain).cipherDone c.chain 6 []
  else
    match s.cipherRead src m with
    | (none, t) => (t.unpark c.chain).cipherDone c.chain 3 []
    | (some (bs, bad), t) =>
      let c1 := { c with text := c.text ++ bs, poisoned := c.poisoned || bad,
                         outs := if c.decrypt then c.outs ++ [(dst, m)] else c.outs }
      let w : Bool × State := if c.decrypt || c1.poisoned then (true, t) else t.cipherWrite dst (ctrPart key c.iv c1.text c.text.length)
      if !w.1 then (w.2.unpark c.chain).cipherDone c.chain 3 []
      else
        match cut with
        | some d =>
          { w.2 with cipher := { w.2.cipher with
              suspended := w.2.cipher.suspended ++ [(⟨src + d, dst + d, n - d, last, tagAddr, c1⟩ : CipherSusp)] } }.inc32 Obj.SUSPENSIONS
        | none =>
          let t1 := w.2.unpark c.chain
          if c1.poisoned then
            (if c.decrypt then c1.outs.foldl (fun s o => s.openOut o.1 o.2) t1 else t1.openOut dst m).cipherDone c.chain 4 c.iv
          else if !last then
            { t1 with cipher := { t1.cipher with parked := t1.cipher.parked ++ [c1] } }.cipherDone c.chain 0 c.iv
          else if c.decrypt then
            match t1.cipherRead tagAddr 16 with
            | (none, t2) => t2.cipherDone c.chain 3 []
            | (some (tag, bad2), t2) =>
              if bad2 then (c1.outs.foldl (fun s o => s.openOut o.1 o.2) t2).cipherDone c.chain 4 []
              else
                match Aes.ungcm key c.iv c.aad c1.text tag with
                | none => (t2.inc32 Obj.TAG_FAILS).cipherDone c.chain 1 []
                | some pt =>
                  let o := writeOuts c1.outs pt t2
                  o.2.cipherDone c.chain (if o.1 then 0 else 3) []
          else
            let g := Aes.gcm key c.iv c.aad c1.text
            let o := t1.cipherWrite tagAddr g.2
            o.2.cipherDone c.chain (if o.1 then 0 else 3) c.iv

/-- A request of Table 16.6 (DEDUCED, log 55). -/
def State.cipherReq (s : State) (decrypt : Bool) (q : CipherReq) (stop : Option Nat) : State :=
  let ch := q.chain.val
  let aadLen := min q.aadLen.toNat q.length.toNat
  if q.first then
    if !q.last && decide (7 ≤ (s.unpark ch).cipher.parked.length) then s.cipherDone ch 6 []
    else if !s.slotAllows q.slot.val q.use.val then s.cipherDone ch 2 []
    else
      match (if decrypt then some (beBytes 8 q.ivHi.toNat ++ beBytes 4 q.ivLo.toNat, s) else s.nextIv q.slot.val) with
      | none => s.cipherDone ch 5 []
      | some (iv, t) =>
        match t.cipherRead q.src.toNat aadLen with
        | (none, t1) => t1.cipherDone ch 3 []
        | (some (aad, bad), t1) =>
          (t1.unpark ch).cipherRun ⟨ch, q.slot.val, q.use.val, decrypt, iv, aad, [], [], bad⟩ q.urgent q.last
            (q.src.toNat + aadLen) q.dst.toNat (q.length.toNat - aadLen) q.tagAddr.toNat stop
  else
    match s.parkedOf ch with
    | none => s.cipherDone ch 6 []
    | some c =>
      if c.decrypt != decrypt then s.cipherDone ch 6 []
      else s.cipherRun c q.urgent q.last q.src.toNat q.dst.toNat q.length.toNat q.tagAddr.toNat stop

/-- A suspended message goes on from its saved context (R419). -/
def State.cipherResume (s : State) : State :=
  match s.cipher.suspended with
  | [] => s
  | x :: xs =>
    { s with cipher := { s.cipher with suspended := xs } }.cipherRun x.ctx false x.last x.src x.dst x.left x.tagAddr none

/-- Slots empty at reset and at every lifecycle transition (R416) (DEDUCED, log 51). -/
def State.clearKeySlots (s : State) : State := { s with cipher := { s.cipher with slots := [] } }

/-! ### Objects (R422) -/

/-- SLOTS (Table 16.8). -/
def State.slotsObj (s : State) : List Byte :=
  (List.range 64).flatMap (fun i =>
    let x := s.keySlot i
    leBytes 1 (x.key.length / 16) ++ leBytes 1 x.uses ++ zeros 2 ++ leBytes 4 x.counter ++
      (if x.key = [] then zeros 8 else (digest64 (ascii "KCV" ++ x.key)).take 8) ++ padTo 8 x.owner)

/-- QUEUE: the engine serves a request within the command that brings it, so none is queued between commands (DEDUCED, log 55). -/
def State.queueObj (s : State) : List Byte :=
  leBytes 2 256 ++ leBytes 2 0 ++ leBytes 1 s.freeFrames ++ leBytes 1 s.cipher.parked.length ++
    leBytes 1 s.cipher.suspended.length ++ zeros 1

/-- DEDUCED, log 51. -/
def State.wrapPub (s : State) : List Byte :=
  match s.flash.wrapGen with
  | some g => x448Pub (Config.wrapSecret g)
  | none => zeros 56

def State.wrapSig (s : State) : List Byte :=
  if s.flash.wrapGen.isNone || s.flash.identityGone then zeros 114
  else ed448Sign Config.identitySecret (ascii "SGN4-WRAP-PUB" ++ s.wrapPub)

/-- APPLY on 0x5100; `own` is the session's key ID for an OWN session. -/
def applyKeySlot (s : State) (slot : Nat) (own : Option (List Byte)) : Ans :=
  let i := s.cand slot Obj.KS_SLOT
  let busy := (bit (s.obj Obj.FED_FLAGS) 1 && decide (i = s.obj Obj.FXP_KEY_SLOT)) ||
    (decide (s.obj Obj.STREAM_MODE ≠ 0) && decide (i = s.obj Obj.STREAM_KEY_SLOT)) ||
    (s.snap.ident.isSome && decide (i = s.obj Obj.SNAP_KEY_SLOT))
  let fields := [Obj.KS_SLOT, Obj.KS_CLEAR, Obj.FXP_KEY_SLOT]
  let staged := ((s.session slot).stagedAt Obj.KS_SLOT).isSome || ((s.session slot).stagedAt Obj.KS_BLOB).isSome ||
    ((s.session slot).stagedAt Obj.KS_CLEAR).isSome
  let s1 := (s.take slot fields).takeB slot [Obj.KS_BLOB]
  if !staged then s1.ok
  else if busy then s.no St.WRONG_STATE 1
  else if s.cand slot Obj.KS_CLEAR = 1 then (s1.setKeySlot i CipherSlot.empty).ok
  else
    let r := s.unwrapKey i (s.candB slot Obj.KS_BLOB) own
    if r.1 = 0 then ((r.2.take slot fields).takeB slot [Obj.KS_BLOB]).ok else r.2.no St.INCONSISTENT 2

/-! ### Commands -/

def execEncrypt (q : CipherReq) (stop : Option (BitVec 32)) (s : State) : Out :=
  .next (if s.up then s.cipherReq false q (stop.map BitVec.toNat) else s)
def execDecrypt (q : CipherReq) (stop : Option (BitVec 32)) (s : State) : Out :=
  .next (if s.up then s.cipherReq true q (stop.map BitVec.toNat) else s)

/-- UNWRAP: the blob at SRC goes into a slot. -/
def execUnwrap (slot : Fin 64) (src : BitVec 64) (s : State) : Out :=
  .next (if s.up then
    match s.cipherRead src.toNat 132 with
    | (none, t) => t.cipherDone 0 3 []
    | (some (b, bad), t) =>
      if bad then t.cipherDone 0 4 []
      else
        let r := t.unwrapKey slot.val b none
        r.2.cipherDone 0 r.1 []
  else s)

def execCipherResume (s : State) : Out := .next (if s.up then s.cipherResume else s)

end Sys2Proof.Machine
end

