-- ==== Sys2Proof/Machine/Desc.lean ====
section
/-! DEFINITION. DMA descriptors and cord descriptors: the fields of their words 0 to 3 (R121, R203, Tables 5.10 and 8.6). -/

namespace Sys2Proof.Machine

/-- A DMA descriptor (Table 8.6). -/
structure DmaDesc where
  gaddr : Nat
  dir : Nat
  rowLen : Nat
  rows : Nat
  chipmode : Nat
  gstride : Nat
  punit : Nat
  pstride : Nat
deriving DecidableEq, Repr

def DmaDesc.of (ws : List Nat) : DmaDesc where
  gaddr := nth 0 ws 0
  dir := bits (nth 0 ws 1) 63 62
  rowLen := 8 * (bits (nth 0 ws 1) 61 47 + 1)
  rows := bits (nth 0 ws 1) 46 31 + 1
  chipmode := bits (nth 0 ws 1) 30 29
  gstride := bits (nth 0 ws 2) 63 24
  punit := bits (nth 0 ws 3) 63 52
  pstride := bits (nth 0 ws 3) 51 40

/-- First pocket byte of row `r` with index `x`; first far-side offset of row `r`, class and offset bits. -/
def DmaDesc.pocketAt (d : DmaDesc) (x : Int) (r : Nat) : Int := 64 * ((d.punit : Int) + x + (r * d.pstride : Nat))
def DmaDesc.farAt (d : DmaDesc) (r : Nat) : Nat := d.gaddr % 2 ^ 52 + r * d.gstride

/-- A cord descriptor (Table 5.10). -/
structure CordDesc where
  waddr : Nat
  rows : Nat
  rlen : Nat
  rstride : Nat
  wfmt : Nat
  xfmt : Nat
  v : Nat
  e : Int
  rm : Nat
  ofmt : Nat
  xoff : Nat
  yoff : Nat
deriving DecidableEq, Repr

def CordDesc.of (ws : List Nat) : CordDesc where
  waddr := nth 0 ws 0
  rows := bits (nth 0 ws 1) 63 40
  rlen := bits (nth 0 ws 1) 39 16
  rstride := bits (nth 0 ws 2) 63 32
  wfmt := bits (nth 0 ws 2) 31 28
  xfmt := bits (nth 0 ws 2) 27 24
  v := bits (nth 0 ws 2) 23 22 + 1
  e := signed 8 (bits (nth 0 ws 2) 21 14)
  rm := bits (nth 0 ws 2) 13 11
  ofmt := bits (nth 0 ws 2) 10 7
  xoff := bits (nth 0 ws 3) 63 46
  yoff := bits (nth 0 ws 3) 45 28

/-- The weight and vector formats form a mode of Table 5.1, or the vectors are binary32 (R119). -/
def cordModeOk (w x : Nat) : Bool :=
  x == 4 || (w == 0 && x ≤ 1) || ((w == 2 || w == 3) && (x == 2 || x == 3))

/-- Encodings of a cord descriptor (Tables 4.4 and 5.10). -/
def CordDesc.codesOk (d : CordDesc) : Bool :=
  decide (1 ≤ d.rows) && decide (1 ≤ d.rlen) && decide (d.rlen ≤ 262144) && (d.wfmt == 0 || d.wfmt == 2 || d.wfmt == 3) &&
    d.xfmt ≤ 4 && d.ofmt ≤ 4

/-- Bytes of the vectors and of the outputs. -/
def CordDesc.xBytes (d : CordDesc) : Nat := d.v * d.rlen * fmtWidth d.xfmt
def CordDesc.yBytes (d : CordDesc) : Nat := d.v * d.rows * fmtWidth d.ofmt

end Sys2Proof.Machine
end

