-- ==== Sys2Proof/Machine/Fxp.lean ====
section
/-! DEFINITION. The transport of the Fleler Exchange Protocol (R325 to R336, R364, R411, R420): the header, its checks,
fragmented transfers with parity, acknowledgement and resending. -/

namespace Sys2Proof.Machine

/-! ### The header (Table 13.1) -/

structure FxpHdr where
  magic : Nat
  version : Nat
  ty : Nat
  flags : Nat
  srcMember : Nat
  dstMember : Nat
  fedId : Nat
  srcChip : Nat
  dstChip : Nat
  round : Nat
  xfer : Nat
  frag : Nat
  frags : Nat
  length : Nat
  incarn : Nat
  crc : Nat
deriving DecidableEq, Repr

/-- Header bytes 0 to 35. -/
def FxpHdr.front (h : FxpHdr) : List Byte :=
  beBytes 2 h.magic ++ beBytes 1 h.version ++ beBytes 1 h.ty ++ beBytes 2 h.flags ++ beBytes 1 h.srcMember ++
    beBytes 1 h.dstMember ++ beBytes 4 h.fedId ++ beBytes 2 h.srcChip ++ beBytes 2 h.dstChip ++ beBytes 4 h.round ++
    beBytes 4 h.xfer ++ beBytes 4 h.frag ++ beBytes 4 h.frags ++ beBytes 2 h.length ++ beBytes 2 h.incarn

/-- CRC of a datagram: over bytes 0 to 35, four zero bytes, the payload. -/
def fxpCrc (front payload : List Byte) : Nat := crc32c (front ++ zeros 4 ++ payload)

def FxpHdr.datagram (h : FxpHdr) (payload : List Byte) : List Byte :=
  let f := { h with length := payload.length }.front
  f ++ beBytes 4 (fxpCrc f payload) ++ payload

def FxpHdr.of (b : List Byte) : FxpHdr where
  magic := beAt b 0 2
  version := beAt b 2 1
  ty := beAt b 3 1
  flags := beAt b 4 2
  srcMember := beAt b 6 1
  dstMember := beAt b 7 1
  fedId := beAt b 8 4
  srcChip := beAt b 12 2
  dstChip := beAt b 14 2
  round := beAt b 16 4
  xfer := beAt b 20 4
  frag := beAt b 24 4
  frags := beAt b 28 4
  length := beAt b 32 2
  incarn := beAt b 34 2
  crc := beAt b 36 4

/-- Types of Table 13.3 and of the chapters it names. -/
def fxpTypes : List Nat := [0x01, 0x02, 0x03, 0x04, 0x05, 0x06, 0x10, 0x11, 0x12, 0x13, 0x14, 0x20, 0x21, 0x22, 0x23, 0x30, 0x31,
  0x40, 0x41, 0x50, 0x51, 0x60, 0x61, 0x62, 0x63, 0x64, 0x68]

/-! ### Peers and ports (R336) -/

/-- An endpoint record: address (16), UDP port (2), VLAN (2), Ethernet port (1) (Table 12.9). -/
def endpointOf (b : List Byte) : Peer := ⟨0xFF, 0xFFFF, BitVec.ofNat 128 (beAt b 0 16), leAt b 16 2, some (leAt b 20 1)⟩

/-- An Ethernet port is up. -/
def State.ethUp (s : State) (e : Nat) : Bool := decide (2 ≤ s.obj (Obj.LINK_STATE + 256 * e))

/-- Ethernet port of a datagram to a peer. -/
def State.ethFor (s : State) (p : Peer) : Nat :=
  let e := match p.eth with
    | some x => x % 2
    | none => (s.chip + p.chip) % 2
  if s.ethUp e then e else 1 - e

/-- Number of a receiver in the transport's tables. -/
def Peer.key (p : Peer) : Nat := if p.chip = 0xFFFF then 2 ^ 24 + p.addr.toNat * 2 ^ 16 + p.port else p.member * 2 ^ 16 + p.chip

/-- The sender's own member field: MEMBER_ID while FED_STATE is not 0 (R364, R411). -/
def State.selfMember (s : State) : Nat := if s.obj Obj.FED_STATE = 0 then 0xFF else s.obj Obj.MEMBER_ID

/-- Feed messages; export messages; all others are the federation's. -/
def isFeedTy (ty : Nat) : Bool := ty == 0x50 || ty == 0x51
def isExportTy (ty : Nat) : Bool := decide (0x60 ≤ ty)
/-- Time probes and their replies; those of a data server carry no federation's identifier, as its feed messages do. -/
def isTimeTy (ty : Nat) : Bool := ty == 0x40 || ty == 0x41

/-- Next transfer number to a receiver (R328). -/
def State.takeXfer (s : State) (p : Peer) : Nat × State :=
  let n := Sparse.get (fun _ => 0) s.fxp.nextX p.key + 1
  (n, { s with fxp := { s.fxp with nextX := Sparse.set (fun _ => 0) s.fxp.nextX p.key n } })

/-- Header to a peer. -/
def State.fxpHdr (s : State) (p : Peer) (ty flags round xfer frag frags : Nat) : FxpHdr where
  magic := 0x4658
  version := 1
  ty := ty
  flags := flags
  srcMember := s.selfMember
  dstMember := p.member
  fedId := if isFeedTy ty || isTimeTy ty && p.chip == 0xFFFF then 0 else if isExportTy ty || p.chip == 0xFFFF && ty == 0x11 then s.obj Obj.EXPORT_ID else s.obj Obj.FED_ID
  srcChip := s.chip
  dstChip := p.chip
  round := round
  xfer := xfer
  frag := frag
  frags := frags
  length := 0
  incarn := if isFeedTy ty || isExportTy ty || isTimeTy ty && p.chip == 0xFFFF || p.chip == 0xFFFF && (ty == 0x11 || ty == 0x12) then 0 else s.fxp.incarn
  crc := 0

/-- Protection of a type (R330, R420): the key slot and the use, none when it travels in the clear (DEDUCED, log 56). -/
def State.protect (s : State) (ty : Nat) : Option (Nat × Nat) :=
  if isFeedTy ty || ty == 0x11 then none
  else if ty = 0x60 then (if s.obj Obj.STREAM_KEY_SLOT = 0xFF then none else some (s.obj Obj.STREAM_KEY_SLOT, 2))
  else if isExportTy ty then none
  else if bit (s.obj Obj.FED_FLAGS) 1 then some (s.obj Obj.FXP_KEY_SLOT, 0) else none

/-- Added bytes of a protected payload. -/
def State.protectLen (s : State) (ty : Nat) : Nat := if (s.protect ty).isSome then 28 else 0

/-- Protect a payload under its header (R420); without a usable key nothing can be sent. -/
def State.guardPayload (s : State) (h : FxpHdr) (payload : List Byte) : Option (FxpHdr × List Byte × State) :=
  match s.protect h.ty with
  | none => some (h, payload, s)
  | some (slot, use) =>
    let h1 := { h with flags := setBit h.flags 1, length := payload.length + 28 }
    (s.seal slot use h1.front payload).map (fun r => (h1, r.1.1 ++ r.1.2.1 ++ r.1.2.2, r.2))

/-- Hand a datagram to an Ethernet port. -/
def State.sendUdp (s : State) (p : Peer) (bytes : List Byte) : State :=
  s.emit (.udp (s.ethFor p) p.addr p.port (s.obj Obj.UDP_PORT) bytes)

/-- Send a single-datagram message with a transfer number. -/
def State.fxpPut (s : State) (p : Peer) (ty flags round xfer : Nat) (payload : List Byte) : State :=
  match s.guardPayload (s.fxpHdr p ty flags round xfer 0 1) payload with
  | some (h, b, t) => t.sendUdp p (h.datagram b)
  | none => s

/-- Send a single-datagram message: a transfer of one fragment. -/
def State.fxpSingle (s : State) (p : Peer) (ty flags round : Nat) (payload : List Byte) : State :=
  let x := s.takeXfer p
  x.2.fxpPut p ty flags round x.1 payload

/-! ### Sending fragments (R331 to R336) -/

/-- Units in the order they leave: 2 * fragment, then 2 * group + 1 after each group. -/
def TxXfer.units (x : TxXfer) : List Nat :=
  let n := x.frags.length
  (List.range (ceilDiv n 16)).flatMap (fun g =>
    ((List.range n).filter (fun f => f / 16 == g)).map (2 * ·) ++ (if x.par then [2 * g + 1] else []))

/-- XOR of a group's payloads, each padded to the longest (R332). -/
def groupXor (ps : List (List Byte)) : List Byte := ps.foldl xorBytes []

/-- Window free toward a peer device (R334). -/
def State.windowFree (s : State) (key : Nat) : Nat :=
  s.obj Obj.WINDOW - (s.fxp.tx.filter (fun x => x.peer.key == key)).foldl (fun n x => n + x.out.length) 0

/-- Put the datagram of a unit on the wire. -/
def State.putUnit (s : State) (x : TxXfer) (u flags : Nat) : State :=
  let n := x.frags.length
  if u % 2 = 0 then
    s.sendUdp x.peer ({ s.fxpHdr x.peer x.ty (x.flags + flags) x.round x.num (u / 2) n with
      fedId := x.fedId, incarn := x.incarn }.datagram (nth [] x.frags (u / 2)))
  else
    let g := u / 2
    s.sendUdp x.peer ({ s.fxpHdr x.peer 0x11 (x.flags % 2) x.round x.num g n with
      fedId := x.fedId, incarn := x.incarn }.datagram (beBytes 8 x.total ++ groupXor ((x.frags.drop (16 * g)).take 16)))

/-- Send units while the window is open, transfers in order (DEDUCED, log 56). -/
def State.fxpPump (key : Nat) : Nat → State → State
  | 0, s => s
  | f + 1, s =>
    if s.windowFree key = 0 then s
    else
      match s.fxp.tx.find? (fun x => x.peer.key == key && decide (x.next < x.units.length)) with
      | none => s
      | some x =>
        let u := nth 0 x.units x.next
        let t := (s.putUnit x u 0).inc64 Obj.FRAGS_SENT
        State.fxpPump key f { t with fxp := { t.fxp with
          tx := t.fxp.tx.map (fun y => if y.num = x.num ∧ y.peer = x.peer then
            { y with next := y.next + 1, out := y.out ++ [u] } else y) } }

/-- Fragments not yet sent to a peer. -/
def State.unsent (s : State) (key : Nat) : Nat :=
  (s.fxp.tx.filter (fun x => x.peer.key == key)).foldl (fun n x => n + (x.units.length - x.next)) 0

/-- Protect the fragments of a transfer in turn. -/
def State.guardFrags (s : State) (h : FxpHdr) : Nat → List (List Byte) → Option (List (List Byte) × State)
  | _, [] => some ([], s)
  | i, b :: bs =>
    match s.guardPayload { h with frag := i } b with
    | none => none
    | some (_, p, t) => (t.guardFrags h (i + 1) bs).map (fun r => (p :: r.1, r.2))

/-- Begin a fragmented transfer of a byte string (R331). Its number is the answer; 0 when no key is there to protect it. -/
def State.fxpSend (s : State) (p : Peer) (ty flags round : Nat) (data : List Byte) : Nat × State :=
  let cap := s.obj Obj.FRAG_PAYLOAD - s.protectLen ty
  let n := max 1 (ceilDiv data.length cap)
  let x := s.takeXfer p
  let h := x.2.fxpHdr p ty flags round x.1 0 n
  match x.2.guardFrags h 0 ((List.range n).map (fun i => slice data (i * cap) cap)) with
  | none => (0, x.2)
  | some (fs, t) =>
    let fl := if (s.protect ty).isSome then setBit flags 1 else flags
    let tx : TxXfer := ⟨p, ty, fl, round, x.1, h.fedId, h.incarn, fs, data.length, bit (s.obj Obj.FED_FLAGS) 0, 0, [], [], []⟩
    let t1 := { t with fxp := { t.fxp with tx := t.fxp.tx ++ [tx] } }
    (x.1, t1.fxpPump p.key (t1.unsent p.key))

/-- A transfer on its way to a receiver. -/
def State.txOf (s : State) (key num : Nat) : Option TxXfer := s.fxp.tx.find? (fun x => x.num == num && x.peer.key == key)

/-- The chip of a member's speaker becomes known: numbers and transfers under the unknown chip go over to it. -/
def State.learn (s : State) (old new : Peer) : State :=
  { s with fxp := { s.fxp with
      nextX := Sparse.set (fun _ => 0) s.fxp.nextX new.key
        (max (Sparse.get (fun _ => 0) s.fxp.nextX new.key) (Sparse.get (fun _ => 0) s.fxp.nextX old.key))
      tx := s.fxp.tx.map (fun x => if x.peer = old then { x with peer := new } else x) } }

def State.modTx (s : State) (x : TxXfer) (f : TxXfer → TxXfer) : State :=
  { s with fxp := { s.fxp with tx := s.fxp.tx.map (fun y => if y.num = x.num ∧ y.peer = x.peer then f y else y) } }
def State.dropTx (s : State) (x : TxXfer) : State :=
  { s with fxp := { s.fxp with tx := s.fxp.tx.filter (fun y => !(y.num == x.num && y.peer == x.peer)) } }

/-- Resend a fragment with RESEND set (R335); after 64 resends the transfer is abandoned, which the answer says. A
protected fragment is protected anew, since the header is authenticated. A Tension batch is not resent (R437) (DEDUCED, log 55; DEDUCED, log 61). -/
def State.resendFrag (s : State) (x : TxXfer) (f : Nat) : Bool × State :=
  let k := Sparse.get (fun _ => 0) x.resends f
  if x.ty = 0x68 then (false, s.dropTx x)
  else if 64 ≤ k then (true, s.dropTx x)
  else
    let h := s.fxpHdr x.peer x.ty (setBit x.flags 0) x.round x.num f x.frags.length
    let old := nth [] x.frags f
    let again : Option (List Byte × State) :=
      match s.protect x.ty with
      | none => some (old, s)
      | some (slot, use) =>
        let h0 := { s.fxpHdr x.peer x.ty x.flags x.round x.num f x.frags.length with
          fedId := x.fedId, incarn := x.incarn, length := old.length,
          flags := if k = 0 then x.flags else setBit x.flags 0 }
        match (s.unseal slot use (old.take 12) h0.front ((old.drop 12).take (old.length - 28)) (old.drop (old.length - 16))).1 with
        | none => none
        | some pt =>
          (s.seal slot use { h with fedId := x.fedId, incarn := x.incarn, length := old.length }.front pt).map
            (fun r => (r.1.1 ++ r.1.2.1 ++ r.1.2.2, r.2))
    match again with
    | none => (false, s)
    | some (b, t) =>
      let y := { x with frags := setNth x.frags f b, resends := Sparse.set (fun _ => 0) x.resends f (k + 1) }
      (false, (((t.modTx x (fun _ => y)).putUnit y (2 * f) 1).inc64 Obj.FRAGS_SENT).inc32 Obj.FRAGS_RESENT)

/-! ### Receiving (R329) -/

/-- The incarnation check (check 6). A member of which nothing has been heard yet has announced none (DEDUCED, log 56). -/
def State.incarnOk (s : State) (h : FxpHdr) : Bool :=
  h.ty == 0x01 || h.ty == 0x02 || (match Sparse.get (fun _ => 0) s.fxp.incarns h.srcMember with
    | 0 => true
    | n + 1 => n == h.incarn)

/-- Header fields that name this device (check 5), and the federation identifier (check 4), by the type's rule. A JOIN or
OWNER_MAP whose sender does not know its receiver names 0xFF and 0xFFFF (DEDUCED, log 20). -/
def State.fedOk (s : State) (h : FxpHdr) : Bool :=
  if isFeedTy h.ty || isTimeTy h.ty && h.srcChip == 0xFFFF then h.fedId == 0
  else if isExportTy h.ty || h.srcChip == 0xFFFF then h.fedId == s.obj Obj.EXPORT_ID
  else h.fedId == s.obj Obj.FED_ID
/-- DEDUCED, log 20. -/
def State.dstOk (s : State) (h : FxpHdr) : Bool :=
  if isExportTy h.ty || isFeedTy h.ty || h.srcChip == 0xFFFF then h.dstChip == s.chip && h.dstMember == s.selfMember
  else (h.dstMember == s.obj Obj.MEMBER_ID && h.dstChip == s.chip) ||
    ((h.ty == 0x01 || h.ty == 0x04) && h.dstMember == 0xFF && h.dstChip == 0xFFFF)

/-- The seven checks of R329 and the decryption of R420: the header and the payload in the clear, or nothing and the
count of what failed. -/
def State.fxpTake (s : State) (b : List Byte) : Option (FxpHdr × List Byte) × State :=
  let h := FxpHdr.of b
  let payload := b.drop 40
  if b.length < 40 ∨ h.length ≠ payload.length ∨ h.magic ≠ 0x4658 ∨ h.version ≠ 1 then (none, s.inc32 Obj.FOREIGN_DROPPED)
  else if h.crc ≠ fxpCrc (b.take 36) payload then (none, s.inc32 Obj.CRC_FAIL)
  else
    let plainSrc := isFeedTy h.ty || isExportTy h.ty || h.srcChip == 0xFFFF
    if !s.fedOk h || !s.dstOk h || (!plainSrc && !s.incarnOk h) || !fxpTypes.contains h.ty then (none, s.inc32 Obj.FOREIGN_DROPPED)
    else
      let s1 := s.raiseN Ev.FXP_RX h.ty
      match s.protect h.ty with
      | none => (some (h, payload), s1)
      | some (slot, use) =>
        let r := s1.unseal slot use (payload.take 12) (b.take 36) ((payload.drop 12).take (payload.length - 28)) (payload.drop (payload.length - 16))
        match r.1 with
        | some pt => if payload.length < 28 then (none, r.2.inc32 Obj.ENC_DROPPED) else (some (h, pt), r.2)
        | none => (none, r.2.inc32 Obj.ENC_DROPPED)

/-- A received transfer. -/
def State.rxOf (s : State) (member chip num : Nat) : Option RxXfer :=
  s.fxp.rx.find? (fun x => x.member == member && x.chip == chip && x.num == num)
def State.setRx (s : State) (x : RxXfer) : State :=
  { s with fxp := { s.fxp with
      rx := s.fxp.rx.filter (fun y => !(y.member == x.member && y.chip == x.chip && y.num == x.num)) ++ [x] } }

def rxDflt : Nat → List Byte := fun _ => []
/-- The fragment is held. -/
def RxXfer.has (x : RxXfer) (f : Nat) : Bool := x.done || x.data.any (fun q => q.1 == f)
/-- Data fragments of a group. -/
def groupFrags (frags g : Nat) : List Nat := (rangeFrom (16 * g) 16).filter (fun f => decide (f < frags))

/-- SACK payload (Table 13.4). -/
def RxXfer.sack (x : RxXfer) (busy : Bool) : List Byte :=
  let missing := (List.range x.frags).find? (fun f => !x.has f)
  let base := match missing with
    | none => roundUp x.frags 16
    | some f => f / 16 * 16
  let map := match missing with
    | none => 0
    | some _ => (List.range 64).foldl (fun v i => if decide (base + i < x.frags) && x.has (base + i) then v + 2 ^ i else v) 0
  beBytes 4 x.num ++ beBytes 4 base ++ beBytes 8 map ++
    beBytes 1 ((if missing.isNone then 1 else 0) + (if busy then 2 else 0)) ++ zeros 3

/-- Acknowledge a transfer to the station its fragment came from (R333). -/
def State.sendSack (s : State) (p : Peer) (x : RxXfer) (busy : Bool) : State :=
  (s.setRx { x with fresh := false }).fxpSingle p 0x12 0 x.round (x.sack busy)

/-- Rebuild the one missing fragment of a group whose parity is held (R332). -/
def RxXfer.rebuild (x : RxXfer) (g full : Nat) : Option (Nat × List Byte) :=
  match x.parity.find? (fun q => q.1 == g), (groupFrags x.frags g).filter (fun f => !x.has f) with
  | some (_, p), [f] =>
    let add := if bit x.flags 1 then 28 else 0
    let len := if f + 1 = x.frags then beAt p 0 8 - f * (full - add) + add else full
    let others := ((groupFrags x.frags g).filter (· ≠ f)).map (fun k => Sparse.get rxDflt x.data k)
    some (f, (groupXor (p.drop 8 :: others)).take len)
  | _, _ => none

/-- The station that a datagram came from. -/
def stationOf (d : Dgram) (h : FxpHdr) : Peer := ⟨h.srcMember, h.srcChip, d.peer, d.peerPort.toNat, none⟩

/-- Bytes of a transfer in order. -/
def RxXfer.bytes (x : RxXfer) : List Byte := (List.range x.frags).flatMap (fun f => Sparse.get rxDflt x.clear f)

/-- The payload of a rebuilt fragment in the clear (R420): its header is the one it was first sent with. -/
def State.openRebuilt (s : State) (h : FxpHdr) (ty f : Nat) (raw : List Byte) : Option (List Byte) × State :=
  match s.protect ty with
  | none => (some raw, s)
  | some (slot, use) =>
    let h1 := { h with ty := ty, flags := setBit (clrBit h.flags 0) 1, frag := f, length := raw.length }
    let r := s.unseal slot use (raw.take 12) h1.front ((raw.drop 12).take (raw.length - 28)) (raw.drop (raw.length - 16))
    if r.1.isSome then r else (none, r.2.inc32 Obj.ENC_DROPPED)

/-- Rebuild the one fragment that a group lacks, when its parity is held; it then counts as received (R332). -/
def State.tryRebuild (s : State) (x : RxXfer) (h : FxpHdr) (g : Nat) : RxXfer × State :=
  match x.rebuild g (s.obj Obj.FRAG_PAYLOAD) with
  | none => (x, s)
  | some (f, raw) =>
    let r := s.openRebuilt h x.ty f raw
    match r.1 with
    | none => (x, r.2)
    | some c => ({ x with data := Sparse.put x.data f raw, clear := Sparse.put x.clear f c }, r.2.inc32 Obj.PARITY_RECOVERED)

/-- A transfer that has become whole lets its fragments go and stays known, so that duplicates draw the SACK again. -/
def RxXfer.close (x : RxXfer) : RxXfer := { x with done := true, data := [], clear := [], parity := [] }
def RxXfer.whole (x : RxXfer) : Bool := (List.range x.frags).all x.has

/-- A data fragment is stored: acknowledged under R333, and the whole byte string answered when it is complete. -/
def State.rxData (s : State) (p : Peer) (h : FxpHdr) (raw clear : List Byte) : Option (List Byte) × State :=
  let x := (s.rxOf h.srcMember h.srcChip h.xfer).getD ⟨p, h.srcMember, h.srcChip, h.xfer, h.ty, h.round, h.flags, h.frags, [], [], [], false, false⟩
  if x.frags ≤ h.frag ∨ x.has h.frag then (none, s.sendSack p x false)
  else
    let x1 := { x with data := Sparse.put x.data h.frag raw, clear := Sparse.put x.clear h.frag clear, fresh := true }
    let g := h.frag / 16
    let r := s.tryRebuild x1 h g
    let x2 := r.1
    let x3 := if x2.whole then x2.close else x2
    let s2 := if (groupFrags x2.frags g).all x2.has ∨ h.frag + 1 = x2.frags then r.2.sendSack p x3 false else r.2.setRx x3
    (if x2.whole then some x2.bytes else none, s2)

/-- A parity datagram is kept, and rebuilds the one fragment its group lacks (R332). The answer is the transfer it made
whole, with its bytes. -/
def State.rxParity (s : State) (p : Peer) (h : FxpHdr) (payload : List Byte) : Option (RxXfer × List Byte) × State :=
  match s.rxOf h.srcMember h.srcChip h.xfer with
  | none => (none, s)
  | some x =>
    if x.done then (none, s)
    else
      let r := s.tryRebuild { x with parity := Sparse.put x.parity h.frag payload } h h.frag
      if r.1.data.length = x.data.length then (none, r.2.setRx r.1)
      else if r.1.whole then (some (x, r.1.bytes), r.2.sendSack p r.1.close false)
      else (none, r.2.sendSack p r.1 false)

/-! ### Acknowledgement at the sender (R334, R335) -/

/-- Resend each fragment in turn; the answer says whether one was abandoned. -/
def State.resendAll (s : State) (key num : Nat) : List Nat → Bool × State
  | [] => (false, s)
  | f :: fs =>
    match s.txOf key num with
    | none => (false, s)
    | some x =>
      let r := s.resendFrag x f
      if r.1 then r else r.2.resendAll key num fs

/-- What a SACK did: the transfer it ended, and whether one was abandoned. -/
structure SackEnd where
  ended : Option TxXfer
  silent : Bool

/-- A SACK releases what it covers and triggers resends (DEDUCED, log 56). -/
def State.onSack (s : State) (key : Nat) (b : List Byte) : SackEnd × State :=
  let num := beAt b 0 4
  let base := beAt b 4 4
  let map := beAt b 8 8
  match s.txOf key num with
  | none => (⟨none, false⟩, s)
  | some x =>
    let n := x.frags.length
    let shown := fun f => decide (f < base) || (decide (f < base + 64) && bit map (f - base))
    let got := (List.range n).filter (fun f => x.acked.contains f || shown f)
    let full := fun g => (groupFrags n g).all (fun f => got.contains f)
    let out := x.out.filter (fun u => if u % 2 = 0 then !got.contains (u / 2) else !full (u / 2))
    let y := { x with acked := got, out := out }
    if got.length = n then
      let t := s.dropTx x
      (⟨some y, false⟩, t.fxpPump x.peer.key (t.unsent x.peer.key))
    else
      let sent := x.units.take x.next
      let lost := (List.range n).filter (fun f =>
        decide (base ≤ f) && decide (f < base + 64) && !shown f && sent.contains (2 * f) &&
          ((List.range n).any (fun k => decide (f / 16 < k / 16) && got.contains k) ||
            (got.contains (n - 1) && (!x.par || sent.contains (2 * (f / 16) + 1)))))
      let t := s.modTx x (fun _ => y)
      let r := t.resendAll key num lost
      (⟨none, r.1⟩, r.2.fxpPump x.peer.key (r.2.unsent x.peer.key))

/-- Transfers to a member's devices are given up. -/
def State.dropMemberTx (s : State) (m : Nat) : State :=
  { s with fxp := { s.fxp with tx := s.fxp.tx.filter (fun x => x.peer.member != m || x.peer.chip == 0xFFFF) } }

end Sys2Proof.Machine
end

