-- ==== Sys2Proof/Machine/Feed.lean ====
section
/-! DEFINITION. The input feed: streams, the shuffle, requests to data servers, packing rows into sequence channels, and
what becomes of a step's rows (R304 to R319, R324, R363, R364). -/

namespace Sys2Proof.Machine

/-! ### Plan -/

def State.feedStream (s : State) (n : Nat) : Option FeedStream :=
  match s.job.image with
  | some im => im.streams.find? (fun t => t.stream == n)
  | none => none
def State.feedSources (s : State) (t : FeedStream) : List FeedSource :=
  match s.job.image with
  | some im => (im.sources.drop t.firstSource).take t.sourceCount
  | none => []
def State.channel (s : State) (c : Nat) : Option ChanRec :=
  match s.job.image with
  | some im => im.channels.find? (fun r => r.channel == c)
  | none => none
def State.passes (s : State) : Nat := match s.job.image with | some im => im.passes | none => 0

/-- TOTAL of a stream (R314). -/
def totalOf (ss : List FeedSource) : Nat := ss.foldl (fun n x => n + x.samples) 0

/-- Source of a stream sample, and its number within the source (R314). -/
def locate : List FeedSource → Nat → Option (FeedSource × Nat)
  | [], _ => none
  | x :: xs, g => if g < x.samples then some (x, x.first + g) else locate xs (g - x.samples)

/-- Bytes of a shuffle slot (R306); address of slot `j`. -/
def FeedStream.slotBytes (t : FeedStream) : Nat := roundUp (64 + 4 * t.sampleMax) 1024
def FeedStream.slotAddr (t : FeedStream) (j : Nat) : Nat := t.addr % 2 ^ 52 + j * t.slotBytes

def State.run (s : State) (n : Nat) : FeedRun := Sparse.get (fun _ => FeedRun.fresh) s.feed.runs n
def State.setRun (s : State) (n : Nat) (r : FeedRun) : State :=
  { s with feed := { s.feed with runs := Sparse.set (fun _ => FeedRun.fresh) s.feed.runs n r } }
def slotDef (total : Nat) : Nat → FeedSlot := fun i => FeedSlot.empty (i % total)
def FeedRun.slot (r : FeedRun) (total j : Nat) : FeedSlot := Sparse.get (slotDef total) r.slots j
def FeedRun.setSlot (r : FeedRun) (total j : Nat) (x : FeedSlot) : FeedRun := { r with slots := Sparse.set (slotDef total) r.slots j x }

def State.chan (s : State) (c : Nat) : ChanRun := Sparse.get (fun _ => ChanRun.fresh) s.feed.chans c
def State.setChan (s : State) (c : Nat) (r : ChanRun) : State :=
  { s with feed := { s.feed with chans := Sparse.set (fun _ => ChanRun.fresh) s.feed.chans c r } }

/-- Bytes of a row buffer (R306); address of the buffer of pass `b`. -/
def ChanRec.bufBytes (r : ChanRec) : Nat := roundUp (64 + 8 * r.cap + 16 * r.maxSegs) 1024
def ChanRec.bufAddr (r : ChanRec) (b : Nat) : Nat := r.addr % 2 ^ 52 + b * r.bufBytes

/-! ### Rings (R310) -/

/-- Coordinate of ring position `p` on the axis. -/
def State.ringCoord (s : State) (r : ChanRec) (p : Nat) : Nat :=
  let a0 := nib (posOfIndex s.sliceDef r.origin) r.axis
  if sWrap s.sliceDef r.axis ∧ r.ring = sExt s.sliceDef r.axis then a0 + p
  else if p < ceilDiv r.ring 2 then a0 + 2 * p else a0 + 2 * (r.ring - 1 - p) + 1

/-- Ring position of this device; 0 for an ordinary channel. -/
def State.ringPos (s : State) (r : ChanRec) : Nat :=
  if r.stream = 0 then 0
  else ((List.range r.ring).find? (fun p => s.ringCoord r p == nib s.myPos r.axis)).getD 0

/-- Chip of the successor's ring position. -/
def State.ringNext (s : State) (r : ChanRec) : Nat :=
  let p := (s.ringPos r + 1) % r.ring
  let me := s.myPos
  s.chipAt (me - nib me r.axis * 16 ^ r.axis + s.ringCoord r p * 16 ^ r.axis)

/-! ### The generator and the slots (R315) -/

/-- draw32: 32 advances; the new generator and r. -/
def draw32 (g : BitVec 64) : BitVec 64 × Nat :=
  let n := srAdvances 32 g.toNat
  (BitVec.ofNat 64 n, n % 2 ^ 32)

/-- Tokens `lo` to `hi` - 1 lie in the ranges held. -/
def covered (segs : List (Nat × Nat)) (hi : Nat) : Nat → Nat → Bool
  | 0, lo => decide (hi ≤ lo)
  | f + 1, lo =>
    if hi ≤ lo then true
    else
      match segs.find? (fun q => decide (q.1 ≤ lo) && decide (lo < q.1 + q.2)) with
      | some q => covered segs hi f (q.1 + q.2)
      | none => false

/-- First token from `lo` that no range holds. -/
def firstGap (segs : List (Nat × Nat)) : Nat → Nat → Nat
  | 0, lo => lo
  | f + 1, lo =>
    match segs.find? (fun q => decide (q.1 ≤ lo) && decide (lo < q.1 + q.2)) with
    | some q => firstGap segs f (q.1 + q.2)
    | none => lo

/-- Tokens at an address. -/
def State.tokensAt (s : State) (a n : Nat) : List Nat := elemsOf 4 n (s.mem.read a (4 * n))

/-- Address of a local ring's slot for sample `k` (R319). -/
def localSlot (t : FeedStream) (x : FeedSource) (k : Nat) : Nat :=
  x.addr % 2 ^ 52 + 8 + k % max 1 (Config.ringSlots x.id) * t.slotBytes

/-- What stands in a slot: length when known, ranges held, address of token 0. A local ring's sample is complete once the
count word exceeds its number (R319). -/
def State.slotView (s : State) (t : FeedStream) (r : FeedRun) (j : Nat) : Option Nat × List (Nat × Nat) × Nat :=
  let ss := s.feedSources t
  let x := r.slot (totalOf ss) j
  match locate ss x.sample with
  | some (src, k) =>
    if src.kind = 1 then
      let a := localSlot t src k
      if k < s.word64 (src.addr % 2 ^ 52) then
        let l := Config.slotLength (s.mem.read a 64)
        (some l, [(0, l)], a + 64)
      else (none, [], a + 64)
    else (x.length, x.segs, t.slotAddr j + 64)
  | none => (x.length, x.segs, t.slotAddr j + 64)

/-! ### Packing (R316) -/

/-- One segment of a row being packed: sample, start, length, and the tokens of this device's share: first, tokens. -/
structure RowSeg where
  sample : Nat
  start : Nat
  len : Nat
  lo : Nat
  toks : List Nat

/-- A row while it is packed. -/
structure Row where
  run : FeedRun
  segs : List RowSeg
  free : Nat
  taken : Nat
  cut : Nat
  fetched : Nat
  wraps : Nat

/-- What the next row still lacks: sample, first token, beyond the last (both 0 for the length). -/
abbrev Lack := Nat × Nat × Nat

/-- Tokens of a sample placed at `start` that fall into the share `[base, base + cap)`: first, beyond the last. -/
def shareOf (base cap start len : Nat) : Nat × Nat :=
  let lo := max start base - start
  let hi := min (start + len) (base + cap) - start
  if lo < hi then (lo, hi) else (0, 0)

/-- Tokens `lo` to `hi` - 1 from the pieces kept of a held sample. -/
def pieces (segs : List (Nat × List Nat)) (lo hi : Nat) : List Nat :=
  (rangeFrom lo (hi - lo)).map (fun i =>
    match segs.find? (fun q => decide (q.1 ≤ i) && decide (i < q.1 + q.2.length)) with
    | some q => nth 0 q.2 (i - q.1)
    | none => 0)

/-- The next emitted sample joins the held place (R315): the draw, the slot's contents, its refilling. -/
def State.emitSample (s : State) (t : FeedStream) (w : Row) : Row ⊕ Lack :=
  let total := totalOf (s.feedSources t)
  let d := draw32 w.run.gen
  let j := d.2 % t.slots
  let x := w.run.slot total j
  let v := s.slotView t w.run j
  match v.1 with
  | none => .inr (x.sample, 0, 0)
  | some l =>
    let need := min l t.sampleMax
    if t.stream = 0 ∧ !covered v.2.1 need (v.2.1.length + 1) 0 then .inr (x.sample, firstGap v.2.1 (v.2.1.length + 1) 0, need)
    else
      let h : FeedHeld := ⟨x.sample, l, v.2.1.map (fun q => (q.1, s.tokensAt (v.2.2 + 4 * q.1) (min q.2 t.sampleMax)))⟩
      let next := w.run.next % total
      let isLocal := match locate (s.feedSources t) x.sample with | some (src, _) => src.kind == 1 | none => false
      let r1 := w.run.setSlot total j (FeedSlot.empty next)
      .inl { w with
        run := { r1 with gen := d.1, next := w.run.next + 1, emitted := w.run.emitted + 1, held := some h }
        fetched := w.fetched + (if isLocal || decide (t.stream ≠ 0) then 1 else 0)
        wraps := w.wraps + (if next = 0 then 1 else 0) }

/-- Fill a row: capacity of the row, segments allowed, share of this device. -/
def State.fillRow (s : State) (t : FeedStream) (cap maxSegs base share : Nat) : Nat → Row → Row ⊕ Lack
  | 0, w => .inl w
  | f + 1, w =>
    match w.run.held with
    | none =>
      match s.emitSample t w with
      | .inr q => .inr q
      | .inl w1 => s.fillRow t cap maxSegs base share f w1
    | some h =>
      let len := min h.length (min cap t.sampleMax)
      if len = 0 then s.fillRow t cap maxSegs base share f { w with run := { w.run with held := none }, taken := w.taken + 1 }
      else if w.free < len ∨ w.segs.length = maxSegs then .inl w
      else
        let start := cap - w.free
        let q := shareOf base share start len
        let rs := h.segs.map (fun p => (p.1, p.2.length))
        if !covered rs q.2 (rs.length + 1) q.1 then .inr (h.sample, firstGap rs (rs.length + 1) q.1, q.2)
        else
          let w1 : Row := { w with
            run := { w.run with held := none }
            segs := w.segs ++ [⟨h.sample, start, len, q.1, pieces h.segs q.1 q.2⟩]
            free := w.free - len
            taken := w.taken + 1
            cut := w.cut + (if len < h.length then 1 else 0) }
          if w1.free = 0 then .inl w1 else s.fillRow t cap maxSegs base share f w1

/-- The next row of a channel. -/
def State.nextRow (s : State) (t : FeedStream) (r : ChanRec) : Row ⊕ Lack :=
  let cap := r.ring * r.cap
  let r0 := s.run t.stream
  s.fillRow t cap r.maxSegs (s.ringPos r * r.cap) r.cap (2 * (r.maxSegs + t.slots + totalOf (s.feedSources t)) + 4)
    ⟨r0, [], cap, 0, 0, 0, 0⟩

/-- Segments that lie wholly or partly in the share. -/
def inShare (base cap : Nat) (g : RowSeg) : Bool := decide (g.start < base + cap) && decide (base < g.start + g.len)

/-- Bytes of a row buffer (Table 12.5). -/
def State.rowBytes (s : State) (r : ChanRec) (pass : Nat) (segs : List RowSeg) : List Byte :=
  let base := s.ringPos r * r.cap
  let mine := segs.filter (inShare base r.cap)
  let toks := mine.flatMap (fun g => ((List.range g.toks.length).zip g.toks).map (fun q => (q.2, g.lo + q.1)))
  let rowToks := segs.foldl (fun n g => n + g.len) 0
  leBytes 4 toks.length ++ leBytes 2 mine.length ++ leBytes 2 pass ++ leBytes 8 s.attempt ++ leBytes 4 rowToks ++
    leBytes 4 base ++ zeros 40 ++ toks.flatMap (fun q => leBytes 4 q.1 ++ leBytes 4 q.2) ++
    List.replicate (8 * (r.cap - toks.length)) 0xFF ++
    padTo (16 * r.maxSegs) (mine.flatMap (fun g => leBytes 4 g.start ++ leBytes 4 g.len ++ leBytes 8 g.sample))

/-- The state of the feed, unless it is stalled. -/
def State.feedState (s : State) (v : Nat) : State := if s.obj Obj.FEED_STATE = 3 then s else s.setObj Obj.FEED_STATE v

/-- Count emitted samples in SAMPLES_EMITTED (Table 12.9). -/
def State.showEmitted (s : State) : State :=
  s.setDom Obj.SAMPLES_EMITTED ((List.range 5).flatMap (fun n => leBytes 8 (s.run n).emitted))

/-- Publish a row: the channel's ledger and state (R308, R309). -/
def State.publish (s : State) (c pass toks segs : Nat) : State :=
  let x := s.chan c
  (s.setChan c ⟨3, pass, toks, segs, x.filled + 1, x.released⟩).inc64 Obj.ROWS_PUBLISHED

/-- FEED_PACK_ROW: the next pass's row of a channel is packed and published, or published again (R316, R318). -/
def State.packRow (s : State) (c : Nat) : State :=
  match s.channel c with
  | none => s
  | some r =>
    let x := s.chan c
    let b := x.filled
    if !s.jobRuns || x.st != 1 || decide (s.passes ≤ b) then s
    else if s.feed.replay then
      let a := r.bufAddr b
      let s1 := if s.feed.chans.all (fun q => decide (q.2.filled = 0)) then s.inc32 Obj.REPLAYS else s
      (s1.writeMem (a + 8) (leBytes 8 s.attempt) 0x0D8).publish c b (s.mem.word a 4) (s.mem.word (a + 4) 2)
    else
      match s.feedStream r.stream, s.job.image with
      | some t, some im =>
        let turn := im.channels.all (fun o => o.stream != r.stream || o.channel == c ||
          (if o.channel < c then decide (b < (s.chan o.channel).filled) else decide (b ≤ (s.chan o.channel).filled)))
        if !turn then s
        else
          match s.nextRow t r with
          | .inr _ => s.feedState 2
          | .inl w =>
            let s1 := (s.setRun t.stream w.run).writeMem (r.bufAddr b) (s.rowBytes r b w.segs) 0x0D8
            let s2 := { s1 with feed := { s1.feed with taken := s1.feed.taken + w.taken } }
            let s3 := ((s2.bump Obj.TRUNCATED w.cut 32).bump Obj.SAMPLES_FETCHED w.fetched 64).showEmitted
            let s4 := if t.stream = 0 then s3.bump Obj.DATA_EPOCH w.wraps 32 else s3
            let base := s.ringPos r * r.cap
            let mine := w.segs.filter (inShare base r.cap)
            (s4.setObj Obj.FEED_STATE 1).publish c b (mine.foldl (fun n g => n + g.toks.length) 0) mine.length
      | _, _ => s

/-- The join of a channel's READY_BAR may complete (R307). -/
def State.rowReady (s : State) (bar : Nat) : Bool :=
  match s.job.image with
  | none => true
  | some im => im.channels.all (fun r => r.readyBar != bar || ((s.chan r.channel).st == 3 && (s.chan r.channel).pass == (s.chan r.channel).released))

/-- The join of a channel's RELEASE_BAR completes: the row is released and its tokens return (R307, R308) (DESIGN CHOICE, log 54; DEDUCED, log 66). -/
def State.rowRelease (s : State) (bar : Nat) : State :=
  match s.job.image with
  | none => s
  | some im =>
    im.channels.foldl (fun s r =>
      let x := s.chan r.channel
      if r.releaseBar = bar ∧ x.st = 3 then
        s.setChan r.channel { x with st := if x.released + 1 < im.passes then 1 else 4, packed := 0, segs := 0, released := x.released + 1 }
      else s) s

/-- A pass of the step begins with its row (object PASS). -/
def State.passNow (s : State) (bar : Nat) : State :=
  match s.job.image with
  | none => s
  | some im =>
    match im.channels.find? (fun r => r.readyBar == bar) with
    | some r => s.setObj Obj.PASS (s.chan r.channel).pass
    | none => s

/-! ### Requests (R311, R315, R317, R363, R364) -/

/-- Tokens that one request may name. -/
def State.reqMax (s : State) : Nat := (s.obj Obj.FRAG_PAYLOAD - 28) / 4

/-- Ranges of a sample that requests in flight name; its length is asked for. -/
def State.asked (s : State) (n g : Nat) : List (Nat × Nat) :=
  (s.feed.reqs.filter (fun q => q.stream == n && q.sample == g && q.count != 0)).map (fun q => (q.first, q.count))
def State.lengthAsked (s : State) (n g : Nat) : Bool := s.feed.reqs.any (fun q => q.stream == n && q.sample == g && q.count == 0)

/-- Next request for tokens `lo` to `hi` - 1 of a sample, beyond those held and asked for. -/
def State.tokenReq (s : State) (n g lo hi : Nat) (segs : List (Nat × Nat)) : Option (Nat × Nat × Nat) :=
  let l := segs ++ s.asked n g
  let a := firstGap l (l.length + 1) lo
  if a < hi then some (g, a, min s.reqMax (hi - a)) else none

/-- Sample, first token and count (0 for the length) of the next request of a stream, in ascending sample number (DESIGN CHOICE, log 54; DEDUCED, log 66). -/
def State.nextReq (s : State) (t : FeedStream) : Option (Nat × Nat × Nat) :=
  let n := t.stream
  let ss := s.feedSources t
  let total := totalOf ss
  let r := s.run n
  let cands := (List.range t.slots).filterMap (fun j =>
    let x := r.slot total j
    match locate ss x.sample with
    | some (src, _) =>
      if src.kind ≠ 0 then none
      else
        match x.length with
        | none => if s.lengthAsked n x.sample then none else some (x.sample, 0, 0)
        | some l => if n = 0 then s.tokenReq n x.sample 0 (min l t.sampleMax) x.segs else none
    | none => none)
  let best := cands.foldl (fun (b : Option (Nat × Nat × Nat)) q =>
    match b with
    | none => some q
    | some y => if q.1 < y.1 then some q else some y) none
  if n = 0 ∨ best.isSome then best
  else
    match s.job.image with
    | none => none
    | some im =>
      match im.channels.find? (fun c => c.stream == n) with
      | none => none
      | some c =>
        match s.nextRow t c with
        | .inr (g, lo, hi) => if lo < hi then s.tokenReq n g lo hi [] else none
        | .inl _ => none

/-- Send a request under its transfer number; RESEND marks one sent again (DESIGN CHOICE, log 54). -/
def State.putReq (s : State) (q : FeedReq) (src : FeedSource) (k : Nat) (again : Bool) : State :=
  let p := endpointOf (s.dom (Obj.ENDPOINT + q.ep))
  s.fxpPut p 0x50 (if again then 1 else 0) 0 q.num (beBytes 4 src.id ++ beBytes 1 (if q.count = 0 then 1 else 0) ++ zeros 3 ++
    beBytes 8 k ++ beBytes 4 q.first ++ beBytes 4 q.count)

/-- FEED_REQ: the next request of a stream is sent. -/
def State.feedReq (s : State) (n : Nat) : State :=
  match s.feedStream n with
  | none => s
  | some t =>
    if s.obj Obj.FETCH_AHEAD ≤ (s.feed.reqs.filter (fun q => q.stream == n)).length then s
    else
      match s.nextReq t with
      | none => s
      | some (g, first, count) =>
        match locate (s.feedSources t) g with
        | none => s
        | some (src, k) =>
          let x := s.takeXfer (endpointOf (s.dom (Obj.ENDPOINT + src.endpoint)))
          let q : FeedReq := ⟨x.1, src.endpoint, s.selfMember, n, g, first, count, 0⟩
          let s1 := { x.2 with feed := { x.2.feed with reqs := x.2.feed.reqs ++ [q] } }
          (if s1.obj Obj.FEED_STATE = 0 then s1.setObj Obj.FEED_STATE 1 else s1).putReq q src k false

/-- Tokens of a sample arrive: into every slot that holds its number, and into the held sample (R311). -/
def State.storeTokens (s : State) (t : FeedStream) (g first : Nat) (toks : List Nat) : State :=
  let total := totalOf (s.feedSources t)
  let bs := bytesOfElems 4 toks
  let s1 := (List.range t.slots).foldl (fun s j =>
    let r := s.run t.stream
    let x := r.slot total j
    if x.sample = g ∧ x.length.isSome then
      let y := { x with segs := x.segs ++ [(first, toks.length)] }
      let need := min (x.length.getD 0) t.sampleMax
      let fresh := !covered x.segs need (x.segs.length + 1) 0 && covered y.segs need (y.segs.length + 1) 0
      let s' := (s.setRun t.stream (r.setSlot total j y)).writeMem (t.slotAddr j + 64 + 4 * first) bs 0x0D8
      if fresh && t.stream == 0 then s'.inc64 Obj.SAMPLES_FETCHED else s'
    else s) s
  let r := s1.run t.stream
  match r.held with
  | some h => if h.sample = g then s1.setRun t.stream { r with held := some { h with segs := h.segs ++ [(first, toks)] } } else s1
  | none => s1

/-- The length of a sample arrives. -/
def State.storeLength (s : State) (t : FeedStream) (g l : Nat) : State :=
  let total := totalOf (s.feedSources t)
  (List.range t.slots).foldl (fun s j =>
    let r := s.run t.stream
    let x := r.slot total j
    if x.sample = g ∧ x.length = none then
      let s' := (s.setRun t.stream (r.setSlot total j { x with length := some l })).writeMem (t.slotAddr j)
        ((List.range 64).map (Config.slotHead l)) 0x0D8
      if l = 0 ∧ t.stream = 0 then s'.inc64 Obj.SAMPLES_FETCHED else s'
    else s) s

/-- FEED_REPLY after the checks that hold for every datagram: it is taken when its XFER names a request outstanding to
the endpoint it came from (R364). -/
def State.feedReply (s : State) (d : Dgram) (h : FxpHdr) (b : List Byte) : State :=
  match s.feed.reqs.find? (fun q =>
      let p := endpointOf (s.dom (Obj.ENDPOINT + q.ep))
      q.num == h.xfer && p.addr == d.peer && p.port == d.peerPort.toNat && q.member == h.dstMember) with
  | none => s.inc32 Obj.FOREIGN_DROPPED
  | some q =>
    if b.length ≠ 28 + 4 * q.count then s.inc32 Obj.FOREIGN_DROPPED
    else
      match s.feedStream q.stream with
      | none => s
      | some t =>
        let s1 := ({ s with feed := { s.feed with reqs := s.feed.reqs.erase q } }.setObj Obj.FEED_STATE 1)
        if beAt b 4 1 = 1 then ((s1.inc32 Obj.MISSING).raiseN Ev.FEED_MISSING q.stream).storeLength t q.sample 0
        else if q.count = 0 then s1.storeLength t q.sample (beAt b 24 4)
        else s1.storeTokens t q.sample q.first ((List.range q.count).map (fun i => beAt b (28 + 4 * i) 4))

/-- FEED_TIMEOUT: a request outstanding for FEED_TIMEOUT is sent again (R317). -/
def State.feedTimeout (s : State) (ep num : Nat) : State :=
  match s.feed.reqs.find? (fun q => q.ep == ep && q.num == num) with
  | none => s
  | some q =>
    match s.feedStream q.stream with
    | none => s
    | some t =>
      let q1 := { q with tries := q.tries + 1 }
      let s1 := { s with feed := { s.feed with reqs := s.feed.reqs.map (fun x => if x = q then q1 else x) } }.inc32 Obj.RETRIES
      let s2 := if q1.tries = s.obj Obj.FEED_RETRY_LIMIT then (s1.setObj Obj.FEED_STATE 3).raiseN Ev.FEED_STALL q.stream else s1
      match locate (s.feedSources t) q.sample with
      | some (src, k) => s2.putReq q1 src k true
      | none => s2

/-! ### LOAD, UNLOAD, objects -/

/-- The feed as LOAD leaves it (R315). -/
def State.feedLoad (s : State) (im : Image) : State :=
  let runs := im.streams.foldl (fun m t => Sparse.set (fun _ => FeedRun.fresh) m t.stream
    ⟨if t.seed = 0 then 1 else BitVec.ofNat 64 t.seed, t.slots, [], 0, none⟩) []
  let chans := im.channels.foldl (fun m r => Sparse.set (fun _ => ChanRun.fresh) m r.channel { ChanRun.fresh with st := 1 }) []
  let wraps := match im.streams.find? (fun t => t.stream == 0) with
    | some t => (t.slots - 1) / max 1 (totalOf ((im.sources.drop t.firstSource).take t.sourceCount))
    | none => 0
  let s1 := { s with feed := ⟨runs, chans, [], false, 0⟩ }
  ((((((s1.setObj Obj.FEED_STATE 0).setObj Obj.SAMPLES_FETCHED 0).setObj Obj.DATA_EPOCH wraps).setObj Obj.PASS 0).setObj
    Obj.ROWS_PUBLISHED 0).setObj Obj.SAMPLES_DROPPED 0).showEmitted

/-- CHANNELS (Table 12.10). -/
def State.channelsObj (s : State) : List Byte :=
  (List.range 64).flatMap (fun c =>
    let x := s.chan c
    match s.channel c with
    | none => zeros 16
    | some r => leBytes 1 x.st ++ leBytes 1 r.stream ++ leBytes 2 x.pass ++ leBytes 4 x.packed ++ leBytes 4 (r.cap - x.packed) ++
        leBytes 2 x.segs ++ zeros 2)

/-- RINGS (Table 12.10). -/
def State.ringsObj (s : State) : List Byte :=
  match s.job.image with
  | none => zeros 32
  | some im =>
    padTo 32 ((im.channels.filter (fun r => r.stream != 0)).flatMap (fun r =>
      leBytes 1 r.channel ++ leBytes 1 r.axis ++ leBytes 1 r.ring ++ leBytes 1 (s.ringPos r) ++ leBytes 2 (s.ringNext r) ++ zeros 2))

/-- APPLY on 0x3100. -/
def applyFeed (s : State) (slot : Nat) : Ans :=
  let used := match s.job.image with
    | some im => (im.sources.filter (fun (x : FeedSource) => x.kind == 0)).map FeedSource.endpoint
    | none => []
  match ((List.range 16).filter used.contains).find? (fun e => allZero ((s.candB slot (Obj.ENDPOINT + e)).take 16)) with
  | some e => s.no St.INCONSISTENT (0x10 + e)
  | none =>
    ((s.take slot [Obj.FEED_TIMEOUT, Obj.FEED_RETRY_LIMIT, Obj.FETCH_AHEAD]).takeB slot
      ((List.range 16).map (Obj.ENDPOINT + ·))).ok

/-! ### Commands -/

def execFeedPackRow (channel : Fin 64) (s : State) : Out := .next (s.packRow channel.val)
def execFeedReq (stream : Fin 5) (s : State) : Out := .next (s.feedReq stream.val)
/-- A FEED_REPLY datagram: the checks of R329 as R364 changes them, then the reply. -/
def execFeedReply (d : Dgram) (s : State) : Out :=
  .next (if s.up then
    match (s.frameIn d.port.val).fxpTake d.bytes with
    | (some (h, b), t) => if h.ty = 0x51 then t.feedReply d h b else t
    | (none, t) => t
  else s)
def execFeedTimeout (ep : Fin 16) (num : BitVec 32) (s : State) : Out := .next (s.feedTimeout ep.val num.toNat)

end Sys2Proof.Machine
end

