-- ==== Sys2Proof/Machine/Image.lean ====
section
/-! DEFINITION. The pattern image as bytes: header, directory, sections and their records (R178 to R181, R480, Tables 7.17
to 7.23; R246; R276; R305; R312), and the refusal record (R184, Table 7.25). -/

namespace Sys2Proof.Machine

/-! ### Refusals -/

/-- A refusal: CODE, SECTION, RECORD, CORE, WORD, CLAIMED, LIMIT (Table 7.25). -/
structure Refuse where
  code : Nat
  sec : Nat
  rcd : Nat
  core : Nat
  word : Nat
  claimed : Nat
  limit : Nat
deriving DecidableEq, Repr

/-- Codes whose amounts Table 7.24 names as amounts, so that EXCESS is filled. -/
def hasAmounts (code : Nat) : Bool := decide (1 ≤ code) && decide (code ≤ 0x0A) || code == 0x25 || code == 0x29 || code == 0x2A

/-- The 40 bytes of Table 7.25. -/
def Refuse.bytes (r : Refuse) : List Byte :=
  leBytes 1 r.code ++ zeros 1 ++ leBytes 2 r.sec ++ leBytes 4 r.rcd ++ leBytes 2 r.core ++ leBytes 2 r.word ++ zeros 4 ++
    leBytes 8 r.claimed ++ leBytes 8 r.limit ++ leBytes 8 (if hasAmounts r.code then r.claimed - r.limit else 0)

/-- Directory index and record. -/
abbrev At := Nat × Nat

/-- A refusal at a record, without core or word. -/
def At.no (a : At) (code claimed limit : Nat) : Refuse := ⟨code, a.1, a.2, 0xFFFF, 0xFFFF, claimed, limit⟩
/-- A refusal at a record and a core. -/
def At.noC (a : At) (core code claimed limit : Nat) : Refuse := ⟨code, a.1, a.2, core, 0xFFFF, claimed, limit⟩
/-- The header. -/
def hdrAt : At := (0xFFFF, 0)

/-- A check: refuse unless the condition holds. -/
def need (c : Bool) (r : Refuse) : Option Refuse := if c then none else some r

/-- The first failure of several checks. -/
def firstOf : List (Option Refuse) → Option Refuse
  | [] => none
  | some r :: _ => some r
  | none :: cs => firstOf cs

/-! ### Header and directory -/

/-- A directory entry (Table 7.18). -/
structure Sect where
  idx : Nat
  ty : Nat
  scope : Nat
  recs : Nat
  off : Nat
  len : Nat
deriving DecidableEq, Repr

def sectAt (img : List Byte) (i : Nat) : Sect :=
  let o := 64 + 32 * i
  ⟨i, leAt img o 2, leAt img (o + 2) 2, leAt img (o + 4) 4, leAt img (o + 8) 8, leAt img (o + 16) 8⟩

def imgSections (img : List Byte) : Nat := leAt img 28 2
def imgDir (img : List Byte) : List Sect := (List.range (imgSections img)).map (sectAt img)
def imgIdRev (img : List Byte) : Nat := leAt img 8 8
def imgShape (img : List Byte) : List Nat := (List.range 3).map (fun a => leAt img (24 + a) 1)
def imgDimord (img : List Byte) : Nat := leAt img 27 1
def imgSteps (img : List Byte) : Nat := leAt img 32 4
def imgBarLimit (img : List Byte) : Nat := leAt img 36 4
def imgOwner (img : List Byte) : List Byte := slice img 40 8
def Sect.bytes (x : Sect) (img : List Byte) : List Byte := slice img x.off x.len

/-- Sections of a type that apply to a device index (R179). -/
def secsFor (img : List Byte) (ty dev : Nat) : List Sect :=
  (imgDir img).filter (fun x => x.ty == ty && (x.scope == dev || x.scope == 0xFFFF))

/-! ### Core programs (Table 7.20) -/

/-- A core-program record. -/
structure Prog where
  first : Nat
  count : Nat
  ctx : Nat
  strict : Nat
  entry : Nat
  base : Nat
  fmode : Nat
  words : List Nat
  seeds : List Nat
deriving DecidableEq, Repr

def wordsOfBytes (bs : List Byte) : List Nat := elemsOf 8 (bs.length / 8) bs

def progLen (b : List Byte) : Nat := 32 + 8 * leAt b 10 2 + 8 * leAt b 2 2
def progOf (b : List Byte) : Prog where
  first := leAt b 0 2
  count := leAt b 2 2
  ctx := leAt b 4 1
  strict := leAt b 5 1
  entry := leAt b 6 2
  base := leAt b 8 2
  fmode := leAt b 12 4
  words := wordsOfBytes (slice b 32 (8 * leAt b 10 2))
  seeds := wordsOfBytes (slice b (32 + 8 * leAt b 10 2) (8 * leAt b 2 2))

/-- Cut bytes into records by a length that each record gives; none when a record runs past the end or bytes are left. -/
def cutRecs (len : List Byte → Nat) : Nat → List Byte → Option (List (List Byte))
  | 0, bs => if bs = [] then some [] else none
  | n + 1, bs =>
    let l := len bs
    if bs.length < l ∨ bs.length < 32 then none else (cutRecs len n (bs.drop l)).map (bs.take l :: ·)

/-! ### Claims (Tables 7.21 to 7.23) -/

/-- A core-claims record. -/
structure CoreClaim where
  first : Nat
  count : Nat
  ctx : Nat
  pocketBase : Nat
  pocketUnits : Nat
  descBase : Nat
  descUnits : Nat
  istBase : Nat
  istWords : Nat
  vb : List (Nat × Nat)
deriving DecidableEq, Repr

def claimOf (b : List Byte) : CoreClaim where
  first := leAt b 0 2
  count := leAt b 2 2
  ctx := leAt b 4 1
  pocketBase := leAt b 8 2
  pocketUnits := leAt b 10 2
  descBase := leAt b 12 2
  descUnits := leAt b 14 2
  istBase := leAt b 16 2
  istWords := leAt b 18 2
  vb := (List.range 6).map (fun i => (leAt b (20 + 4 * i) 2, leAt b (22 + 4 * i) 2))

/-- A tile record. -/
structure TileRec where
  first : Nat
  count : Nat
  tile : Nat
  ctx : Nat
  base : Nat
  m : Nat
  n : Nat
  seg : Nat
  passes : Nat
deriving DecidableEq, Repr

def tileOf (b : List Byte) : TileRec :=
  ⟨leAt b 0 2, leAt b 2 2, leAt b 4 1, leAt b 5 1, leAt b 6 2, leAt b 8 2, leAt b 10 2, leAt b 12 2, leAt b 14 2⟩

/-- A device-claims record. -/
structure DevClaim where
  dram : List Nat
  ledger : Nat
  streams : Nat
  channels : Nat
  priv : Nat
  loans : Nat
  routes : Nat
  chanTok : Nat
  privTok : Nat
deriving DecidableEq, Repr

def devClaimOf (b : List Byte) : DevClaim :=
  ⟨(List.range 4).map (fun p => leAt b (8 * p) 8), leAt b 32 4, leAt b 36 2, leAt b 38 2, leAt b 40 1, leAt b 42 2, leAt b 44 4,
    leAt b 48 4, leAt b 52 4⟩

/-! ### Descriptors (R164) -/

/-- A descriptor in its place: record, context, cores, slot, words 0 to 3, words 4 to 7 zero. -/
structure DescRec where
  at_ : At
  ctx : Nat
  first : Nat
  count : Nat
  slot : Nat
  words : List Nat
  rest : Bool
deriving DecidableEq, Repr

/-- A group head: record, cores, context, first slot, slots. -/
structure DescHead where
  at_ : At
  first : Nat
  count : Nat
  ctx : Nat
  slot : Nat
  slots : Nat
deriving DecidableEq, Repr

/-- Groups of a DESCRIPTORS section from its records, the first of them record `i`; none when a group is cut short. -/
def groups (sec : Nat) : Nat → Nat → List (List Byte) → Option (List (DescHead × List DescRec))
  | _, _, [] => some []
  | 0, _, _ => none
  | f + 1, i, h :: rs =>
    let hd : DescHead := ⟨(sec, i), leAt h 0 2, leAt h 2 2, leAt h 4 1, leAt h 6 2, leAt h 8 2⟩
    if rs.length < hd.slots then none
    else
      let mine := ((List.range hd.slots).zip rs).map (fun p =>
        (⟨(sec, i + 1 + p.1), hd.ctx, hd.first, hd.count, hd.slot + p.1, wordsOfBytes (p.2.take 32), allZero (p.2.drop 32)⟩ : DescRec))
      (groups sec f (i + 1 + hd.slots) (rs.drop hd.slots)).map ((hd, mine) :: ·)

/-! ### Plans -/

def planOf (b : List Byte) : PlanEntry where
  entry := leAt b 0 2
  kind := leAt b 2 1
  flags := leAt b 3 1
  stream := leAt b 4 1
  sfmt := leAt b 5 1
  pfmt := leAt b 6 1
  ofmt := leAt b 7 1
  root := leAt b 8 2
  issuer := leAt b 10 2
  chunkKib := leAt b 12 2
  icount := leAt b 14 2
  elems := leAt b 16 8
  src := leAt b 24 8
  dst := leAt b 32 8
  maskFirst := leAt b 40 4
  maskCount := leAt b 44 4

def maskRecOf (b : List Byte) : MaskRec := ⟨leAt b 0 2, leAt b 4 4, leAt b 8 4, leAt b 16 8⟩

def layerOf (b : List Byte) : Layer where
  layer := leAt b 0 4
  rule := leAt b 4 1
  hpSet := leAt b 5 1
  wfmt := leAt b 6 1
  gfmt := leAt b 7 1
  rows := leAt b 8 4
  cols := leAt b 12 4
  first := leAt b 16 4
  blocks := leAt b 20 4
  gradEntry := leAt b 24 2
  gradIssues := leAt b 26 2
  mclass := leAt b 28 1
  gradAddr := leAt b 32 8
  wcAddr := leAt b 40 8
  stateAddr := leAt b 48 8
  stateBytes := leAt b 56 8

def pinPlanOf (b : List Byte) : PinPlan := ⟨leAt b 0 2, leAt b 2 1, leAt b 4 2, leAt b 8 4, leAt b 12 4⟩

/-- A LEDGER_INIT section (R276). -/
structure LedgerSec where
  sec : Nat
  anchor : Nat
  nLayers : Nat
  nRecs : Nat
  nPins : Nat
  workOff : List Nat
  workBytes : List Nat
  layers : List Layer
  recs : List (List Byte)
  pins : List PinPlan
deriving DecidableEq, Repr

def ledgerOf (sec : Nat) (b : List Byte) : LedgerSec :=
  let l := leAt b 4 4
  let r := leAt b 8 4
  let p := leAt b 12 4
  { sec := sec, anchor := leAt b 0 2, nLayers := l, nRecs := r, nPins := p
    workOff := (List.range 4).map (fun i => leAt b (16 + 8 * i) 8)
    workBytes := (List.range 4).map (fun i => leAt b (48 + 8 * i) 8)
    layers := (chunksOf 128 l (slice b 128 (128 * l))).map layerOf
    recs := chunksOf 32 r (slice b (128 + 128 * l) (32 * r))
    pins := (chunksOf 16 p (slice b (128 + 128 * l + 32 * r) (16 * p))).map pinPlanOf }

/-- A SEQUENCE_PLAN section (R305). -/
structure SeqSec where
  sec : Nat
  shared : Bool
  passes : Nat
  streams : List FeedStream
  sources : List FeedSource
  channels : List ChanRec
deriving DecidableEq, Repr

def streamOf (b : List Byte) : FeedStream := ⟨leAt b 0 1, leAt b 1 1, leAt b 2 1, leAt b 4 4, leAt b 8 8, leAt b 16 4, leAt b 24 8⟩
def sourceOf (b : List Byte) : FeedSource := ⟨leAt b 0 4, leAt b 4 1, leAt b 5 1, leAt b 8 8, leAt b 16 8, leAt b 24 8⟩
def chanOf (b : List Byte) : ChanRec :=
  ⟨leAt b 0 1, leAt b 1 1, leAt b 2 1, leAt b 3 1, leAt b 4 4, leAt b 8 2, leAt b 10 2, leAt b 12 2, leAt b 14 2, leAt b 16 8⟩

def seqOf (sec : Nat) (shared : Bool) (b : List Byte) : SeqSec :=
  let n := leAt b 2 1
  let q := leAt b 3 1
  let c := leAt b 4 1
  { sec := sec, shared := shared, passes := leAt b 0 2
    streams := (chunksOf 48 n (slice b 32 (48 * n))).map streamOf
    sources := (chunksOf 32 q (slice b (32 + 48 * n) (32 * q))).map sourceOf
    channels := (chunksOf 32 c (slice b (32 + 48 * n + 32 * q) (32 * c))).map chanOf }

def loanOf (b : List Byte) : Loan := ⟨leAt b 0 2, leAt b 2 2, leAt b 4 1, leAt b 5 1, leAt b 8 8, leAt b 16 8⟩

/-- A DRAM_INIT record (R480): class, offset, bytes. -/
structure DramInit where
  cls : Nat
  off : Nat
  data : List Byte
deriving DecidableEq, Repr

def dramInitOf (b : List Byte) : DramInit := ⟨leAt b 0 1, leAt b 8 8, slice b 24 (leAt b 16 8)⟩
def dramInitLen (b : List Byte) : Nat := roundUp (24 + leAt b 16 8) 8

/-- Records of a DRAM_INIT section; the padding is zero. -/
def cutInits : Nat → List Byte → Option (List (List Byte))
  | 0, bs => if bs = [] then some [] else none
  | n + 1, bs =>
    let l := dramInitLen bs
    if bs.length < 24 ∨ bs.length < l ∨ !allZero (slice bs (24 + leAt bs 16 8) (l - (24 + leAt bs 16 8))) then none
    else (cutInits n (bs.drop l)).map (bs.take l :: ·)

/-! ### Form of the directory (R178, R179, R480) -/

/-- RECORDS and LENGTH of a section agree with its contents (R480). -/
def Sect.formOk (x : Sect) (img : List Byte) : Bool :=
  let b := x.bytes img
  match x.ty with
  | 0x01 => (cutRecs progLen x.recs b).isSome
  | 0x02 => x.len == 48 * x.recs
  | 0x03 => x.len == 16 * x.recs
  | 0x04 => x.len == 64 * x.recs && (groups x.idx (x.recs + 1) 0 (chunksOf 64 x.recs b)).isSome
  | 0x05 => x.len == 64 * x.recs
  | 0x06 => decide (128 ≤ x.len) && leAt b 8 4 == x.recs &&
      x.len == 128 + 128 * leAt b 4 4 + 32 * leAt b 8 4 + 16 * leAt b 12 4
  | 0x07 => decide (32 ≤ x.len) && leAt b 4 1 == x.recs && x.len == 32 + 48 * leAt b 2 1 + 32 * leAt b 3 1 + 32 * leAt b 4 1
  | 0x08 => decide (64 * x.recs ≤ x.len) && (x.len - 64 * x.recs) % 24 == 0
  | 0x09 => x.len == 32 * x.recs
  | 0x0A => (cutInits x.recs b).isSome
  | 0xFF => x.recs == 1 && x.len == 114
  | _ => false

/-- Stage 1 of R184 up to the identity: header, directory, sections (DEDUCED, log 52). -/
def checkForm (img : List Byte) : Option Refuse :=
  let n := img.length
  let dir := imgDir img
  firstOf [
    need (decide (64 ≤ n) && leAt img 0 4 == 0x49504753 && leAt img 4 2 == 1 && leAt img 16 8 == n &&
      decide (1 ≤ imgBarLimit img) && decide (imgBarLimit img ≤ 65536) && decide (1 ≤ imgSections img) &&
      decide (64 + 32 * imgSections img ≤ n)) (hdrAt.no 0x20 0 0),
    dir.findSome? (fun x => need (decide (64 + 32 * imgSections img ≤ x.off) && decide (x.off + x.len ≤ n) &&
      (x.ty == 0xFF) == decide (x.idx + 1 = imgSections img) && (x.ty != 0xFF || x.off + x.len == n) &&
      (dir.take x.idx).all (fun y => decide (x.off + x.len ≤ y.off) || decide (y.off + y.len ≤ x.off) || x.len == 0 || y.len == 0) &&
      x.formOk img) (At.no (x.idx, 0) 0x20 0 0))]

/-- Every section that must be held once is (R480), for the device index `dev`. -/
def checkOnce (img : List Byte) (dev : Nat) : Option Refuse :=
  let more := fun (xs : List Sect) (k : Nat) => (xs[k]?).map (fun x => At.no (x.idx, 0) 0x20 0 0)
  let dc := secsFor img 0x05 dev
  let loans := (imgDir img).filter (fun x => x.ty == 0x09)
  let seqs := (imgDir img).filter (fun x => x.ty == 0x07)
  firstOf [
    need (!dc.isEmpty) (hdrAt.no 0x20 0 0),
    dc.findSome? (fun x => need (x.recs == 1) (At.no (x.idx, 0) 0x20 0 0)),
    more dc 1, more (secsFor img 0x06 dev) 1, more (secsFor img 0x08 dev) 1,
    loans.findSome? (fun x => need (x.scope == 0xFFFF) (At.no (x.idx, 0) 0x20 0 0)), more loans 1,
    more (seqs.filter (fun x => x.scope == 0xFFFF)) 1, more (seqs.filter (fun x => x.scope == dev)) 1]

/-! ### What applies to a device -/

/-- Records of the fixed-size sections of a type that apply to a device, each with its place. -/
def recsFor (img : List Byte) (ty size dev : Nat) : List (At × List Byte) :=
  (secsFor img ty dev).flatMap (fun x =>
    ((List.range x.recs).zip (chunksOf size x.recs (x.bytes img))).map (fun p => ((x.idx, p.1), p.2)))

def devClaimFor (img : List Byte) (dev : Nat) : At × DevClaim :=
  match recsFor img 0x05 64 dev with
  | (a, b) :: _ => (a, devClaimOf b)
  | [] => (hdrAt, devClaimOf [])
def claimsFor (img : List Byte) (dev : Nat) : List (At × CoreClaim) := (recsFor img 0x02 48 dev).map (fun p => (p.1, claimOf p.2))
def tilesFor (img : List Byte) (dev : Nat) : List (At × TileRec) := (recsFor img 0x03 16 dev).map (fun p => (p.1, tileOf p.2))
def groupsFor (img : List Byte) (dev : Nat) : List (DescHead × List DescRec) :=
  (secsFor img 0x04 dev).flatMap (fun x => (groups x.idx (x.recs + 1) 0 (chunksOf 64 x.recs (x.bytes img))).getD [])
def descsFor (img : List Byte) (dev : Nat) : List DescRec := (groupsFor img dev).flatMap Prod.snd
def progsFor (img : List Byte) (dev : Nat) : List (At × Prog) :=
  (secsFor img 0x01 dev).flatMap (fun x =>
    let rs := (cutRecs progLen x.recs (x.bytes img)).getD []
    ((List.range rs.length).zip rs).map (fun p => ((x.idx, p.1), progOf p.2)))
def initsFor (img : List Byte) (dev : Nat) : List (At × DramInit) :=
  (secsFor img 0x0A dev).flatMap (fun x =>
    let rs := (cutInits x.recs (x.bytes img)).getD []
    ((List.range rs.length).zip rs).map (fun p => ((x.idx, p.1), dramInitOf p.2)))
def ledgerFor (img : List Byte) (dev : Nat) : Option LedgerSec :=
  ((secsFor img 0x06 dev).head?).map (fun x => ledgerOf x.idx (x.bytes img))
def seqsFor (img : List Byte) (dev : Nat) : List SeqSec :=
  (secsFor img 0x07 dev).map (fun x => seqOf x.idx (x.scope == 0xFFFF) (x.bytes img))
/-- The plan section's index, entries and masks. -/
def planFor (img : List Byte) (dev : Nat) : Nat × List PlanEntry × List MaskRec :=
  match secsFor img 0x08 dev with
  | x :: _ =>
    let b := x.bytes img
    (x.idx, (chunksOf 64 x.recs (b.take (64 * x.recs))).map planOf,
      (chunksOf 24 (x.len / 24 + 1) (b.drop (64 * x.recs))).map maskRecOf)
  | [] => (0xFFFF, [], [])
def loansFor (img : List Byte) : List (At × Loan) := (recsFor img 0x09 32 0xFFFF).map (fun p => (p.1, loanOf p.2))

/-- A context number's context. -/
def ctxOf (n : Nat) : CtxId := if n = 0 then .job else .filler

/-- The record covers the core. -/
def covers (first count core : Nat) : Bool := decide (first ≤ core) && decide (core < first + count)

/-- The claims of a core's context. -/
def claimAt (cs : List (At × CoreClaim)) (core ctx : Nat) : Option CoreClaim :=
  (cs.find? (fun p => p.2.ctx == ctx && covers p.2.first p.2.count core)).map Prod.snd
/-- A tile of a core's context. -/
def tileAt (ts : List (At × TileRec)) (core ctx tile : Nat) : Option TileRec :=
  (ts.find? (fun p => p.2.ctx == ctx && p.2.tile == tile && covers p.2.first p.2.count core)).map Prod.snd
/-- The descriptor in a slot. -/
def descAt (ds : List DescRec) (core ctx slot : Nat) : Option DescRec :=
  ds.find? (fun d => d.ctx == ctx && d.slot == slot && covers d.first d.count core)

end Sys2Proof.Machine
end

