-- ==== Sys2Proof/Machine/Check.lean ====
section
/-! DEFINITION. The loader's checks of programs: the words one by one, and every path of every step that the image can run
(R102, R108, R112, R116, R127, R131, R140, R152, R157 to R159, R164, R165, R167, R170, R172, R173, R262, R307). A step is run
once for each verdict, from every state that an earlier step can leave; the program's flow depends on nothing else. -/

namespace Sys2Proof.Machine

/-! ### What a program is checked against -/

/-- A program on one core with the image's records that bear on it. -/
structure Chk where
  img : List Byte
  dev : Nat
  core : Nat
  at_ : At
  prog : Prog
  plan : List PlanEntry
  masks : List MaskRec
deriving DecidableEq, Repr

namespace Chk

def claim (k : Chk) : Option CoreClaim := claimAt (claimsFor k.img k.dev) k.core k.prog.ctx
def tile (k : Chk) (t : Nat) : Option TileRec := tileAt (tilesFor k.img k.dev) k.core k.prog.ctx t
def desc (k : Chk) (slot : Nat) : Option DescRec := descAt (descsFor k.img k.dev) k.core k.prog.ctx slot
def filler (k : Chk) : Bool := k.prog.ctx == 1
def entryOf (k : Chk) (e : Nat) : Option PlanEntry := k.plan.find? (fun p => p.entry == e)
/-- The two words at an instruction-store word. -/
def wordsAt (k : Chk) (pc : Nat) : Nat × Nat := (nth 0 k.prog.words (pc - k.prog.base), nth 0 k.prog.words (pc + 1 - k.prog.base))
/-- First word beyond the program. -/
def limit (k : Chk) : Nat := k.prog.base + k.prog.words.length
/-- The instruction at a word and its length, when the word lies in the program and decodes. -/
def instr (k : Chk) (pc : Nat) : Option (PI × Nat) :=
  if pc < k.prog.base ∨ k.limit ≤ pc then none
  else
    match decodePI (k.wordsAt pc).1 (k.wordsAt pc).2 with
    | some (i, w) => if k.limit < pc + w then none else some (i, w)
    | none => none

/-- First words of the program's instructions, in order, up to one that does not decode. -/
def startsFrom (k : Chk) : Nat → Nat → List Nat
  | 0, _ => []
  | f + 1, pc =>
    if k.limit ≤ pc then []
    else
      match k.instr pc with
      | some (_, w) => pc :: k.startsFrom f (pc + w)
      | none => [pc]
def starts (k : Chk) : List Nat := k.startsFrom k.prog.words.length k.prog.base

/-- Bodies of the loops: the LOOP's word, first word and last instruction of the body. -/
def bodies (k : Chk) : List (Nat × Nat × Nat) :=
  k.starts.filterMap (fun p => match k.instr p with
    | some (.loop _ last _ _, w) => some (p, p + w, last)
    | _ => none)
/-- Bodies around a word. -/
def around (k : Chk) (p : Nat) : List (Nat × Nat × Nat) := k.bodies.filter (fun b => decide (b.2.1 ≤ p) && decide (p ≤ b.2.2))

end Chk

/-- A failure: WORD, CODE, CLAIMED, LIMIT. -/
abbrev Fail := Nat × Nat × Nat × Nat

/-- The failure that comes first: by word, then by code (R184). -/
def minFail : List Fail → Option Fail
  | [] => none
  | f :: fs =>
    match minFail fs with
    | none => some f
    | some g => if g.1 < f.1 ∨ (g.1 = f.1 ∧ g.2.1 < f.2.1) then some g else some f

/-! ### Byte ranges -/

/-- Bytes of a core's memories: buffer 0 to 5 or 6 for the pocket, first byte, length. -/
abbrev Rg := Nat × Int × Nat

/-- Bytes of a buffer operand of `n` elements (R125). -/
def opndRg (r : Regs) (o : Opnd) (w n : Nat) : List Rg :=
  if 6 ≤ o.kind ∨ n = 0 then []
  else
    let off : Int := (o.off : Int) + r.x o.xs
    if o.stride = 0 then [(o.kind, off * w, w)]
    else if o.stride = 1 then [(o.kind, off * w, n * w)]
    else (List.range n).map (fun i => (o.kind, (off + (i * o.stride : Nat)) * w, w))

/-- A format's operand, block-scaled ones included (R72). -/
def fmtRg (r : Regs) (o : Opnd) (fmt n : Nat) : List Rg :=
  if fmt = 7 ∨ fmt = 8 then (if 6 ≤ o.kind then [] else [(o.kind, (o.off : Int) + r.x o.xs, n + n / 32)])
  else opndRg r o (fmtWidth fmt) n

/-- A location of `n` bytes (R156). -/
def locRg (l : Loc) (n : Nat) : List Rg := if l.kind = 7 then [] else [(l.kind, (l.unit : Int) * 64, n)]

/-- Pocket units plus an index. -/
def unitRg (u : Nat) (x : Int) (n : Nat) : Rg := (6, ((u : Int) + x) * 64, n)

/-- Rows and columns of a tile of the program's context. -/
def Chk.mn (k : Chk) (t : Nat) : Nat × Nat := match k.tile t with | some y => (y.m, y.n) | none => (0, 0)

/-- The DMA descriptor or the cord descriptor in a slot. -/
def Chk.dmaAt (k : Chk) (slot : Nat) : DmaDesc := DmaDesc.of (match k.desc slot with | some d => d.words | none => [])
def Chk.cordAt (k : Chk) (slot : Nat) : CordDesc := CordDesc.of (match k.desc slot with | some d => d.words | none => [])

/-- Pocket side of a transfer. -/
def dmaPocket (d : DmaDesc) (x : Int) : List Rg := (List.range d.rows).map (fun i => (6, d.pocketAt x i, d.rowLen))

/-- Width of a VA result, and results per group (R138, R142). -/
def vaDst (op fmt n gl : Nat) : Nat × Nat :=
  if op = 0x10 then (1, n)
  else if 0x30 ≤ op then (4, n / (if gl = 0 then n else 2 ^ gl))
  else (fmtWidth fmt, n)

/-- Bytes that an instruction reads, and bytes that it or its transfer writes, in this core's memories. -/
def Chk.access (k : Chk) (r : Regs) (i : PI) : List Rg × List Rg :=
  match i with
  | .mm mode t _ _ kk aoff axs boff bxs ald bld =>
    let f := modeFmts mode
    ((List.range (k.mn t).1).map (fun j => unitRg (aoff + ald * j) (r.x axs) (kk * fmtWidth f.1)) ++
      (List.range (k.mn t).2).map (fun j => unitRg (boff + bld * j) (r.x bxs) (kk * fmtWidth f.2)), [])
  | .pld tensor sfmt t _ soff sxs =>
    let q := k.mn t
    ([unitRg soff (r.x sxs) ((if tensor then q.1 * q.2 else q.2) * fmtWidth sfmt)], [])
  | .drn t _ _ ofmt _ sc bi et _ rows dst etd scl bia =>
    let n := (k.mn t).2
    ((if sc then locRg scl 4 else []) ++ (if bi then locRg bia (4 * n) else []),
      locRg dst (rows * n * fmtWidth ofmt) ++ (if et then locRg etd (rows * n) else []))
  | .cvt src dst _ n _ d a => (fmtRg r a src n, fmtRg r d dst n)
  | .va op fmt _ n gl _ d a b c =>
    let w := fmtWidth fmt
    let q := vaDst op fmt n gl
    (opndRg r a w (if op = 0x1D then 1 else n) ++ opndRg r b w (if op = 0x1D then 1 else n) ++
      opndRg r c (if op = 0x0F then 1 else w) n, opndRg r d q.1 q.2)
  | .perm fmt n _ d a b => (opndRg r a (fmtWidth fmt) n ++ opndRg r b 4 n, opndRg r d (fmtWidth fmt) n)
  | .copy store vb vunit punit vxs pxs len =>
    let v : Rg := (vb, ((vunit : Int) + r.x vxs) * 64, len * 64)
    let p := unitRg punit (r.x pxs) (len * 64)
    if store then ([v], [p]) else ([p], [v])
  | .dma slot pxs _ _ =>
    let d := k.dmaAt slot
    let p := dmaPocket d (r.x pxs)
    if d.dir = 0 then ([], p) else (p, [])
  | .cord slot _ =>
    let d := k.cordAt slot
    ([(6, (d.xoff : Int) * 64, d.xBytes)], [(6, (d.yoff : Int) * 64, d.yBytes)])
  | .xr wr _ _ loc => if wr then (opndRg r loc 4 2, []) else ([], opndRg r loc 4 2)
  | .mr op sel loc _ =>
    let n := if sel = 2 then 2 else 1
    if op = 0 then ([], opndRg r loc 4 n) else if op = 1 then (opndRg r loc 4 n, []) else ([], [])
  | _ => ([], [])

/-- Index registers that an instruction's operands name, with the offset each is added to and the bound of its field. -/
def indexed (i : PI) : List (Nat × Nat × Nat) :=
  let o := fun (p : Opnd) => (p.xs, p.off, if p.kind = 6 then 8192 else 16384)
  match i with
  | .mm _ _ _ _ _ aoff axs boff bxs _ _ => [(axs, aoff, 4096), (bxs, boff, 4096)]
  | .pld _ _ _ _ soff sxs => [(sxs, soff, 4096)]
  | .cvt _ _ _ _ _ d a => [o d, o a]
  | .va _ _ _ _ _ _ d a b c => [o d, o a, o b, o c]
  | .perm _ _ _ d a b => [o d, o a, o b]
  | .copy _ _ vunit punit vxs pxs _ => [(vxs, vunit, 256), (pxs, punit, 4096)]
  | .xr _ _ _ l => [o l]
  | .mr op _ l _ => if op ≤ 1 then [o l] else []
  | _ => []

/-- The tile an instruction names, if it names one. -/
def tileNamed (i : PI) : Option Nat :=
  match i with
  | .mm _ t _ _ _ _ _ _ _ _ _ => some t
  | .pld _ _ t _ _ _ => some t
  | .drn t _ _ _ _ _ _ _ _ _ _ _ _ _ => some t
  | .cvt _ _ _ _ t _ a => if a.kind = 6 then some t else none
  | .va _ _ _ _ _ t _ a b c => if a.kind = 6 ∨ b.kind = 6 ∨ c.kind = 6 then some t else none
  | .perm _ _ t _ a b => if a.kind = 6 ∨ b.kind = 6 then some t else none
  | .xr _ sel t _ => if sel = 3 then none else some t
  | _ => none

/-- Tile operands of an instruction: the operand and its element count. -/
def tileSources (i : PI) : List (Opnd × Nat) :=
  (match i with
  | .cvt _ _ _ n _ _ a => [(a, n)]
  | .va op _ _ n _ _ _ a b c => let m := if op = 0x1D then 1 else n; [(a, m), (b, m), (c, n)]
  | .perm _ n _ _ a _ => [(a, n)]
  | _ => []).filter (fun p => p.1.kind == 6)

/-! ### Fabric cycles (R94, R129, R177) -/

def lanes (w : Nat) : Nat := if w = 4 then 64 else if w = 2 then 128 else 256

/-- Lane count of the widest format of an instruction. -/
def vaLanes (op fmt n gl : Nat) (tileSrc : Bool) : Nat :=
  if tileSrc then 64 else lanes (max (fmtWidth fmt) (vaDst op fmt n gl).1)

def Chk.cycles (k : Chk) (i : PI) : Nat :=
  match i with
  | .mm mode t _ _ kk _ _ _ _ _ _ =>
    let q := k.mn t
    ceilDiv q.2 16 * ceilDiv kk 32 * max q.1 16 * (if mode ≤ 3 then 1 else if mode ≤ 7 then 4 else 16)
  | .pld _ _ t _ _ _ => ceilDiv ((k.mn t).1 * (k.mn t).2) 64
  | .drn t _ _ _ _ _ _ _ _ rows _ _ _ _ => ceilDiv (rows * (k.mn t).2) 64
  | .cvt src dst _ n _ _ a =>
    if dst = 7 ∨ dst = 8 then 2 * ceilDiv n 64
    else if src = 7 ∨ src = 8 then ceilDiv n 64
    else ceilDiv n (if a.kind = 6 then 64 else lanes (max (fmtWidth src) (fmtWidth dst)))
  | .va op fmt _ n gl _ _ a b c =>
    let l := vaLanes op fmt n gl (a.kind == 6 || b.kind == 6 || c.kind == 6)
    if op = 3 ∨ op = 4 then 8 * ceilDiv n l
    else if 0x30 ≤ op then ceilDiv n 64 + 16
    else if 0x20 ≤ op then 4 * ceilDiv n 64
    else ceilDiv n l
  | .perm _ n _ _ _ _ => ceilDiv n 32
  | .copy _ _ _ _ _ _ len => ceilDiv len 4
  | _ => 1

/-! ### Words one by one -/

/-- The code under which a word that does not decode is refused: 0x2B, whose offending value is FMT (R133, R143), or 0x24. -/
def badWordCode (w v : Nat) : Nat :=
  let f := bits w 53 50
  let w' := w - f * 2 ^ 50 + 4 * 2 ^ 50
  if bits w 63 60 = 4 ∧ 0x0B ≤ bits w 59 54 ∧ bits w 59 54 ≤ 0x0D ∧ (f ≤ 1 ∨ f = 6) ∧ (decodePI w' v).isSome then 0x2B
  else if bits w 63 60 = 5 ∧ (f = 7 ∨ f = 8) ∧ (decodePI w' v).isSome then 0x2B
  else 0x24

/-- Operand rules of the words alone: destination stride, block-scaled stride, tile sources in their places, an immediate for FMODE (R88,
R125, R131). -/
def opndOk (i : PI) : Bool :=
  match i with
  | .cvt src dst _ _ _ d a =>
    d.str != 0 && (a.kind != 6 || src == 4) && ((dst != 7 && dst != 8) || d.str == 1) && ((src != 7 && src != 8) || a.str == 1)
  | .va op fmt _ _ _ _ d a b c => d.str != 0 && (fmt == 4 || (a.kind != 6 && b.kind != 6)) && (c.kind != 6 || (fmt == 4 && op != 0x0F))
  | .perm fmt _ _ d a b => d.str != 0 && (a.kind != 6 || fmt == 4) && b.kind != 6
  | .mr 2 0 _ imm => bits imm 2 0 ≤ 4 && bits imm 6 5 ≤ 2
  | _ => true

/-- Rules of Table 7.24's code 0x2B that a word alone can break (R75, R112, R140), and those on plan entries (R249). -/
def Chk.rule2B (k : Chk) (i : PI) : Option Nat :=
  match i with
  | .cvt _ dst _ n _ _ _ => if (dst = 7 ∨ dst = 8) ∧ n % 32 ≠ 0 then some n else none
  | .va op _ _ n gl _ _ _ _ _ => if 0x30 ≤ op ∧ gl ≠ 0 ∧ n % 2 ^ gl ≠ 0 then some (2 ^ gl) else none
  | .drn _ _ act ofmt _ sc bi et _ _ _ _ _ _ =>
    if et ∧ (ofmt ≠ 1 ∨ sc ∨ bi ∨ act ≠ 0) then some ofmt else none
  | .dma slot _ _ pf => if pf ∧ !k.filler ∧ (k.dmaAt slot).dir ≠ 0 then some slot else none
  | .cl e _ _ =>
    if k.filler then none else
    match k.entryOf e with
    | none => some e
    | some p => if p.system ∨ !covers p.issuer p.icount k.core then some e else none
  | _ => none

/-- Ranges of Table 7.24's code 0x25 that need no path: the tile table, rows, row and column steps, places, slots. -/
def Chk.rule25 (k : Chk) (i : PI) : Option (Nat × Nat) :=
  match tileNamed i with
  | some t =>
    match k.tile t with
    | none => some (t, 0)
    | some y =>
      match i with
      | .mm mode _ _ _ kk _ _ _ _ ald bld =>
        let f := modeFmts mode
        if 64 * ald < kk * fmtWidth f.1 then some (kk * fmtWidth f.1, 64 * ald)
        else if 64 * bld < kk * fmtWidth f.2 then some (kk * fmtWidth f.2, 64 * bld)
        else none
      | .drn _ _ _ _ _ sc bi et row0 rows dst etd scl bia =>
        if dst.kind = 7 ∨ (et ∧ etd.kind = 7) ∨ (sc ∧ scl.kind = 7) ∨ (bi ∧ bia.kind = 7) then some (7, 6)
        else if y.m < row0 + rows then some (row0 + rows, y.m)
        else none
      | _ => none
  | none =>
    let slotOk := fun (slot : Nat) =>
      match k.claim, k.desc slot with
      | some c, some _ => if slot < c.descUnits then none else some (slot, c.descUnits)
      | some c, none => some (slot, c.descUnits)
      | none, _ => some (slot, 0)
    match i with
    | .dma slot _ _ _ => slotOk slot
    | .cord slot _ => slotOk slot
    | _ => none

/-- Flow rules of a word (R151, R166, R167, R172, R173). -/
def Chk.rule27 (k : Chk) (p : Nat) (i : PI) : Bool :=
  let ok := fun (t : Nat) => k.starts.contains t && decide (k.around p = k.around t)
  match i with
  | .jmp t => ok t
  | .brv t _ => !k.filler && decide (k.around p = []) && ok t
  | .loop _ last _ _ =>
    k.starts.contains last && decide (p < last) && decide ((k.around p).length < 4) &&
      (k.around p).all (fun b => decide (last ≤ b.2.2))
  | .step => !k.filler && decide (k.around p = []) && decide (p + 1 = k.limit)
  | .endF => k.filler
  | .bar _ _ lend _ => !(k.filler && lend)
  | .dma _ _ _ pf => !(k.filler && pf)
  | .cl _ _ _ => !k.filler
  | _ => true

/-- Failures of the words one by one. -/
def Chk.wordFails (k : Chk) : List Fail :=
  k.starts.flatMap (fun p =>
    match k.instr p with
    | none =>
      let code := badWordCode (k.wordsAt p).1 (k.wordsAt p).2
      [(p, code, if code = 0x2B then bits (k.wordsAt p).1 53 50 else 0, 0)]
    | some (i, _) =>
      (if opndOk i then [] else [(p, 0x24, 0, 0)]) ++
      (match k.rule25 i with | some (c, l) => [(p, 0x25, c, l)] | none => []) ++
      (if k.rule27 p i then [] else [(p, 0x27, 0, 0)]) ++
      (match k.rule2B i with | some c => [(p, 0x2B, c, 0)] | none => [])) ++
  (if k.filler ∨ (k.starts.filter (fun p => match k.instr p with | some (.step, _) => true | _ => false)).length = 1 then []
   else [(k.limit - 1, 0x27, 0, 0)])

/-! ### Paths -/

/-- A write that may still be under way: tag, transfer (or collective), word of the instruction, device bytes written. -/
structure OutW where
  tag : Nat
  xfer : Bool
  word : Nat
  bytes : List (Nat × Nat)
deriving DecidableEq, Repr

/-- Where a path stands. Tile states: 0 not initialised, 1 live, 2 freed by a DRN. -/
structure Walk where
  pc : Nat
  regs : Regs
  loops : List Loop
  tiles : List Nat
  terms : List Nat
  /-- Run-ahead prefetches not yet waited for: tag, pocket bytes. Squashed bytes that nothing has written again. -/
  pfs : List (Nat × List (Int × Nat))
  squashed : List (Int × Nat)
  outs : List OutW
  /-- Bars passed in the step, by scope 1, 2, 3. -/
  bars : Nat × Nat × Nat
  cycles : Nat
  /-- JMPs taken in the step, with the loops they were taken in: the flow depends on nothing else, so one taken twice alike never
  reaches the end. -/
  jumps : List (Nat × List Loop)
deriving DecidableEq, Repr

/-- What happens on a path, in program order. -/
inductive Evt where
  | fail (f : Fail)
  | bar (word id scope phase : Nat) (lend : Bool)
  /-- A CL, with its index value and the bars passed before it. -/
  | cl (word entry : Nat) (x : Int) (bars : Nat × Nat × Nat)
  /-- Bytes of this device that are written no later than here. -/
  | wrote (word : Nat) (bytes : List (Nat × Nat)) (bars : Nat × Nat × Nat)
  /-- An MM takes a tile to a term count. -/
  | terms (word tile count : Nat)
deriving DecidableEq, Repr

/-- Start of a program: ENTRY, index registers zero (R180). -/
def Chk.start (k : Chk) : Walk :=
  ⟨k.prog.entry, Regs.reset, [], List.replicate 16 0, List.replicate 16 0, [], [], [], (0, 0, 0), 0, []⟩

/-- Remove bytes from a set of byte ranges. -/
def subRg (lo : Int) (n : Nat) (l : List (Int × Nat)) : List (Int × Nat) :=
  l.flatMap (fun q =>
    let e : Int := q.1 + (q.2 : Int)
    let hi : Int := lo + (n : Int)
    if e ≤ lo ∨ hi ≤ q.1 then [q]
    else (if q.1 < lo then [(q.1, (lo - q.1).toNat)] else []) ++ (if hi < e then [(hi, (e - hi).toNat)] else []))

def meets (lo : Int) (n : Nat) (q : Int × Nat) : Bool := decide (lo < q.1 + (q.2 : Int)) && decide (q.1 < lo + (n : Int)) && decide (0 < n)

/-- Bounds of a memory in a context's claim, in bytes. -/
def Chk.bounds (k : Chk) (mem : Nat) : Int × Int :=
  match k.claim with
  | none => (0, 0)
  | some c =>
    if mem = 6 then (64 * (c.pocketBase : Int), 64 * ((c.pocketBase + c.pocketUnits : Nat) : Int))
    else
      let q := nth (0, 0) c.vb mem
      (64 * (q.1 : Int), 64 * ((q.1 + q.2 : Nat) : Int))

/-- A range outside its claim: offending and bounding offset (R127, R157 to R159). -/
def Chk.outside (k : Chk) (g : Rg) : Option (Nat × Nat) :=
  let b := k.bounds g.1
  if g.2.2 = 0 then none
  else if g.2.1 < b.1 then some (unsigned 64 g.2.1, b.1.toNat)
  else if b.2 < g.2.1 + (g.2.2 : Int) then some (unsigned 64 (g.2.1 + (g.2.2 : Int)), b.2.toNat)
  else none

/-- The range meets the descriptor region of its context (R164). -/
def Chk.inDescs (k : Chk) (g : Rg) : Bool :=
  match k.claim with
  | some c => g.1 == 6 && meets g.2.1 g.2.2 (64 * (c.descBase : Int), 64 * c.descUnits)
  | none => false

/-- Device address of pocket bytes. -/
def Chk.dev52 (k : Chk) (gs : List Rg) : List (Nat × Nat) :=
  (gs.filter (fun g => g.1 == 6 && decide (0 < g.2.2))).map (fun g => (pocketAddr k.core g.2.1.toNat, g.2.2))

/-- Own-device bytes on the far side of a write transfer. -/
def Chk.farOwn (k : Chk) (d : DmaDesc) : List (Nat × Nat) :=
  if d.dir = 1 ∧ (d.chipmode = 2 ∨ (d.chipmode = 1 ∧ d.gaddr / 2 ^ 52 = k.dev)) then (List.range d.rows).map (fun r => (d.farAt r, d.rowLen)) else []

/-- Destination bytes of a collective entry at this device (R240, R247). -/
def Chk.dstBytes (k : Chk) (p : PlanEntry) (x : Int) : List (Nat × Nat) :=
  if p.kind = 2 ∨ (p.kind = 1 ∧ p.root = k.dev) ∨ (p.kind = 0 ∧ p.root ≠ k.dev)
  then [(((p.dst % 2 ^ 52 : Nat) + 64 * x).toNat, p.elems * fmtWidth p.ofmt)] else []

/-- Outstanding writes of the tags `t` end here. -/
def Walk.settle (w : Walk) (xfer : Bool) (t : Nat → Bool) : List Evt × Walk :=
  let done := w.outs.filter (fun o => o.xfer == xfer && t o.tag)
  (done.map (fun o => .wrote o.word o.bytes w.bars),
    { w with outs := w.outs.filter (fun o => !(o.xfer == xfer && t o.tag)),
             pfs := if xfer then w.pfs.filter (fun q => !t q.1) else w.pfs })

/-- Tile order (R108, Table 5.7, R131): the failure, and the states and term counts after the instruction. -/
def Chk.tileStep (k : Chk) (w : Walk) (i : PI) : Option Fail × List Evt × Walk :=
  match tileNamed i with
  | none => (none, [], w)
  | some t =>
    let st := nth 0 w.tiles t
    match i with
    | .mm _ _ init _ kk _ _ _ _ _ _ =>
      let n := (if init then 0 else nth 0 w.terms t) + 32 * ceilDiv kk 32
      (if init ∨ st = 1 then none else some (w.pc, 0x26, 0, 0), [.terms w.pc t n],
        { w with tiles := setNth w.tiles t 1, terms := setNth w.terms t n })
    | .pld _ _ _ _ _ _ => (none, [], { w with tiles := setNth w.tiles t 1, terms := setNth w.terms t 0 })
    | .drn _ free _ _ _ _ _ _ _ _ _ _ _ _ =>
      (if st = 1 then none else some (w.pc, 0x26, 0, 0), [], if free then { w with tiles := setNth w.tiles t 2 } else w)
    | .xr _ _ _ _ => (if st = 2 then some (w.pc, 0x26, 0, 0) else none, [], w)
    | _ =>
      let q := k.mn t
      (if st ≠ 1 then some (w.pc, 0x25, t, 0)
       else (tileSources i).findSome? (fun p =>
        let e0 : Int := (p.1.off : Int) + w.regs.x p.1.xs
        let top := e0 + ((p.2 - 1) * p.1.stride : Nat)
        if e0 < 0 ∨ ((q.1 * q.2 : Nat) : Int) ≤ top then some (w.pc, 0x25, unsigned 64 top, q.1 * q.2) else none), [], w)

/-- Segment closures that an MM or a drain adds to the cycles of a Filler bar (R102). -/
def Chk.segCycles (k : Chk) (w : Walk) (i : PI) : Nat :=
  match i with
  | .mm _ t init _ kk _ _ _ _ _ _ =>
    let a := if init then 0 else nth 0 w.terms t
    ((a + 32 * ceilDiv kk 32 - 1) / 2 ^ 23 - (a - 1) / 2 ^ 23) * ceilDiv ((k.mn t).1 * (k.mn t).2) 64
  | .drn t _ _ _ _ _ _ _ _ rows _ _ _ _ => if 2 ^ 23 < nth 0 w.terms t then ceilDiv (rows * (k.mn t).2) 64 else 0
  | _ => 0

/-- Failures of an instruction on a path: indices, bounds, descriptor regions, squashed bytes (R127, R164, R165, R167). -/
def Chk.accessFails (k : Chk) (w : Walk) (i : PI) (rd wr : List Rg) : List Fail :=
  let idx := (indexed i).filter (fun q => q.1 != 0)
  let far := idx.findSome? (fun q =>
    let v : Int := (q.2.1 : Int) + w.regs.x q.1
    if v < 0 ∨ (q.2.2 : Int) ≤ v then some (w.pc, 0x27, 0, 0) else none)
  match far with
  | some f => [f]
  | none =>
    (((rd ++ wr).findSome? k.outside).map (fun q => (w.pc, 0x25, q.1, q.2))).toList ++
    ((wr.find? k.inDescs).map (fun g => (w.pc, 0x25, unsigned 64 g.2.1, (match k.claim with | some c => 64 * c.descBase | none => 0)))).toList ++
    ((rd.find? (fun g => g.1 == 6 && w.squashed.any (meets g.2.1 g.2.2))).map (fun g => (w.pc, 0x2B, unsigned 64 g.2.1, 0))).toList

/-- The path goes on after the instruction of `n` words. -/
def Walk.on (w : Walk) (n : Nat) : Walk :=
  let r := loopNext w.pc (w.pc + n) w.loops w.regs
  { w with pc := r.1, loops := r.2.1, regs := r.2.2 }

/-- Transfers or collectives begin. -/
def Walk.begin (w : Walk) (o : List OutW) (pf : List (Nat × List (Int × Nat))) : Walk :=
  { w with outs := w.outs ++ o, pfs := w.pfs ++ pf }

/-- Source bytes in this core's pocket that a collective reads. -/
def Chk.clReads (k : Chk) (e : Nat) (x : Int) : List Rg :=
  match k.entryOf e with
  | some p =>
    let own := p.isLocal || (clsOf (p.src % 2 ^ 52) == 4 && p.src % 2 ^ 47 / 2 ^ 18 == k.core)
    if own then [(6, ((p.src % 2 ^ 18 : Nat) : Int) + 64 * x, p.elems * fmtWidth p.sfmt)] else []
  | none => []

/-- One instruction of a path under a verdict: its events, and where the path goes on. -/
def Chk.one (k : Chk) (skip : Bool) (w : Walk) : List Evt × Option Walk :=
  match k.instr w.pc with
  | none => ([.fail (w.pc, 0x27, 0, 0)], none)
  | some (i, n) =>
    let acc := k.access w.regs i
    let fails := k.accessFails w i acc.1 acc.2
    let t := k.tileStep w i
    let bad := (fails ++ t.1.toList).map Evt.fail ++ t.2.1
    let sq := (acc.2.filter (fun g => g.1 == 6)).foldl (fun l g => subRg g.2.1 g.2.2 l) w.squashed
    let w1 := { t.2.2 with squashed := sq, cycles := w.cycles + k.cycles i + k.segCycles w i }
    let here : List Evt := match i with
      | .copy _ _ _ _ _ _ _ => [.wrote w.pc (k.dev52 acc.2) w.bars]
      | .drn _ _ _ _ _ _ _ _ _ _ _ _ _ _ => [.wrote w.pc (k.dev52 acc.2) w.bars]
      | _ => []
    match i with
    | .jmp tgt =>
      if w.jumps.contains (w.pc, w.loops) then (bad ++ [.fail (w.pc, 0x27, 0, 0)], none)
      else (bad, some { w1 with pc := tgt, jumps := (w.pc, w.loops) :: w.jumps })
    | .setx x v => (bad, some ({ w1 with regs := w1.regs.setX x (BitVec.ofNat 16 v) }.on n))
    | .loop count last xsel xstep =>
      (bad, some { w1 with pc := w.pc + n, loops := ⟨w.pc + n, last, count, xsel, BitVec.ofNat 16 xstep⟩ :: w1.loops })
    | .brv tgt mask =>
      if skip then
        let gone := w1.pfs.filter (fun q => bit mask q.1)
        (bad, some { w1 with pc := tgt, pfs := w1.pfs.filter (fun q => !bit mask q.1), squashed := w1.squashed ++ gone.flatMap Prod.snd,
                             outs := w1.outs.filter (fun o => !(o.xfer && gone.any (fun q => q.1 == o.tag))) })
      else (bad, some (w1.on n))
    | .waitd mask => let r := w1.settle true (bit mask); (bad ++ r.1, some (r.2.on n))
    | .waitc mask => let r := w1.settle false (bit mask); (bad ++ r.1, some (r.2.on n))
    | .dma slot pxs tag pf =>
      let r := w1.settle true (fun q => q == tag)
      let d := k.dmaAt slot
      let p := dmaPocket d (w.regs.x pxs)
      let o : OutW := ⟨tag, true, w.pc, (if d.dir = 0 then k.dev52 p else []) ++ k.farOwn d⟩
      (bad ++ r.1, some ((r.2.begin [o] (if pf then [(tag, p.map (fun g => (g.2.1, g.2.2)))] else [])).on n))
    | .cord slot tag =>
      let r := w1.settle true (fun q => q == tag)
      let d := k.cordAt slot
      (bad ++ r.1, some ((r.2.begin [⟨tag, true, w.pc, k.dev52 [(6, (d.yoff : Int) * 64, d.yBytes)]⟩] []).on n))
    | .cl e tag xs =>
      let r := w1.settle false (fun q => q == tag)
      let x := w.regs.x xs
      let o : List OutW := match k.entryOf e with
        | some p => [⟨tag, false, w.pc, k.dstBytes p x⟩]
        | none => []
      let sqf : List Evt := if (k.clReads e x).any (fun g => w.squashed.any (meets g.2.1 g.2.2)) then [.fail (w.pc, 0x2B, e, 0)] else []
      (bad ++ r.1 ++ sqf ++ [.cl w.pc e x w.bars], some ((r.2.begin o []).on n))
    | .bar id scope lend phase =>
      let lf : List Evt := if lend && w.tiles.contains 1 then [.fail (w.pc, 0x26, 0, 0)] else []
      let cf : List Evt := if k.filler && decide (imgBarLimit k.img < w.cycles) then [.fail (w.pc, 0x29, w.cycles, imgBarLimit k.img)] else []
      let b := w.bars
      let bars := match scope with
        | 1 => (b.1 + 1, b.2)
        | 2 => (b.1, b.2.1 + 1, b.2.2)
        | 3 => (b.1, b.2.1, b.2.2 + 1)
        | _ => b
      (bad ++ lf ++ cf ++ [.bar w.pc id scope phase lend], some ({ w1 with bars := bars, cycles := 1 }.on n))
    | .step =>
      let lf : List Evt := if w.tiles.contains 1 then [.fail (w.pc, 0x26, 0, 0)] else []
      let r := w1.settle true (fun _ => true)
      let q := r.2.settle false (fun _ => true)
      (bad ++ lf ++ r.1 ++ q.1, some { q.2 with pc := k.prog.entry, loops := [], bars := (0, 0, 0), cycles := 0, pfs := [], jumps := [] })
    | .endF =>
      let cf : List Evt := if imgBarLimit k.img < w.cycles then [.fail (w.pc, 0x29, w.cycles, imgBarLimit k.img)] else []
      (bad ++ cf, none)
    | _ => (bad ++ here, some (w1.on n))

/-- The instruction at a word ends a step or the Filler program. -/
def Chk.ends (k : Chk) (pc : Nat) : Bool := match k.instr pc with | some (.step, _) => true | some (.endF, _) => true | _ => false

/-- A path from `w` to the end of the step. Four nested loops of 2^20 iterations over 4,096 words bound its length; a longer
one never reaches the end. -/
def Chk.path (k : Chk) (skip : Bool) : Nat → Walk → List Evt × Option Walk
  | 0, w => ([.fail (w.pc, 0x27, 0, 0)], none)
  | f + 1, w =>
    let r := k.one skip w
    if k.ends w.pc then r
    else
      match r.2 with
      | none => (r.1, none)
      | some w' => let q := k.path skip f w'; (r.1 ++ q.1, q.2)

def pathFuel : Nat := 2 ^ 93

/-! ### All steps of the job's cores together (R152) -/

/-- One step of every core under one verdict: each core's events; the cores' states after it, when every core reaches its
STEP. -/
def stepAll (ks : List Chk) (skip : Bool) (ws : List Walk) : List (List Evt) × Option (List Walk) :=
  let rs := (ks.zip ws).map (fun p => p.1.path skip pathFuel p.2)
  let ends := rs.filterMap Prod.snd
  (rs.map Prod.fst, if ends.length = ks.length then some ends else none)

/-- States in which steps begin: those of LOAD, and those that a step leaves. -/
def begins (ks : List Chk) : Nat → List (List Walk) → List (List Walk) → List (List Walk)
  | 0, _, seen => seen
  | f + 1, front, seen =>
    let new := ((front.flatMap (fun ws => [false, true].filterMap (fun v => (stepAll ks v ws).2))).eraseDups).filter
      (fun ws => !seen.contains ws)
    if new = [] then seen else begins ks f new (seen ++ new)

/-- Every step of the job's programs: the events of each core in the order of `ks`. -/
def allSteps (img : List Byte) (ks : List Chk) : List (List (List Evt)) :=
  let first := [ks.map Chk.start]
  let fuel := if imgSteps img = 0 then 2 ^ (4096 * (ks.length + 1)) else imgSteps img - 1
  (begins ks fuel first first).flatMap (fun ws => [false, true].map (fun v => (stepAll ks v ws).1))

/-- Programs of a context on their cores, in record order and by ascending core. -/
def chksFor (img : List Byte) (dev ctx : Nat) : List Chk :=
  let pl := planFor img dev
  ((progsFor img dev).filter (fun p => p.2.ctx == ctx)).flatMap (fun p =>
    (rangeFrom p.2.first p.2.count).map (fun c => ⟨img, dev, c, p.1, p.2, pl.2.1, pl.2.2⟩))

/-! ### Rules on the events of a step -/

/-- The core at whose group a scope's join gathers: cores of one swatch, panel or device share the number. -/
def scopeOf (scope core : Nat) : Nat := if scope = 1 then core / 64 else if scope = 2 then core / 3072 else 0

/-- Bars of a scope, in order: word and number. -/
def barsOf (scope : Nat) (es : List Evt) : List (Nat × Nat) :=
  es.filterMap (fun e => match e with | .bar w id sc _ _ => if sc = scope then some (w, id) else none | _ => none)

/-- Where a sequence of bars departs from another's: the word of the first that differs, or the last word. -/
def departs (last : Nat) : List (Nat × Nat) → List (Nat × Nat) → Option Nat
  | [], [] => none
  | [], _ :: _ => some last
  | (w, _) :: _, [] => some w
  | (w, a) :: xs, (_, b) :: ys => if a = b then departs last xs ys else some w

/-- R170: the core's bars against those of the first core of each of its scopes. -/
def barFails (ks : List Chk) (evs : List (List Evt)) (k : Chk) (es : List Evt) : List Fail :=
  [1, 2, 3].filterMap (fun sc =>
    match (ks.zip evs).find? (fun q => scopeOf sc q.1.core == scopeOf sc k.core) with
    | some q => (departs (k.limit - 1) (barsOf sc es) (barsOf sc q.2)).map (fun w => (w, 0x28, 0, 0))
    | none => none)

/-- R307: READY and RELEASE bars of the channels alternate, PASSES times each, with SCOPE 3. -/
def feedBarFails (img : List Byte) (dev : Nat) (k : Chk) (es : List Evt) : List Fail :=
  let chans := (seqsFor img dev).flatMap SeqSec.channels
  let passes := match seqsFor img dev with | q :: _ => q.passes | [] => 0
  chans.flatMap (fun (c : ChanRec) =>
    let bs := es.filterMap (fun e => match e with
      | .bar w id sc _ _ => if id = c.readyBar ∨ id = c.releaseBar then some (w, id, sc) else none
      | _ => none)
    (match ((List.range bs.length).zip bs).find? (fun p =>
        p.2.2.2 != 3 || p.2.2.1 != (if p.1 % 2 = 0 then c.readyBar else c.releaseBar) || decide (2 * passes ≤ p.1)) with
      | some p => [(p.2.1, 0x28, 0, 0)]
      | none => if bs.length = 2 * passes then [] else [(k.limit - 1, 0x28, 0, 0)]))

/-- R102: a tile whose term count passes 2^23 has a segment area. -/
def segFails (k : Chk) (es : List Evt) : List Fail :=
  es.filterMap (fun e => match e with
    | .terms w t n =>
      match k.tile t with
      | some y => if 2 ^ 23 < n ∧ y.seg = 0xFFFF then
          some (w, 0x2A, es.foldl (fun m e => match e with | .terms _ t' n' => if t' = t then max m n' else m | _ => m) 0, 2 ^ 23)
        else none
      | none => none
    | _ => none)

/-- R262: a GATE issue after the step's first PHASE 3 bar. -/
def gateFails (k : Chk) : Bool → List Evt → List Fail
  | _, [] => []
  | late, .bar _ _ _ ph _ :: es => gateFails k (late || ph == 3) es
  | late, .cl w e _ _ :: es =>
    (match k.entryOf e with | some p => if late && p.gate then [(w, 0x2B, e, 0)] else [] | none => []) ++ gateFails k late es
  | late, _ :: es => gateFails k late es

/-- Source bytes that a GATE issue of KIND 1 or 2 reads at this device (R247, R262). -/
def gateBytes (k : Chk) (e : Nat) (x : Int) : List (Nat × Nat) :=
  match k.entryOf e with
  | none => []
  | some p =>
    if !p.gate ∨ p.kind = 0 then []
    else
      let at_ := fun (a : Nat) => (((if p.isLocal then a % 2 ^ 52 / 2 ^ 32 * 2 ^ 32 + k.core * 2 ^ 18 + a % 2 ^ 18 else a % 2 ^ 52 : Nat) : Int) + 64 * x).toNat
      if p.maskCount = 0 then [(at_ p.src, p.elems * fmtWidth p.sfmt)]
      else (((k.masks.drop p.maskFirst).take p.maskCount).filter (fun m => m.device == k.dev)).map (fun m =>
        (at_ m.src, min (m.chunks * p.perChunk) (p.elems - m.first * p.perChunk) * fmtWidth p.sfmt))

def hits (a b : List (Nat × Nat)) : Bool :=
  a.any (fun x => b.any (fun y => decide (x.1 < y.1 + y.2) && decide (y.1 < x.1 + x.2)))

/-- The event at `q` of core `b` comes before the one at `p` of core `a` in every order that the bars leave open. -/
def surelyBefore (a b : Nat) (p q : Nat × Nat × Nat) : Bool :=
  (scopeOf 1 a == scopeOf 1 b && decide (q.1 < p.1)) || (scopeOf 2 a == scopeOf 2 b && decide (q.2.1 < p.2.1)) || decide (q.2.2 < p.2.2)

/-- GATE sources read in a step: core, bars before the CL, bytes. -/
def gates (ks : List Chk) (evs : List (List Evt)) : List (Nat × (Nat × Nat × Nat) × List (Nat × Nat)) :=
  (ks.zip evs).flatMap (fun q => q.2.filterMap (fun e => match e with
    | .cl _ n x b => match gateBytes q.1 n x with | [] => none | bs => some (q.1.core, b, bs)
    | _ => none))

/-- R262: writes of this core after its own GATE issue, in program order. -/
def ownGateFails (k : Chk) : List (Nat × Nat) → List Evt → List Fail
  | _, [] => []
  | held, .cl _ n x _ :: es => ownGateFails k (held ++ gateBytes k n x) es
  | held, .wrote w bs _ :: es => (if hits held bs then [(w, 0x2B, (nth (0, 0) bs 0).1, 0)] else []) ++ ownGateFails k held es
  | held, _ :: es => ownGateFails k held es

/-- R262: writes of this core that no bar puts before another core's GATE issue. -/
def otherGateFails (k : Chk) (gs : List (Nat × (Nat × Nat × Nat) × List (Nat × Nat))) (es : List Evt) : List Fail :=
  es.filterMap (fun e => match e with
    | .wrote w bs b =>
      if gs.any (fun g => g.1 != k.core && hits g.2.2 bs && (k.filler || !surelyBefore g.1 k.core g.2.1 b))
      then some (w, 0x2B, (nth (0, 0) bs 0).1, 0) else none
    | _ => none)

/-- Failures of one core in one step. -/
def stepFails (ks : List Chk) (evs : List (List Evt)) (k : Chk) (es : List Evt) : List Fail :=
  es.filterMap (fun e => match e with | .fail f => some f | _ => none) ++ barFails ks evs k es ++ feedBarFails k.img k.dev k es ++
    segFails k es ++ gateFails k false es ++ ownGateFails k [] es ++ otherGateFails k (gates ks evs) es

/-- Events of a Filler program from its ENTRY to END. -/
def Chk.fillerRun (k : Chk) : List Evt := (k.path false pathFuel k.start).1

/-- Every failure of a program on its core (DEDUCED, log 52). -/
def Chk.fails (k : Chk) (jobs fills : List Chk) (steps : List (List (List Evt))) : List Fail :=
  k.wordFails ++
  (if k.filler then
    let evs := fills.map Chk.fillerRun
    let es := k.fillerRun
    es.filterMap (fun e => match e with | .fail f => some f | _ => none) ++ barFails fills evs k es ++ segFails k es ++
      steps.flatMap (fun st => otherGateFails k (gates jobs st) es)
   else
    steps.flatMap (fun st =>
      match ((jobs.zip st).find? (fun q => q.1.core == k.core)) with
      | some q => stepFails jobs st k q.2
      | none => []))

/-- FMODE of a record holds no reserved encoding and no reserved bit (R87, R88, R180). -/
def fmodeOk (v : Nat) : Bool := bits v 2 0 ≤ 4 && bits v 6 5 ≤ 2 && (bits v 31 8 == 0) && bits v 4 3 == 0

/-- R180, R481: fields of a core-program record, the same core twice, the instruction-store claim. -/
def progRecFails (img : List Byte) (dev : Nat) (i : Nat) (p : At × Prog) : Option Refuse :=
  let c := p.2
  let before := (progsFor img dev).take i
  let twice := (rangeFrom c.first c.count).find? (fun n => before.any (fun q => q.2.ctx == c.ctx && covers q.2.first q.2.count n))
  let beyond := (rangeFrom c.first c.count).findSome? (fun n =>
    match claimAt (claimsFor img dev) n c.ctx with
    | none => some (n, c.base + c.words.length, 0)
    | some y =>
      if c.base < y.istBase then some (n, c.base, y.istBase)
      else if y.istBase + y.istWords < c.base + c.words.length then some (n, c.base + c.words.length, y.istBase + y.istWords)
      else none)
  firstOf [
    need (decide (1 ≤ c.count) && decide (c.first + c.count ≤ 12288) && decide (c.ctx ≤ 1) && decide (c.strict ≤ 1) && fmodeOk c.fmode)
      (p.1.no 0x24 0 0),
    match beyond with | some (n, a, l) => some (p.1.noC n 0x25 a l) | none => none,
    match twice with | some n => some (p.1.noC n 0x2B n 0) | none => none]

/-- ENTRY names the first word of an instruction (R151). -/
def Chk.entryFails (k : Chk) : List Fail := if k.starts.contains k.prog.entry then [] else [(k.prog.entry, 0x27, 0, 0)]

/-- Stage 5 of R184: programs in section and record order, by ascending core and ascending word. -/
def checkPrograms (img : List Byte) (dev : Nat) : Option Refuse :=
  let ps := progsFor img dev
  let jobs := chksFor img dev 0
  let fills := chksFor img dev 1
  let steps := allSteps img jobs
  ((List.range ps.length).zip ps).findSome? (fun q =>
    firstOf [
      progRecFails img dev q.1 q.2,
      ((jobs ++ fills).filter (fun k => decide (k.at_ = q.2.1))).findSome? (fun k =>
        (minFail (k.entryFails ++ k.fails jobs fills steps)).map (fun f => ⟨f.2.1, q.2.1.1, q.2.1.2, k.core, f.1, f.2.2.1, f.2.2.2⟩))])

end Sys2Proof.Machine
end

