-- ==== Sys2Proof/Machine/Ribber.lean ====
section
/-! DEFINITION. The ribber (06): conversions, arithmetic, compare and select, reductions, permutation, and the reads and
writes of exception records and mode registers (R83, R125 to R148, R160 to R162). -/

namespace Sys2Proof.Machine

/-! ### Shapes of a vector instruction -/

/-- Write the result elements, OR the flags into FSTAT, go on (R89, R128, R132). -/
def State.vecDone (s : State) (core : Nat) (c : CtxId) (w dfmt : Nat) (d : Opnd) (r : List Nat × Flg) : State :=
  ((s.writeOpnd core c dfmt d r.1).flagCtx core c r.2).advance core c w

/-- FMODE of a context. -/
def State.fmode (s : State) (core : Nat) (c : CtxId) : Nat := ((s.core core).ctx c).regs.fmode.toNat

/-- A VA instruction of one source. `lane` takes the format, the rounding and the element. -/
def vaUnary (op : Nat) (lane : Nat → RMode → Nat → Nat × Flg) (core : Nat) (c : CtxId) (i : PI) (w : Nat)
    (s : State) : Option State :=
  match i with
  | .va op' fmt rm n _ tile d a _ _ =>
    if op' = op then
      let x := s.readOpnd core c fmt n tile a
      let r := mapFlags (lane fmt (opMode rm (s.fmode core c))) x.1
      some (x.2.2.vecDone core c w fmt d (r.1, r.2 ||| x.2.1))
    else none
  | _ => none

/-- A VA instruction of two sources. -/
def vaBinary (op : Nat) (lane : Nat → RMode → Nat → Nat → Nat × Flg) (core : Nat) (c : CtxId) (i : PI) (w : Nat)
    (s : State) : Option State :=
  match i with
  | .va op' fmt rm n _ tile d a b _ =>
    if op' = op then
      let x := s.readOpnd core c fmt n tile a
      let y := x.2.2.readOpnd core c fmt n tile b
      let r := zipFlags (lane fmt (opMode rm (s.fmode core c))) x.1 y.1
      some (y.2.2.vecDone core c w fmt d (r.1, r.2 ||| x.2.1 ||| y.2.1))
    else none
  | _ => none

/-- An operand that names a tile waits for the tile's settle token (R131). -/
def opSettled (s : State) (core : Nat) (c : CtxId) (tile : Nat) (os : List Opnd) : Bool :=
  os.all (fun o => o.kind != 6) || ((s.core core).tile c tile).settled

/-- Tile operands of a vector instruction are settled. -/
def vecReady (s : State) (core : Nat) (c : CtxId) : PI → Bool
  | .va _ _ _ _ _ tile _ a b d => opSettled s core c tile [a, b, d]
  | .cvt _ _ _ _ tile _ a => opSettled s core c tile [a]
  | .perm _ _ tile _ a b => opSettled s core c tile [a, b]
  | _ => true

/-- Issue a vector instruction once its tile operand is settled (DESIGN CHOICE, log 1). -/
def State.issueVec (s : State) (core : Nat) (c : CtxId) (k : PI → Nat → State → Option State) : State :=
  s.issue core c (fun i w t => if vecReady t core c i then k i w t else none)

/-! ### Element operations (Tables 6.3 to 6.5) -/

/-- ADD: addition (R132). -/
def laneAdd (fmt : Nat) (md : RMode) (a b : Nat) : Nat × Flg := fadd (longFmt fmt) md a b
/-- ADD: the core's next instruction. -/
def execAdd (core : CoreId) (c : CtxId) (s : State) : Out := .next (s.issueVec core.val c (vaBinary 0x00 laneAdd core.val c))

/-- SUB: subtraction (R132). -/
def laneSub (fmt : Nat) (md : RMode) (a b : Nat) : Nat × Flg := fsub (longFmt fmt) md a b
/-- SUB: the core's next instruction. -/
def execSub (core : CoreId) (c : CtxId) (s : State) : Out := .next (s.issueVec core.val c (vaBinary 0x01 laneSub core.val c))

/-- MUL: multiplication (R132). -/
def laneMul (fmt : Nat) (md : RMode) (a b : Nat) : Nat × Flg := fmul (longFmt fmt) md a b
/-- MUL: the core's next instruction. -/
def execMul (core : CoreId) (c : CtxId) (s : State) : Out := .next (s.issueVec core.val c (vaBinary 0x02 laneMul core.val c))

/-- DIV: division (R132). -/
def laneDiv (fmt : Nat) (md : RMode) (a b : Nat) : Nat × Flg := fdiv (longFmt fmt) md a b
/-- DIV: the core's next instruction. -/
def execDiv (core : CoreId) (c : CtxId) (s : State) : Out := .next (s.issueVec core.val c (vaBinary 0x03 laneDiv core.val c))

/-- SQRT: squareRoot (R132). -/
def laneSqrt (fmt : Nat) (md : RMode) (a : Nat) : Nat × Flg := fsqrt (longFmt fmt) md a
/-- SQRT: the core's next instruction. -/
def execSqrt (core : CoreId) (c : CtxId) (s : State) : Out := .next (s.issueVec core.val c (vaUnary 0x04 laneSqrt core.val c))

/-- MIN: minimum, NaN-propagating, -0 below +0 (R132). -/
def laneMin (fmt : Nat) (_md : RMode) (a b : Nat) : Nat × Flg := fminmax (longFmt fmt) false a b
/-- MIN: the core's next instruction. -/
def execMin (core : CoreId) (c : CtxId) (s : State) : Out := .next (s.issueVec core.val c (vaBinary 0x06 laneMin core.val c))

/-- MAX: maximum, NaN-propagating, -0 below +0 (R132). -/
def laneMax (fmt : Nat) (_md : RMode) (a b : Nat) : Nat × Flg := fminmax (longFmt fmt) true a b
/-- MAX: the core's next instruction. -/
def execMax (core : CoreId) (c : CtxId) (s : State) : Out := .next (s.issueVec core.val c (vaBinary 0x07 laneMax core.val c))

/-- MINN: minimumNumber: a number wins over a NaN (R132). -/
def laneMinn (fmt : Nat) (_md : RMode) (a b : Nat) : Nat × Flg := fminmaxNum (longFmt fmt) false a b
/-- MINN: the core's next instruction. -/
def execMinn (core : CoreId) (c : CtxId) (s : State) : Out := .next (s.issueVec core.val c (vaBinary 0x08 laneMinn core.val c))

/-- MAXN: maximumNumber: a number wins over a NaN (R132). -/
def laneMaxn (fmt : Nat) (_md : RMode) (a b : Nat) : Nat × Flg := fminmaxNum (longFmt fmt) true a b
/-- MAXN: the core's next instruction. -/
def execMaxn (core : CoreId) (c : CtxId) (s : State) : Out := .next (s.issueVec core.val c (vaBinary 0x09 laneMaxn core.val c))

/-- RINT: roundToIntegralExact (R132). -/
def laneRint (fmt : Nat) (md : RMode) (a : Nat) : Nat × Flg := frint (longFmt fmt) md a
/-- RINT: the core's next instruction. -/
def execRint (core : CoreId) (c : CtxId) (s : State) : Out := .next (s.issueVec core.val c (vaUnary 0x0A laneRint core.val c))

/-- ABS: the sign bit cleared, no flag (R133). -/
def laneAbs (fmt : Nat) (_md : RMode) (a : Nat) : Nat × Flg := (a % (longFmt fmt).sgn, 0)
/-- ABS: the core's next instruction. -/
def execAbs (core : CoreId) (c : CtxId) (s : State) : Out := .next (s.issueVec core.val c (vaUnary 0x0B laneAbs core.val c))

/-- NEG: the sign bit flipped, no flag (R133). -/
def laneNeg (fmt : Nat) (_md : RMode) (a : Nat) : Nat × Flg := (fneg (longFmt fmt) a, 0)
/-- NEG: the core's next instruction. -/
def execNeg (core : CoreId) (c : CtxId) (s : State) : Out := .next (s.issueVec core.val c (vaUnary 0x0C laneNeg core.val c))

/-- CPS: `a` with the sign of `b`, no flag (R133). -/
def laneCps (fmt : Nat) (_md : RMode) (a b : Nat) : Nat × Flg := (a % (longFmt fmt).sgn + signCode (longFmt fmt) ((longFmt fmt).neg b), 0)
/-- CPS: the core's next instruction. -/
def execCps (core : CoreId) (c : CtxId) (s : State) : Out := .next (s.issueVec core.val c (vaBinary 0x0D laneCps core.val c))

/-- MOV: bits copied unchanged (R133). -/
def laneMov (_fmt : Nat) (_md : RMode) (a : Nat) : Nat × Flg := (a, 0)
/-- MOV: the core's next instruction. -/
def execMov (core : CoreId) (c : CtxId) (s : State) : Out := .next (s.issueVec core.val c (vaUnary 0x0E laneMov core.val c))

/-- IADD: sum modulo 2^32 (R134). -/
def laneIadd (_fmt : Nat) (_md : RMode) (a b : Nat) : Nat × Flg := ((a + b) % 2 ^ 32, 0)
/-- IADD: the core's next instruction. -/
def execIadd (core : CoreId) (c : CtxId) (s : State) : Out := .next (s.issueVec core.val c (vaBinary 0x11 laneIadd core.val c))

/-- ISUB: difference modulo 2^32 (R134). -/
def laneIsub (_fmt : Nat) (_md : RMode) (a b : Nat) : Nat × Flg := ((a + 2 ^ 32 - b % 2 ^ 32) % 2 ^ 32, 0)
/-- ISUB: the core's next instruction. -/
def execIsub (core : CoreId) (c : CtxId) (s : State) : Out := .next (s.issueVec core.val c (vaBinary 0x12 laneIsub core.val c))

/-- IMUL: low 32 bits of the product (R134). -/
def laneImul (_fmt : Nat) (_md : RMode) (a b : Nat) : Nat × Flg := (a * b % 2 ^ 32, 0)
/-- IMUL: the core's next instruction. -/
def execImul (core : CoreId) (c : CtxId) (s : State) : Out := .next (s.issueVec core.val c (vaBinary 0x13 laneImul core.val c))

/-- IMIN: signed minimum (R134). -/
def laneImin (_fmt : Nat) (_md : RMode) (a b : Nat) : Nat × Flg := (if signed 32 a ≤ signed 32 b then a else b, 0)
/-- IMIN: the core's next instruction. -/
def execImin (core : CoreId) (c : CtxId) (s : State) : Out := .next (s.issueVec core.val c (vaBinary 0x14 laneImin core.val c))

/-- IMAX: signed maximum (R134). -/
def laneImax (_fmt : Nat) (_md : RMode) (a b : Nat) : Nat × Flg := (if signed 32 b ≤ signed 32 a then a else b, 0)
/-- IMAX: the core's next instruction. -/
def execImax (core : CoreId) (c : CtxId) (s : State) : Out := .next (s.issueVec core.val c (vaBinary 0x15 laneImax core.val c))

/-- AND: bitwise AND (R134). -/
def laneAnd (_fmt : Nat) (_md : RMode) (a b : Nat) : Nat × Flg := (a &&& b, 0)
/-- AND: the core's next instruction. -/
def execAnd (core : CoreId) (c : CtxId) (s : State) : Out := .next (s.issueVec core.val c (vaBinary 0x16 laneAnd core.val c))

/-- OR: bitwise OR (R134). -/
def laneOr (_fmt : Nat) (_md : RMode) (a b : Nat) : Nat × Flg := (a ||| b, 0)
/-- OR: the core's next instruction. -/
def execOr (core : CoreId) (c : CtxId) (s : State) : Out := .next (s.issueVec core.val c (vaBinary 0x17 laneOr core.val c))

/-- XOR: bitwise XOR (R134). -/
def laneXor (_fmt : Nat) (_md : RMode) (a b : Nat) : Nat × Flg := (a ^^^ b, 0)
/-- XOR: the core's next instruction. -/
def execXor (core : CoreId) (c : CtxId) (s : State) : Out := .next (s.issueVec core.val c (vaBinary 0x18 laneXor core.val c))

/-- NOT: bitwise complement (R134). -/
def laneNot (fmt : Nat) (_md : RMode) (a : Nat) : Nat × Flg := ((2 ^ (8 * fmtWidth fmt) - 1) ^^^ a, 0)
/-- NOT: the core's next instruction. -/
def execNot (core : CoreId) (c : CtxId) (s : State) : Out := .next (s.issueVec core.val c (vaUnary 0x19 laneNot core.val c))

/-- SHL: shift left by b mod 32 (R134). -/
def laneShl (_fmt : Nat) (_md : RMode) (a b : Nat) : Nat × Flg := (a * 2 ^ (b % 32) % 2 ^ 32, 0)
/-- SHL: the core's next instruction. -/
def execShl (core : CoreId) (c : CtxId) (s : State) : Out := .next (s.issueVec core.val c (vaBinary 0x1A laneShl core.val c))

/-- SHRL: logical shift right by b mod 32 (R134). -/
def laneShrl (_fmt : Nat) (_md : RMode) (a b : Nat) : Nat × Flg := (a / 2 ^ (b % 32), 0)
/-- SHRL: the core's next instruction. -/
def execShrl (core : CoreId) (c : CtxId) (s : State) : Out := .next (s.issueVec core.val c (vaBinary 0x1B laneShrl core.val c))

/-- SHRA: arithmetic shift right by b mod 32 (R134). -/
def laneShra (_fmt : Nat) (_md : RMode) (a b : Nat) : Nat × Flg := (unsigned 32 (signed 32 a / (2 ^ (b % 32) : Int)), 0)
/-- SHRA: the core's next instruction. -/
def execShra (core : CoreId) (c : CtxId) (s : State) : Out := .next (s.issueVec core.val c (vaBinary 0x1C laneShra core.val c))

/-- EXP2: 2^x within 1 ulp (R136, R137). -/
def laneExp2 (fmt : Nat) (_md : RMode) (a : Nat) : Nat × Flg := approxIn (longFmt fmt) 0x20 a
/-- EXP2: the core's next instruction. -/
def execExp2 (core : CoreId) (c : CtxId) (s : State) : Out := .next (s.issueVec core.val c (vaUnary 0x20 laneExp2 core.val c))

/-- EXP: e^x within 2 ulp (R136, R137). -/
def laneExp (fmt : Nat) (_md : RMode) (a : Nat) : Nat × Flg := approxIn (longFmt fmt) 0x21 a
/-- EXP: the core's next instruction. -/
def execExp (core : CoreId) (c : CtxId) (s : State) : Out := .next (s.issueVec core.val c (vaUnary 0x21 laneExp core.val c))

/-- LOG2: log2 x within 1 ulp (R136, R137). -/
def laneLog2 (fmt : Nat) (_md : RMode) (a : Nat) : Nat × Flg := approxIn (longFmt fmt) 0x22 a
/-- LOG2: the core's next instruction. -/
def execLog2 (core : CoreId) (c : CtxId) (s : State) : Out := .next (s.issueVec core.val c (vaUnary 0x22 laneLog2 core.val c))

/-- LOG: ln x within 2 ulp (R136, R137). -/
def laneLog (fmt : Nat) (_md : RMode) (a : Nat) : Nat × Flg := approxIn (longFmt fmt) 0x23 a
/-- LOG: the core's next instruction. -/
def execLog (core : CoreId) (c : CtxId) (s : State) : Out := .next (s.issueVec core.val c (vaUnary 0x23 laneLog core.val c))

/-- RCP: 1/x within 1 ulp (R136, R137). -/
def laneRcp (fmt : Nat) (_md : RMode) (a : Nat) : Nat × Flg := approxIn (longFmt fmt) 0x24 a
/-- RCP: the core's next instruction. -/
def execRcp (core : CoreId) (c : CtxId) (s : State) : Out := .next (s.issueVec core.val c (vaUnary 0x24 laneRcp core.val c))

/-- RSQRT: 1/√x within 1 ulp (R136, R137). -/
def laneRsqrt (fmt : Nat) (_md : RMode) (a : Nat) : Nat × Flg := approxIn (longFmt fmt) 0x25 a
/-- RSQRT: the core's next instruction. -/
def execRsqrt (core : CoreId) (c : CtxId) (s : State) : Out := .next (s.issueVec core.val c (vaUnary 0x25 laneRsqrt core.val c))

/-- TANH: tanh x within 2 ulp (R136, R137). -/
def laneTanh (fmt : Nat) (_md : RMode) (a : Nat) : Nat × Flg := approxIn (longFmt fmt) 0x26 a
/-- TANH: the core's next instruction. -/
def execTanh (core : CoreId) (c : CtxId) (s : State) : Out := .next (s.issueVec core.val c (vaUnary 0x26 laneTanh core.val c))

/-- SIGM: the logistic sigmoid within 2 ulp (R136, R137). -/
def laneSigm (fmt : Nat) (_md : RMode) (a : Nat) : Nat × Flg := approxIn (longFmt fmt) 0x27 a
/-- SIGM: the core's next instruction. -/
def execSigm (core : CoreId) (c : CtxId) (s : State) : Out := .next (s.issueVec core.val c (vaUnary 0x27 laneSigm core.val c))

/-- SIN: sin x for |x| ≤ 2^16 (R136, R137). -/
def laneSin (fmt : Nat) (_md : RMode) (a : Nat) : Nat × Flg := approxIn (longFmt fmt) 0x28 a
/-- SIN: the core's next instruction. -/
def execSin (core : CoreId) (c : CtxId) (s : State) : Out := .next (s.issueVec core.val c (vaUnary 0x28 laneSin core.val c))

/-- COS: cos x for |x| ≤ 2^16 (R136, R137). -/
def laneCos (fmt : Nat) (_md : RMode) (a : Nat) : Nat × Flg := approxIn (longFmt fmt) 0x29 a
/-- COS: the core's next instruction. -/
def execCos (core : CoreId) (c : CtxId) (s : State) : Out := .next (s.issueVec core.val c (vaUnary 0x29 laneCos core.val c))

/-- FMA: a × b + c rounded once (R132). -/
def fmaEffect (core : Nat) (c : CtxId) (i : PI) (w : Nat) (s : State) : Option State :=
  match i with
  | .va 0x05 fmt rm n _ tile d a b e =>
    let x := s.readOpnd core c fmt n tile a
    let y := x.2.2.readOpnd core c fmt n tile b
    let z := y.2.2.readOpnd core c fmt n tile e
    let md := opMode rm (s.fmode core c)
    let r := (x.1.zip (y.1.zip z.1)).map (fun p => ffma (longFmt fmt) md p.1 p.2.1 p.2.2)
    some (z.2.2.vecDone core c w fmt d
      (r.map Prod.fst, Flg.union (r.map Prod.snd) ||| x.2.1 ||| y.2.1 ||| z.2.1))
  | _ => none
/-- FMA: the core's next instruction. -/
def execFma (core : CoreId) (c : CtxId) (s : State) : Out := .next (s.issueVec core.val c (fmaEffect core.val c))

/-- SEL: bit 0 of the mask element chooses a or b, bits unchanged (R139). -/
def selEffect (core : Nat) (c : CtxId) (i : PI) (w : Nat) (s : State) : Option State :=
  match i with
  | .va 0x0F fmt _ n _ tile d a b m =>
    let x := s.readOpnd core c fmt n tile a
    let y := x.2.2.readOpnd core c fmt n tile b
    let z := y.2.2.readOpnd core c 6 n tile m
    let r := (x.1.zip (y.1.zip z.1)).map (fun p => if p.2.2 % 2 = 1 then p.1 else p.2.1)
    some (z.2.2.vecDone core c w fmt d (r, x.2.1 ||| y.2.1 ||| z.2.1))
  | _ => none
/-- SEL: the core's next instruction. -/
def execSel (core : CoreId) (c : CtxId) (s : State) : Out := .next (s.issueVec core.val c (selEffect core.val c))

/-- Compare two elements under a predicate: the mask element and the flags (R138). -/
def cmpEl (fmt pred a b : Nat) : Nat × Flg :=
  let o : Ord4 × Flg :=
    if fmt = 5 then
      (if signed 32 a < signed 32 b then .lt else if a = b then .eq else .gt, 0)
    else if fmt ≤ 1 then fcmp b32 (widenEl fmt a).1 (widenEl fmt b).1
    else fcmp (longFmt fmt) a b
  (if o.1.holds pred then 1 else 0, o.2)

/-- CMP: writes a U8 mask; RM holds the predicate (R138, R161). -/
def cmpEffect (core : Nat) (c : CtxId) (i : PI) (w : Nat) (s : State) : Option State :=
  match i with
  | .va 0x10 fmt rm n _ tile d a b _ =>
    let x := s.readOpnd core c fmt n tile a
    let y := x.2.2.readOpnd core c fmt n tile b
    let r := zipFlags (cmpEl fmt rm) x.1 y.1
    some (y.2.2.vecDone core c w 6 d (r.1, r.2 ||| x.2.1 ||| y.2.1))
  | _ => none
/-- CMP: the core's next instruction. -/
def execCmp (core : CoreId) (c : CtxId) (s : State) : Out := .next (s.issueVec core.val c (cmpEffect core.val c))

/-- IOTA: d[i] := a + i × b, a and b read as scalars (R134). -/
def iotaEffect (core : Nat) (c : CtxId) (i : PI) (w : Nat) (s : State) : Option State :=
  match i with
  | .va 0x1D fmt _ n _ tile d a b _ =>
    let x := s.readOpnd core c fmt 1 tile a
    let y := x.2.2.readOpnd core c fmt 1 tile b
    let r := (List.range n).map (fun j => (nth 0 x.1 0 + j * nth 0 y.1 0) % 2 ^ 32)
    some (y.2.2.vecDone core c w fmt d (r, 0))
  | _ => none
/-- IOTA: the core's next instruction. -/
def execIota (core : CoreId) (c : CtxId) (s : State) : Out := .next (s.issueVec core.val c (iotaEffect core.val c))

/-! ### Reductions (R140 to R142) -/

/-- One level of the pairwise tree (R141). -/
def treeLevel (f : Nat → Nat → Nat × Flg) : List Nat → List Nat × Flg
  | a :: b :: r =>
    let x := f a b
    let t := treeLevel f r
    (x.1 :: t.1, x.2 ||| t.2)
  | l => (l, 0)

/-- The fixed pairwise tree of a group, with fuel for its levels. -/
def treeFold (f : Nat → Nat → Nat × Flg) : Nat → List Nat → Nat × Flg
  | 0, l => (nth 0 l 0, 0)
  | n + 1, l =>
    if l.length ≤ 1 then (nth 0 l 0, 0)
    else
      let x := treeLevel f l
      let y := treeFold f n x.1
      (y.1, x.2 ||| y.2)

/-- Group size of a GL code (Table 7.8). -/
def groupSize (gl n : Nat) : Nat := if gl = 0 then n else 2 ^ gl

/-- A reduction: widen each element, form the leaves, reduce each group (R142). -/
def redEffect (op : Nat) (leaf : RMode → Nat → Nat × Flg) (comb : RMode → Nat → Nat → Nat × Flg)
    (core : Nat) (c : CtxId) (i : PI) (w : Nat) (s : State) : Option State :=
  match i with
  | .va op' fmt _ n gl tile d a _ _ =>
    if op' = op then
      let x := s.readOpnd core c fmt n tile a
      let md := RMode.ofCode (s.fmode core c % 8)
      let wd := mapFlags (widenEl fmt) x.1
      let lf := mapFlags (leaf md) wd.1
      let gs := chunksOf (groupSize gl n) n lf.1
      let r := gs.map (treeFold (comb md) 13)
      some (x.2.2.vecDone core c w 4 d
        (r.map Prod.fst, Flg.union (r.map Prod.snd) ||| x.2.1 ||| wd.2 ||| lf.2))
    else none
  | _ => none

/-- REDSUM: binary32 sums in tree order (Table 6.6). -/
def execRedsum (core : CoreId) (c : CtxId) (s : State) : Out :=
  .next (s.issueVec core.val c (redEffect 0x30 (fun _ x => (x, 0)) (fun md a b => fadd b32 md a b) core.val c))
/-- REDSSQ: sums of squares in tree order. -/
def execRedssq (core : CoreId) (c : CtxId) (s : State) : Out :=
  .next (s.issueVec core.val c (redEffect 0x31 (fun md x => fmul b32 md x x) (fun md a b => fadd b32 md a b) core.val c))
/-- REDMAX: the maximum, NaN if any leaf is NaN. -/
def execRedmax (core : CoreId) (c : CtxId) (s : State) : Out :=
  .next (s.issueVec core.val c (redEffect 0x32 (fun _ x => (x, 0)) (fun _ a b => fminmax b32 true a b) core.val c))
/-- REDMIN: the minimum, NaN if any leaf is NaN. -/
def execRedmin (core : CoreId) (c : CtxId) (s : State) : Out :=
  .next (s.issueVec core.val c (redEffect 0x33 (fun _ x => (x, 0)) (fun _ a b => fminmax b32 false a b) core.val c))
/-- REDAMAX: the largest magnitude. -/
def execRedamax (core : CoreId) (c : CtxId) (s : State) : Out :=
  .next (s.issueVec core.val c (redEffect 0x34 (fun _ x => (x % 2 ^ 31, 0)) (fun _ a b => fminmax b32 true a b) core.val c))

/-- Index of the lowest NaN of a group, else the lowest index of its maximum (Table 6.6). -/
def argMax (g : List Nat) : Nat :=
  match g.findIdx? b32.isNaN with
  | some i => i
  | none =>
    let best := g.foldl (fun b x => if totalKey b32 b < totalKey b32 x then x else b) (nth 0 g 0)
    (g.findIdx? (fun x => x == best)).getD 0

/-- REDARGMAX gives I32 indices; NV only for a signalling NaN leaf. -/
def argEffect (core : Nat) (c : CtxId) (i : PI) (w : Nat) (s : State) : Option State :=
  match i with
  | .va 0x35 fmt _ n gl tile d a _ _ =>
    let x := s.readOpnd core c fmt n tile a
    let wd := mapFlags (widenEl fmt) x.1
    let nv := (wd.2 &&& Fl.NV) ||| Flg.on (fmt == 4 && x.1.any b32.isSNaN) Fl.NV
    some (x.2.2.vecDone core c w 5 d ((chunksOf (groupSize gl n) n wd.1).map argMax, nv ||| x.2.1))
  | _ => none
/-- REDARGMAX: the core's next instruction. -/
def execRedargmax (core : CoreId) (c : CtxId) (s : State) : Out :=
  .next (s.issueVec core.val c (argEffect core.val c))

/-! ### CVT (R83, R160) -/

/-- Read a block-scaled operand: its codes, and its scale bytes; a poisoned scale byte makes its group NaV (R125, R199). -/
def State.readBlocks (s : State) (core : Nat) (c : CtxId) (fmt n vb : Nat) (o : Int) : List Nat × List Nat × State :=
  let a := vbAddr core vb o.toNat
  let r := s.readElems core c fmt a n
  let q := r.2.coreRead core c (a + n) (n / 32)
  let scales := q.1.map BitVec.toNat
  let codes := if q.2.1 = [] then r.1 else
    (List.range n).map (fun i => if overlaps q.2.1 (a + n + i / 32) 1 then poisonValue fmt else nth 0 r.1 i)
  (codes, scales, q.2.2)

/-- The short format of a block-scaled code. -/
def blockFmt (fmt : Nat) : SFmt := if fmt = 7 then v8 else bq8

/-- CVT along a path of Table 4.5. -/
def cvtEffect (core : Nat) (c : CtxId) (i : PI) (w : Nat) (s : State) : Option State :=
  match i with
  | .cvt src dst rm n tile d a =>
    let rg := ((s.core core).ctx c).regs
    let fm := rg.fmode.toNat
    if src = 7 ∨ src = 8 then
      let b := s.readBlocks core c src n a.kind ((a.off : Int) + rg.x a.xs)
      some (b.2.2.vecDone core c w dst d (fromBlocks (blockFmt src) b.1 b.2.1))
    else
      let x := s.readOpnd core c src n tile a
      if src = 5 then
        let md := opMode rm fm
        some (x.2.2.vecDone core c w dst d (mapFlags (i32ToF md) x.1))
      else if dst = 4 then
        let r := mapFlags (widenEl src) x.1
        some (x.2.2.vecDone core c w dst d (r.1, r.2 ||| x.2.1))
      else if dst = 7 ∨ dst = 8 then
        let r := toBlocks (blockFmt dst) (navOvf fm) (cvtSel rm fm dst) rg.srstate.toNat (groups32 x.1)
        let s1 := x.2.2.coreWrite core (vbAddr core d.kind ((d.off : Int) + rg.x d.xs).toNat)
          (bytesOfElems 1 (r.1 ++ r.2.1))
        some ((s1.modCtx core c (fun z =>
          { z with regs := { z.regs.flag (r.2.2.1 ||| x.2.1) with srstate := BitVec.ofNat 64 r.2.2.2 } })).advance core c w)
      else
        let r := convList (cvtSel rm fm dst) (fun m v => narrowEl dst (navOvf fm) m v) rg.srstate.toNat x.1
        let s1 := x.2.2.writeOpnd core c dst d r.1
        some ((s1.modCtx core c (fun z =>
          { z with regs := { z.regs.flag (r.2.1 ||| x.2.1) with srstate := BitVec.ofNat 64 r.2.2 } })).advance core c w)
  | _ => none
/-- CVT: the core's next instruction converts a vector. -/
def execCvt (core : CoreId) (c : CtxId) (s : State) : Out := .next (s.issueVec core.val c (cvtEffect core.val c))

/-! ### PERM (R143 to R145) -/

/-- RSTAT after out-of-range lanes were met: PERMX set, the first lane and index recorded if PERMX was 0 (R143, R148). -/
def permRecord (rstat : BitVec 64) (lane idx : Nat) : BitVec 64 :=
  if rstat.toNat % 2 = 1 then rstat
  else BitVec.ofNat 64 (idx * 2 ^ 32 + lane * 2 ^ 20 + rstat.toNat % 4 / 2 * 2 + 1)

/-- A context stops at a trap: TRAPPED counts it and FIRST_TRAP keeps the lowest core with a trapped job context. -/
def State.trapCtx (s : State) (core : Nat) (c : CtxId) : State :=
  let s1 := (s.modCtx core c (fun y => { y with stopped := true })).setObj Obj.TRAPPED (s.obj Obj.TRAPPED + 1)
  if c = .job then s1.setObj Obj.FIRST_TRAP (min (s.obj Obj.FIRST_TRAP) core) else s1

/-- PERM: d[i] := a[idx[i]]; STRICT decides what an out-of-range lane does. -/
def permEffect (core : Nat) (c : CtxId) (i : PI) (w : Nat) (s : State) : Option State :=
  match i with
  | .perm fmt n tile d a b =>
    let x := s.readOpnd core c fmt n tile a
    let y := x.2.2.readOpnd core c 5 n tile b
    let ibad := ((List.range n).zip y.1).filter (fun p => decide (n ≤ p.2))
    let rg := ((s.core core).ctx c).regs
    let s1 := match ibad with
      | [] => y.2.2
      | f :: _ =>
        ((y.2.2.modCtx core c (fun z => { z with regs := { z.regs with rstat := permRecord z.regs.rstat f.1 f.2 } })).modCore
          core (fun z => { z with permx := satAdd 32 z.permx ibad.length })).total 2 ibad.length
    if ibad ≠ [] ∧ rg.rctl.toNat % 2 = 1 then
      let s2 := (s1.modCtx core c (fun z =>
        { z with regs := { z.regs with rstat := z.regs.rstat ||| 2 } })).trapCtx core c
      let lane := ((s2.core core).ctx c).regs.rstat.toNat / 2 ^ 20 % 2 ^ 12
      some ((s2.flagCtx core c (x.2.1 ||| y.2.1)).raiseN Ev.PERM_RANGE
        (core + (if c = .filler then 2 ^ 16 else 0) + lane * 2 ^ 32))
    else
      let r := y.1.map (fun j => if j < n then nth 0 x.1 j else 0)
      some (s1.vecDone core c w fmt d (r, x.2.1 ||| y.2.1))
  | _ => none
/-- PERM: the core's next instruction permutes a vector. -/
def execPerm (core : CoreId) (c : CtxId) (s : State) : Out := .next (s.issueVec core.val c (permEffect core.val c))

/-! ### XR and MR (R146, R162) -/

/-- Effective offset of a buffer location. -/
def locOff (s : State) (core : Nat) (c : CtxId) (o : Opnd) : Int := (o.off : Int) + ((s.core core).ctx c).regs.x o.xs

/-- XR read: a 64-bit status word into two I32 elements, low word first. -/
def xrReadEffect (core : Nat) (c : CtxId) (i : PI) (w : Nat) (s : State) : Option State :=
  match i with
  | .xr false sel tile loc =>
    let y := (s.core core).tile c tile
    if sel ≠ 3 ∧ !y.settled then none
    else
      let v := match sel with
        | 0 => y.tstat
        | 1 => y.txr0.toNat
        | 2 => y.txr1
        | _ => ((s.core core).ctx c).regs.rstat.toNat
      some ((s.writeBuf core 5 loc.kind (locOff s core c loc) 1 [v % 2 ^ 32, v / 2 ^ 32]).advance core c w)
  | _ => none
/-- XR_READ: the core's next instruction. -/
def execXrRead (core : CoreId) (c : CtxId) (s : State) : Out := .next (s.issue core.val c (xrReadEffect core.val c))

/-- RSTAT after a W1C write: clearing PERMX zeroes its record (R148). -/
def rstatW1C (r : BitVec 64) (v : Nat) : BitVec 64 := if v % 2 = 1 then r &&& 2 else r

/-- XR write: W1C fields of TSTAT or RSTAT; TXR0 and TXR1 have none. -/
def xrWriteEffect (core : Nat) (c : CtxId) (i : PI) (w : Nat) (s : State) : Option State :=
  match i with
  | .xr true sel tile loc =>
    let r := s.readBuf core c 5 2 loc.kind (locOff s core c loc) 1
    let v := nth 0 r.1 0 + nth 0 r.1 1 * 2 ^ 32
    let s1 := if sel = 0 then r.2.modTile core c tile (fun y => { y with flags := w1c Tf.W1C y.flags v })
      else if sel ≠ 3 then r.2
      else r.2.modCtx core c (fun z => { z with regs := { z.regs with rstat := rstatW1C z.regs.rstat v } })
    some (s1.advance core c w)
  | _ => none
/-- XR_WRITE: the core's next instruction. -/
def execXrWrite (core : CoreId) (c : CtxId) (s : State) : Out := .next (s.issue core.val c (xrWriteEffect core.val c))

/-- FMODE after a write: a reserved RND or NRND keeps its field and sets NV; reserved bits are ignored (R88). -/
def fmodeWrite (r : Regs) (v : Nat) : Regs :=
  let old := r.fmode.toNat
  let rnd := if v % 8 ≤ 4 then v % 8 else old % 8
  let nrnd := if v / 32 % 4 ≤ 2 then v / 32 % 4 else old / 32 % 4
  let bad := decide (4 < v % 8) || decide (2 < v / 32 % 4)
  { r with fmode := BitVec.ofNat 32 (v / 128 % 2 * 128 + nrnd * 32 + rnd) }.flag (Flg.on bad Fl.NV)

/-- Write a mode register: FMODE, FSTAT (W1C), SRSTATE, RCTL (R80, R88, R89, R147). -/
def Regs.mrWrite (r : Regs) (sel v : Nat) : Regs :=
  match sel with
  | 0 => fmodeWrite r v
  | 1 => { r with fstat := BitVec.ofNat 32 (w1c 0x7F r.fstat.toNat v) }
  | 2 => { r with srstate := BitVec.ofNat 64 (srStore v) }
  | _ => { r with rctl := BitVec.ofNat 32 (v % 2) }

/-- MR read to a buffer: one element, or two for SRSTATE. -/
def mrReadEffect (core : Nat) (c : CtxId) (i : PI) (w : Nat) (s : State) : Option State :=
  match i with
  | .mr 0 sel loc _ =>
    let r := ((s.core core).ctx c).regs
    let vs := match sel with
      | 0 => [r.fmode.toNat]
      | 1 => [r.fstat.toNat]
      | 2 => [r.srstate.toNat % 2 ^ 32, r.srstate.toNat / 2 ^ 32]
      | _ => [r.rctl.toNat]
    some ((s.writeBuf core 5 loc.kind (locOff s core c loc) 1 vs).advance core c w)
  | _ => none
/-- MR_READ: the core's next instruction. -/
def execMrRead (core : CoreId) (c : CtxId) (s : State) : Out := .next (s.issue core.val c (mrReadEffect core.val c))

/-- MR write from a buffer. -/
def mrWriteEffect (core : Nat) (c : CtxId) (i : PI) (w : Nat) (s : State) : Option State :=
  match i with
  | .mr 1 sel loc _ =>
    let r := s.readBuf core c 5 (if sel = 2 then 2 else 1) loc.kind (locOff s core c loc) 1
    let v := nth 0 r.1 0 + nth 0 r.1 1 * 2 ^ 32
    some ((r.2.modCtx core c (fun z => { z with regs := z.regs.mrWrite sel v })).advance core c w)
  | _ => none
/-- MR_WRITE: the core's next instruction. -/
def execMrWrite (core : CoreId) (c : CtxId) (s : State) : Out := .next (s.issue core.val c (mrWriteEffect core.val c))

/-- MR write from an immediate. -/
def mrImmEffect (core : Nat) (c : CtxId) (i : PI) (w : Nat) (s : State) : Option State :=
  match i with
  | .mr 2 sel _ imm => some ((s.modCtx core c (fun z => { z with regs := z.regs.mrWrite sel imm })).advance core c w)
  | _ => none
/-- MR_WRITE_IMMEDIATE: the core's next instruction. -/
def execMrWriteImmediate (core : CoreId) (c : CtxId) (s : State) : Out :=
  .next (s.issue core.val c (mrImmEffect core.val c))

/-- DBG MARK: IMM and the timebase in the mark register. -/
def markEffect (core : Nat) (c : CtxId) (i : PI) (w : Nat) (s : State) : Option State :=
  match i with
  | .dbgMark imm => some ((s.modCore core (fun z => { z with mark := some (imm, s.now) })).advance core c w)
  | _ => none
/-- MARK: the core's next instruction. -/
def execDbgMark (core : CoreId) (c : CtxId) (s : State) : Out := .next (s.issue core.val c (markEffect core.val c))

/-- DBG BREAK: an armed breakpoint stops the context; otherwise there is no effect. -/
def breakEffect (core : Nat) (c : CtxId) (i : PI) (w : Nat) (s : State) : Option State :=
  match i with
  | .dbgBreak bp =>
    if (s.core core).bps.contains bp then some (s.modCtx core c (fun z => { z with broken := true }))
    else some (s.advance core c w)
  | _ => none
/-- BREAK: the core's next instruction. -/
def execDbgBreak (core : CoreId) (c : CtxId) (s : State) : Out := .next (s.issue core.val c (breakEffect core.val c))

end Sys2Proof.Machine
end

