-- ==== Sys2Proof/Machine/Slice.lean ====
section
/-! DEFINITION. Slices: proposal, creation, opening, closing, dissolving (R231 to R237). -/

namespace Sys2Proof.Machine

/-- Slice event detail (Table 17.1). -/
def State.sliceDetail (s : State) : Nat := s.obj Obj.SLICE_REASON + s.obj Obj.FAULT_CHIP % 4096 * 2 ^ 16

/-- A member's refusal: back to NONE with a reason (R232). -/
def State.refuseSlice (s : State) (reason : Nat) : State :=
  let s1 := (s.setObj Obj.SLICE_STATE SLICE_NONE).setObj Obj.SLICE_REASON reason
  { s1 with torus := { s1.torus with proposals := [] } }.raiseN Ev.SLICE_REFUSED s1.sliceDetail

/-- SLICE_MAP for a definition: the bit of every member chip (R232). -/
def State.mapFor (s : State) (d : SliceDef) : List Byte :=
  let ms := s.membersOf d
  (List.range 512).map (fun b => BitVec.ofNat 8 ((List.range 8).foldl (fun v i => if ms.contains (8 * b + i) then setBit v i else v) 0))

/-- SLICE_COMMIT at a member: entries, SLICE_MAP, state and event in one action (R228, R232). -/
def State.onCommit (s : State) (src : Nat) (d : SliceDef) : State :=
  if s.sliceState = SLICE_PROPOSED ∧ src = s.coordinator s.sliceDef ∧ d = s.sliceDef then
    let s1 := { s with torus := { s.torus with routes := putRoutes s.torus.routes 0 4096 (s.sliceEntries d), proposals := [] } }
    let s2 := (((s1.setDom Obj.SLICE_MAP (s.mapFor d)).setObj Obj.SLICE_STATE SLICE_CREATED).setObj Obj.SLICE_SIZE (sliceSize d)).setObj
      Obj.DEVICE_INDEX (indexOfPos d (s.posOfChip s.chip))
    s2.raiseN Ev.SLICE_CREATED s2.sliceDetail
  else s

/-- SLICE_REFUSE at a member. -/
def State.onRefuse (s : State) (src reason : Nat) : State :=
  if s.sliceState = SLICE_PROPOSED ∧ src = s.coordinator s.sliceDef then s.refuseSlice reason else s

/-- Send to the members listed, this device included. -/
def State.toMembers (s : State) (ms : List Nat) (kind : Nat) (b : MgmtBody) (here : State → State) : State :=
  let s1 := (ms.filter (· != s.chip)).foldl (fun s m => s.mgmt m kind b) s
  if ms.contains s.chip then here s1 else s1

/-- SLICE_PROPOSE at the coordinator: commit when every member's definition is held and equal, refuse when one differs
(R232). -/
def State.onPropose (s : State) (src : Nat) (d : SliceDef) : State :=
  if s.sliceState = SLICE_PROPOSED ∧ s.coordinator s.sliceDef = s.chip then
    let ps := if s.torus.proposals.any (fun p => p.1 == src) then s.torus.proposals else s.torus.proposals ++ [(src, d)]
    let s1 := { s with torus := { s.torus with proposals := ps } }
    let own := s.sliceDef
    let ms := s.membersOf own
    if ps.any (fun p => decide (p.2 ≠ own)) then
      s1.toMembers (ps.map Prod.fst) 4 (.sliceRefuse 7) (fun s => s.onRefuse s.chip 7)
    else if ms.all (fun m => ps.any (fun p => p.1 == m)) then
      s1.toMembers ms 4 (.sliceCommit own) (fun s => s.onCommit s.chip own)
    else s1
  else if s.sliceState = SLICE_NONE then
    -- a proposal that arrives before this device's own is kept for it
    { s with torus := { s.torus with proposals := s.torus.proposals ++ [(src, d)] } }
  else s

/-- Local checks of a proposal: the first reason of Table 9.9 that fails (R231). -/
def State.sliceCheck (s : State) (d : SliceDef) : Option Nat :=
  let ax := [0, 1, 2]
  if 4096 ≤ d.origin.toNat ∨ 4096 ≤ d.extentM1.toNat ∨ d.id = 0 ∨ 5 < d.dimord.toNat ∨ 7 < d.wrap.toNat then some 1
  else if !inBox d (s.posOfChip s.chip) then some 2
  else if ax.any (fun a => decide (s.jlen a < sOrg d a + sExt d a)) then some 3
  else if ax.any (fun a => sWrap d a && decide (sExt d a ≠ s.jlen a)) then some 4
  else if ax.any (fun a => sWrap d a && !s.jwrap a) then some 5
  else if 4096 < s.routesUsed + sliceSize d then some 10
  else none

/-- Candidate definition of a session. -/
def State.candSlice (s : State) (slot : Nat) : SliceDef where
  id := BitVec.ofNat 16 (s.cand slot Obj.SLICE_ID)
  origin := BitVec.ofNat 16 (s.cand slot Obj.ORIGIN)
  extentM1 := BitVec.ofNat 16 (s.cand slot Obj.EXTENT_M1)
  wrap := BitVec.ofNat 8 (s.cand slot Obj.WRAP)
  dimord := BitVec.ofNat 8 (s.cand slot Obj.DIMORD)

/-- APPLY on 0x2200 (R231, R461). -/
def applySlice (s : State) (slot : Nat) : Ans :=
  if s.obj Obj.DEGRADED = 1 then s.no St.WRONG_STATE 0
  else if s.sliceState ≠ SLICE_NONE then (s.setObj Obj.SLICE_REASON 6).no St.WRONG_STATE 6
  else
    let d := s.candSlice slot
    match s.sliceCheck d with
    | some r => (s.setObj Obj.SLICE_REASON r).no St.INCONSISTENT r
    | none =>
      let s1 := (s.take slot [Obj.SLICE_ID, Obj.ORIGIN, Obj.EXTENT_M1, Obj.WRAP, Obj.DIMORD]).setObj Obj.SLICE_STATE SLICE_PROPOSED
      let co := s1.coordinator d
      if co = s.chip then (s1.onPropose s.chip d).ok
      else ({ s1 with torus := { s1.torus with proposals := [] } }.mgmt co 4 (.slicePropose d)).ok

/-! ### Opening (R233) -/

def State.onGo (s : State) (src : Nat) : State :=
  if s.sliceState = SLICE_OPENING ∧ src = s.coordinator s.sliceDef then
    let s1 := (s.setObj Obj.SLICE_STATE SLICE_OPEN).setObj Obj.OPEN 1
    { s1 with torus := { s1.torus with opening := false, ready := [], answered := false } }.raiseN Ev.SLICE_OPEN s1.sliceDetail
  else s

def State.onFail (s : State) (src : Nat) : State :=
  if s.sliceState = SLICE_OPENING ∧ src = s.coordinator s.sliceDef then
    let s1 := (s.setObj Obj.SLICE_STATE SLICE_CREATED).setObj Obj.SLICE_REASON 9
    { s1 with torus := { s1.torus with opening := false, ready := [], answered := false } }
  else s

/-- OPEN_READY at the coordinator. -/
def State.onReady (s : State) (src : Nat) : State :=
  if s.torus.opening ∧ s.coordinator s.sliceDef = s.chip ∧ s.inSlice src then
    let rs := insNat src s.torus.ready
    let s1 := { s with torus := { s.torus with ready := rs } }
    let ms := s.membersOf s.sliceDef
    if ms.all (fun m => rs.contains m) then
      { s1 with torus := { s1.torus with opening := false } }.toMembers ms 0 .openGo (fun s => s.onGo s.chip)
    else s1
  else s

/-- A member answers OPEN_READY once its slice ports are up. -/
def State.maybeReady (s : State) : State :=
  if s.sliceState = SLICE_OPENING ∧ !s.torus.answered ∧ s.slicePortsUp then
    let s1 := { s with torus := { s.torus with answered := true } }
    let co := s.coordinator s.sliceDef
    if co = s.chip then s1.onReady s.chip else s1.mgmt co 0 .openReady
  else s

def State.onCheck (s : State) (src : Nat) : State :=
  if s.sliceState = SLICE_CREATED ∧ src = s.coordinator s.sliceDef then
    let s1 := s.setObj Obj.SLICE_STATE SLICE_OPENING
    { s1 with torus := { s1.torus with answered := false } }.maybeReady
  else s

def State.onOpenReq (s : State) (src : Nat) : State :=
  if s.coordinator s.sliceDef = s.chip ∧ s.inSlice src ∧ s.sliceState = SLICE_CREATED ∧ !s.torus.opening then
    { s with torus := { s.torus with opening := true, ready := [] } }.toMembers (s.membersOf s.sliceDef) 0 .openCheck
      (fun s => s.onCheck s.chip)
  else s

/-- A slice message addresses this device as a member (R229). -/
def State.hears (s : State) (src : Nat) : Bool :=
  s.inSlice src && decide (2 ≤ s.sliceState)

/-- DISSOLVE acts on this device alone (R235). -/
def State.dissolve (s : State) : State :=
  let s1 := ((((s.setDom Obj.SLICE_MAP (zeros 512)).setObj Obj.SLICE_STATE SLICE_NONE).setObj Obj.SLICE_SIZE 0).setObj Obj.DEVICE_INDEX 0xFFFF)
  { s1 with torus := { s1.torus with routes := s1.torus.routes.filter (fun q => bits q.2 62 61 != 0) } }

/-- COMMAND of 0x2200: OPEN, CLOSE, DISSOLVE (R233 to R235). -/
def cmdOpen (s : State) : Ans :=
  if s.sliceState ≠ SLICE_CREATED then s.no St.WRONG_STATE 0
  else
    let co := s.coordinator s.sliceDef
    if co = s.chip then (s.onOpenReq s.chip).ok else (s.mgmt co 0 .openReq).ok
def cmdClose (s : State) : Ans :=
  if s.sliceState = SLICE_OPENING ∨ s.sliceState = SLICE_OPEN then ((s.flood .close).leaveOpen none).ok
  else s.no St.WRONG_STATE 0
def cmdDissolve (s : State) : Ans :=
  if s.sliceState = SLICE_CREATED ∧ s.jobIdle then s.dissolve.ok else s.no St.WRONG_STATE 0

/-! ### Commands -/

def execSlicePropose (src : ChipId) (d : SliceDef) (s : State) : Out :=
  .next ((s.takeMgmt src.toNat 0x01).onPropose src.toNat d)
def execSliceCommit (src : ChipId) (d : SliceDef) (s : State) : Out :=
  .next ((s.takeMgmt src.toNat 0x02).onCommit src.toNat d)
def execSliceRefuse (src : ChipId) (reason : Byte) (s : State) : Out :=
  .next ((s.takeMgmt src.toNat 0x03).onRefuse src.toNat reason.toNat)

/-- 10 s after its APPLY, the coordinator lacks proposals (R232). -/
def execSliceProposeTimeout (s : State) : Out :=
  .next (if s.sliceState = SLICE_PROPOSED ∧ s.coordinator s.sliceDef = s.chip then
    s.toMembers (s.torus.proposals.map Prod.fst) 4 (.sliceRefuse 8) (fun s => s.onRefuse s.chip 8) else s)
/-- 12 s after its APPLY, a member has had no answer (R232). -/
def execSliceMemberTimeout (s : State) : Out :=
  .next (if s.sliceState = SLICE_PROPOSED then s.refuseSlice 8 else s)

def execOpenReq (src : ChipId) (s : State) : Out := .next ((s.takeMgmt src.toNat 0x04).onOpenReq src.toNat)
def execOpenCheck (src : ChipId) (s : State) : Out := .next ((s.takeMgmt src.toNat 0x05).onCheck src.toNat)
def execOpenReady (src : ChipId) (s : State) : Out := .next ((s.takeMgmt src.toNat 0x06).onReady src.toNat)
def execOpenGo (src : ChipId) (s : State) : Out := .next ((s.takeMgmt src.toNat 0x07).onGo src.toNat)
def execOpenFail (src : ChipId) (s : State) : Out := .next ((s.takeMgmt src.toNat 0x08).onFail src.toNat)
/-- 1 s after OPEN_CHECK the readiness is incomplete (R233). -/
def execOpenTimeout (s : State) : Out :=
  .next (if s.torus.opening ∧ s.coordinator s.sliceDef = s.chip then
    { s with torus := { s.torus with opening := false } }.toMembers (s.membersOf s.sliceDef) 0 .openFail (fun s => s.onFail s.chip)
    else s)

/-- The CLOSE flood: forwarded once to every slice neighbour, then acted on (R234). -/
def execCloseFlood (src : ChipId) (s : State) : Out :=
  let t := s.takeMgmt src.toNat 0x09
  .next (if s.inSlice src.toNat ∧ (s.sliceState = SLICE_OPENING ∨ s.sliceState = SLICE_OPEN) ∧ s.job.closeWaits.isNone then
    (t.flood .close).leaveOpen none else t)
/-- The SLICE_FAULT flood, with the failing chip and port (R234). -/
def execSliceFault (src fault : ChipId) (port : PortId) (s : State) : Out :=
  let t := s.takeMgmt src.toNat 0x0A
  .next (if s.inSlice src.toNat ∧ (s.sliceState = SLICE_OPENING ∨ s.sliceState = SLICE_OPEN) ∧ s.job.closeWaits.isNone then
    (t.flood (.sliceFault fault.toNat port.val)).leaveOpen (some fault.toNat) else t)

end Sys2Proof.Machine
end

