-- ==== Sys2Proof/Machine/Update.lean ====
section
/-! DEFINITION. Parameters, gradients and the update (11): the norm and its verdict (R280 to R283), the Blocking Unit's
arithmetic and rules (R284 to R289), shadows, the flip, regeneration and the commit (R292 to R296), hyperparameters and
norm policy (R300, R301). -/

namespace Sys2Proof.Machine

/-! ### Binary32 arithmetic with flags (R285) -/

/-- A binary32 code with the flags raised on the way to it. -/
abbrev FM := Nat × Flg

def fmAdd (x y : FM) : FM := let r := fadd b32 .rne x.1 y.1; (r.1, x.2 ||| y.2 ||| r.2)
def fmSub (x y : FM) : FM := let r := fsub b32 .rne x.1 y.1; (r.1, x.2 ||| y.2 ||| r.2)
def fmMul (x y : FM) : FM := let r := fmul b32 .rne x.1 y.1; (r.1, x.2 ||| y.2 ||| r.2)
def fmDiv (x y : FM) : FM := let r := fdiv b32 .rne x.1 y.1; (r.1, x.2 ||| y.2 ||| r.2)
def fmSqrt (x : FM) : FM := let r := fsqrt b32 .rne x.1; (r.1, x.2 ||| r.2)
def fmMax (x y : FM) : FM := let r := fminmax b32 true x.1 y.1; (r.1, x.2 ||| y.2 ||| r.2)
/-- A constant, and an integer as binary32. -/
def fmC (c : Nat) : FM := (c, 0)
def fmInt (n : Nat) : FM := encInt b32 .rne false n 0
def fOne : Nat := 0x3F800000
/-- Convert to W16 and back (the W16() of the rules) (DEDUCED, log 16). -/
def toW16 (c : Nat) : Nat × Flg := fcvt b32 w16 .rne c
def ofW16 (c : Nat) : Nat := (fcvt w16 b32 .rne c).1
/-- The comparison `a > b` of two binary32 codes. -/
def fGt (a b : Nat) : Bool := (fcmp b32 a b).1 == .gt
/-- A binary32 code is finite. -/
def fFinite (c : Nat) : Bool := decide (c % 2 ^ 31 < 0x7F800000)

/-- BU_FLAGS bits of flags (Table 11.12): NX, UF, OF, NV, DZ, CSAT. -/
def buBits (f : Flg) : Nat :=
  f % 8 + (if bit f 4 then 8 else 0) + (if bit f 3 then 16 else 0) + (if bit f 5 then 32 else 0)

def State.buFlag (s : State) (panel : Nat) (f : Flg) : State :=
  s.setObj Obj.BU_FLAGS (s.obj Obj.BU_FLAGS ||| buBits f * 2 ^ (8 * panel))

/-- Sum of squares of one block: squares, then the tree of R141 (R280). -/
def blockSumsq (xs : List Nat) : FM :=
  let sq := mapFlags (fun x => fmul b32 .rne x x) xs
  let r := treeFold (fadd b32 .rne) 13 (sq.1 ++ List.replicate (4096 - sq.1.length) 0)
  (r.1, r.2 ||| sq.2)

/-- Left fold of binary32 sums, the first taken as it is. -/
def foldSums : List FM → FM
  | [] => (0, 0)
  | x :: xs => xs.foldl fmAdd x

/-- sumsq of a whole array, in blocks of 4,096 (R285). -/
def sumsq (xs : List Nat) : FM := foldSums ((chunksOf 4096 xs.length xs).map blockSumsq)

/-! ### Reading and writing the owner's memory -/

/-- The Blocking Unit reads elements; poisoned ones take the values of Table 8.4, and before the norm leaf the device's
contribution is set (R291). -/
def State.buRead (s : State) (panel fmt a n : Nat) : List Nat × State :=
  let w := fmtWidth fmt
  let r := s.readMem a (n * w) (0x0D0 + panel)
  let xs := elemsOf w n r.1
  if r.2.1 = [] then (xs, r.2.2)
  else
    ((List.range n).map (fun i => if overlaps r.2.1 (a + i * w) w then poisonValue fmt else nth 0 xs i),
      if r.2.2.upd.leaf then r.2.2 else { r.2.2 with poisonHere := true })

/-- A block-scaled moment of 4,096 elements, widened (R72). -/
def State.buMoment (s : State) (panel fmt a : Nat) : List Nat × State :=
  let r := s.buRead panel fmt a 4096
  let q := r.2.readMem (a + 4096) 128 (0x0D0 + panel)
  let codes := if q.2.1 = [] then r.1 else
    (List.range 4096).map (fun i => if overlaps q.2.1 (a + 4096 + i / 32) 1 then poisonValue fmt else nth 0 r.1 i)
  ((fromBlocks (blockFmt fmt) codes (q.1.map BitVec.toNat)).1, q.2.2)

def State.buWrite (s : State) (panel a : Nat) (w : Nat) (xs : List Nat) : State :=
  s.writeMem a (bytesOfElems w xs) (0x0D0 + panel)

/-- Store 4,096 values as a block-scaled moment; the flags of the conversion (R73). -/
def State.buPutMoment (s : State) (panel fmt a : Nat) (xs : List Nat) : State :=
  let r := toBlocks (blockFmt fmt) false (.mode .rne) 1 (groups32 xs)
  (s.buWrite panel a 1 (r.1 ++ r.2.1)).buFlag panel r.2.2.1

/-- Parameters of a layer; those of its block `k` that are not padding (R275). -/
def Layer.size (l : Layer) : Nat := l.rows * l.cols
def Layer.inBlock (l : Layer) (k : Nat) : Nat := min 4096 (l.size - 4096 * k)
/-- Records of a layer that the Blocking Unit works on: frozen blocks are skipped, and blocks that are not resident are not owned
(R284, R322). -/
def State.liveRecs (s : State) (l : Layer) : List Nat := l.recs.filter (fun i => Rec.resident (s.record i) && !Rec.frozen (s.record i))

/-- Gradient elements of block `k`, as stored. -/
def State.gradBlock (s : State) (l : Layer) (k : Nat) : List Nat × State :=
  s.buRead l.mclass l.gfmt (l.gradAddr % 2 ^ 52 + 4096 * k * fmtWidth l.gfmt) (l.inBlock k)

/-- Values padded with +0 to a block. -/
def padBlock (xs : List Nat) : List Nat := xs ++ List.replicate (4096 - xs.length) 0

/-! ### The norm contribution (R280) -/

/-- Block sum of squares over finite elements, and the count of the others. -/
def State.blockNorm (s : State) (l : Layer) (k : Nat) : FM × Nat × State :=
  let g := s.gradBlock l k
  let wd := g.1.map (fun c => (widenEl l.gfmt c).1)
  let fin := wd.map (fun c => if fFinite c then c else 0)
  (blockSumsq fin, (wd.filter (fun c => !fFinite c)).length, g.2)

/-- e0 and e1 over the owned blocks that are not frozen. The flags of a panel's sums are its Blocking Unit's; those of the sums across
panels are put with panel 0 (DEDUCED, log 67; DEDUCED, log 62). -/
def State.normParts (s : State) : FM × Nat × State :=
  let blocks := s.layers.flatMap (fun l => (s.liveRecs l).map (fun i => (i, l)))
  let sorted := sortBy (fun a b => decide (a.1 ≤ b.1)) blocks
  let r := sorted.foldl (fun (acc : List (Nat × FM) × Nat × State) q =>
    let x := acc.2.2.blockNorm q.2 (q.1 - q.2.first)
    (acc.1 ++ [(q.2.mclass, x.1)], acc.2.1 + x.2.1, x.2.2)) ([], 0, s)
  let panel := fun p => foldSums ((r.1.filter (fun q => q.1 == p)).map Prod.snd)
  let v := fun p => ((panel p).1, (0 : Flg))
  let e0 := fmAdd (fmAdd (v 0) (v 1)) (fmAdd (v 2) (v 3))
  (e0, r.2.1, ([0, 1, 2, 3].foldl (fun s p => s.buFlag p (panel p).2) r.2.2).buFlag 0 e0.2)

/-- The conditions of R262 and R281 for the norm leaf (DEDUCED, log 62). -/
def State.leafReady (s : State) : Bool :=
  s.jobRuns && s.job.image.isSome && !s.upd.leaf && !s.committing && !s.upd.lost &&
  s.jobCores.all (fun c => (s.core c).job.reached && !(s.core c).job.stopped) &&
  s.coll.issues.all (fun x => match s.plan x.entry with | some p => !(p.gate && !p.system) || x.done | none => true) &&
  s.unverified == 0 &&
  s.layers.all (fun l => s.liveRecs l == [] || s.upd.shadows.any (fun q => q.1 == l.layer))

/-- The leaf's contribution with e0, e1 and the skews; the poison contribution goes with it (R280). -/
def State.leafFrom (s : State) (e0 : FM) (e1 : Nat) : State :=
  let p := s.poisonHere || decide (0 < e1)
  { s with
    coll := { s.coll with norm := e0.1 :: (fmInt e1).1 :: (fmInt s.upd.skews).1 :: List.replicate 61 0, normPoison := p }
    upd := { s.upd with leaf := true, skews := 0 }
    poisonHere := false }

/-- The device issues its part of the system entries (DESIGN CHOICE, log 15). -/
def State.issueSystem (s : State) : State :=
  let t := s.sysIssue 0xFFFE
  if t.obj Obj.NORM_ANCHOR == t.deviceIndex then t else t.sysIssue 0xFFFF

/-- NORM_LEAF: pins of RELEASE_KIND 1 return, the contribution is formed, and the leaf of entry 0xFFFE is issued; a device
other than the norm anchor issues its receiving role of entry 0xFFFF too (R280, R281, R297; DESIGN CHOICE, log 15). -/
def State.normLeaf (s : State) : State :=
  if s.leafReady then
    let t := s.releasePins (fun q _ => q.kind == 1)
    let n := t.normParts
    (n.2.2.leafFrom n.1 n.2.1).issueSystem
  else s

/-! ### The verdict (R282, R283) -/

/-- VERDICT, CAUSE, REPLAY, SCALE, NORM of R282's program. -/
def verdictOf (poison : Bool) (e0 e1 e2 clip absLimit clipMode : Nat) : Nat × Nat × Nat × Nat × Nat :=
  if poison then (if fGt e1 0 then (2, 2, 0, fOne, b32.dnan) else (2, 1, 0, fOne, b32.dnan))
  else if fGt e2 0 then (2, 5, 1, fOne, b32.dnan)
  else
    let norm := (fsqrt b32 .rne e0).1
    if !fFinite norm then (2, 6, 0, fOne, norm)
    else if fGt norm absLimit then (2, 3, 0, fOne, norm)
    else if fGt norm clip then
      (if clipMode = 0 then (1, 0, 0, (fdiv b32 .rne clip norm).1, norm)
       else if clipMode = 1 then (2, 4, 0, fOne, norm)
       else (0, 0, 0, fOne, norm))
    else (0, 0, 0, fOne, norm)

/-- A count held in binary32 as an unsigned integer, saturating; a NaN, which the manual gives no count for, is open (DESIGN CHOICE, log 25). -/
def countOf (free : Nat) (c : Nat) : Nat :=
  match b32.dec c with
  | .nan _ => free % 2 ^ 64
  | .inf sg => if sg then 0 else 2 ^ 64 - 1
  | .fin sg m e => if sg then 0 else min (2 ^ 64 - 1) (scaledTo false m e 0).toNat

/-- Verdict record (Table 11.9). -/
def verdictRec (attempt committed v cause flags chip scale norm nonfin : Nat) : List Byte :=
  leBytes 8 attempt ++ leBytes 8 committed ++ leBytes 1 v ++ leBytes 1 cause ++ leBytes 1 flags ++ zeros 1 ++
    leBytes 2 chip ++ zeros 2 ++ leBytes 4 scale ++ leBytes 4 norm ++ leBytes 8 nonfin ++ zeros 24

/-- VERDICT_FORM at the norm-anchor device (R263, R282) (DESIGN CHOICE, log 25). -/
def State.formVerdict (s : State) : State :=
  match s.coll.normSum with
  | none => s
  | some v =>
    if s.obj Obj.NORM_ANCHOR ≠ s.deviceIndex ∨ s.coll.retracts ≠ [] ∨ !s.upd.leaf then s
    else
      let e := fun i => nth 0 v.els i
      let r := verdictOf v.poison (e 0) (e 1) (e 2) (s.obj Obj.CLIP) (s.obj Obj.ABS_LIMIT) (s.obj Obj.CLIP_MODE)
      let flags := r.2.2.1 + (if s.job.stopMark then 2 else 0)
      let bs := padTo 256 (verdictRec s.attempt (s.obj Obj.COMMITTED) r.1 r.2.1 flags (if v.poison then v.chip else 0xFFFF)
        r.2.2.2.1 r.2.2.2.2 (countOf s.free (e 1)))
      let s1 := { s.spend with
        job := { s.job with stopMark := false }
        coll := { s.coll with normSum := none, withheld := false, verdict := bs, verdictIn := some ⟨4, elemsOf 4 64 bs, [], false, 0xFFFF, 0⟩ } }
      s1.sysIssue 0xFFFF

/-- Issues whose every role is done leave with the step. -/
def State.pruneIssues (s : State) : State :=
  { s with coll := { s.coll with issues := s.coll.issues.filter (fun x => !x.done), rootDone := [] } }

/-- Running products P1 and P2 of a set (R285). -/
def State.prod (s : State) (set : Nat) : Nat × Nat := Sparse.get (fun _ => (fOne, fOne)) s.upd.prods set

/-- A set's values, objects 0x3200.11 to .20 in order (R299, R300). -/
def hpDefault : List Nat := (rangeFrom 0x320011 16).map Obj.dflt
def State.hpSet (s : State) (set : Nat) : List Nat := Sparse.get (fun _ => hpDefault) s.upd.hp set
/-- As in force for the step's update work. -/
def State.hpNow (s : State) (set : Nat) : List Nat :=
  match s.upd.hpStep with
  | some m => Sparse.get (fun _ => hpDefault) m set
  | none => s.hpSet set

/-- The step is committed at this device (R292): COMMITTED, P1 and P2 advance, and what waited for it acts. -/
def State.finishCommit (s : State) : State :=
  let s1 := { s with upd := { s.upd with
    prods := (List.range 16).foldl (fun m i =>
      let p := s.prod i
      let h := s.hpNow i
      Sparse.set (fun _ => (fOne, fOne)) m i ((fmul b32 .rne p.1 (nth 0 h 2)).1, (fmul b32 .rne p.2 (nth 0 h 3)).1)) s.upd.prods } }
  let s2 := s1.setObj Obj.COMMITTED (s.obj Obj.COMMITTED + 1)
  let flipped := s.layers.flatMap s.liveRecs
  let scaled := match s.upd.verdict with | some (1, _) => 1 | _ => 0
  let s3 := match s2.stream.gap with
    | some n => s2.streamRecord 5 0 0 (beBytes 4 n ++ zeros 4)
    | none => s2.streamRecord 1 scaled 0 ((ascending flipped).flatMap s2.commitRecord)
  { s3 with
    stream := { s3.stream with gap := none, reserved := 0, waiting := false }
    upd := { s3.upd with verdict := none, committed := [], stalled := [], shadows := [], rerun := [], hpStep := none, leaf := false, settled := s.obj Obj.ATTEMPTS } }.afterCommit

/-- VERDICT_RECEIVED: the verdict is checked and acted on (R283, R39, R187, R318). -/
def State.takeVerdict (s : State) : State :=
  match s.coll.verdictIn with
  | none => s
  | some v =>
    let bs := bytesOfElems 4 v.els
    let s0 := { s with coll := { s.coll with verdictIn := none } }
    if s.upd.lost ∨ !s.jobRuns then s0
    else if v.poison ∨ v.bad ≠ [] ∨ leAt bs 8 8 ≠ s.obj Obj.COMMITTED then
      let s1 := ((s0.inc32 Obj.VERDICT_LOST).raiseN Ev.VERDICT_LOST (leAt bs 0 8))
      { s1 with upd := { s1.upd with lost := true } }.faultSlice 7
    else
      let att := leAt bs 0 8
      let vd := leAt bs 16 1
      let cause := leAt bs 17 1
      let flags := leAt bs 18 1
      let norm := leAt bs 28 4
      let s1 := (s0.setDom Obj.LAST_VERDICT (bs.take 64)).setObj Obj.ATTEMPTS (s.obj Obj.ATTEMPTS + 1)
      let s2 := s1.pruneIssues
      let s2 := s2.feedVerdict
      let s3 := if bit flags 1 then { s2 with job := { s2.job with stopAt := some att } } else s2
      if vd = 2 then
        let s4 := ((s3.inc64 Obj.SKIPPED).setDom Obj.LAST_SKIP (leBytes 8 s.now ++ leBytes 8 att ++ leBytes 1 cause ++ zeros 1 ++
          slice bs 20 2 ++ leBytes 4 norm)).raiseN Ev.STEP_SKIPPED (att % 2 ^ 32 + cause * 2 ^ 32 + leAt bs 20 2 % 4096 * 2 ^ 48)
        let s5 := s4.discardShadows
        let s6 := { s5 with upd := { s5.upd with leaf := false, settled := s5.obj Obj.ATTEMPTS } }
        if bit flags 0 then { s6 with feed := { s6.feed with replay := true } }
        else { s6.bump Obj.SAMPLES_DROPPED s6.feed.taken 64 with feed := { s6.feed with replay := false, taken := 0 } }
      else
        let s4 := if vd = 1 ∨ fGt norm (s.obj Obj.CLIP) then s3.inc64 Obj.SCALED else s3.inc64 Obj.PASSED
        let recs := s4.layers.flatMap s4.liveRecs
        let need := 32 + recs.length * s4.blockRecMax
        let s5 := if s4.obj Obj.STREAM_MODE = 2 ∧ s4.ringFree < need ∧ recs ≠ [] then
            ({ s4 with stream := { s4.stream with gap := some recs.length } }.inc32 Obj.GAPS).raiseN Ev.STREAM_GAP (s4.obj Obj.COMMITTED)
          else s4
        let s6 := { s5 with
          upd := { s5.upd with verdict := some (vd, leAt bs 24 4), committed := [] }
          feed := { s5.feed with replay := false, taken := 0 } }
        if s6.layers = [] then s6.finishCommit else s6

/-! ### The beds (R289) -/

/-- Smallest e with every magnitude below 2 ^ e; zeros and non-numbers set no bound. -/
def anchorExp (xs : List Nat) : Int :=
  (xs.filterMap (fun c => match w16.dec c with
    | .fin _ m e => if m = 0 then none else some (expOf m e + 1)
    | _ => none)).foldl (fun (a : Option Int) e => match a with | none => some e | some b => some (max b e)) none |>.getD (-126)

/-- One tile's dot product of W16 codes, drained to binary32: poisoned gives the default NaN with NV, saturation OF. -/
def bedDot (E : Int) (as bs : List Nat) : FM :=
  let g := groupSum E 0 (as.map (POp.of 3)) (bs.map (POp.of 3))
  if g.2.1.isSome then (b32.dnan, Fl.NV)
  else if accMax < g.1 then let r := encInt b32 .rne false accMax (E - 40); (r.1, r.2 ||| Fl.OF)
  else if g.1 < accMin then let r := encInt b32 .rne false accMin (E - 40); (r.1, r.2 ||| Fl.OF)
  else encInt b32 .rne false g.1 (E - 40)

/-- A matrix as rows. -/
abbrev Mat := List (List Nat)
def Mat.transpose (c : Nat) (m : Mat) : Mat := (List.range c).map (fun j => m.map (fun r => nth 0 r j))

/-- The product of an m × k matrix of W16 codes with the transpose of `bt` (n × k), in binary32, with flags (DEDUCED, log 16). -/
def bedMul (k : Nat) (a bt : Mat) : Mat × Flg :=
  let t := Config.buTile a.length k bt.length
  let tr := max 1 (min t.1 8192)
  let tc := max 1 (min t.2.1 (8192 / tr))
  let tk := max 1 (min t.2.2 8192)
  let part := fun (r : List Nat) (q : Nat) => (r.drop (q * tk)).take tk
  let ex := fun (m : Mat) (n i q : Nat) => anchorExp (((m.drop (i / n * n)).take n).flatMap (fun r => part r q))
  let el := fun (i j : Nat) (ra rb : List Nat) =>
    foldSums ((List.range (ceilDiv k tk)).map (fun q =>
      bedDot (min (ex a tr i q + ex bt tc j q) 127) (part ra q) (part rb q)))
  let rows := ((List.range a.length).zip a).map (fun p =>
    ((List.range bt.length).zip bt).map (fun q => el p.1 q.1 p.2 q.2))
  (rows.map (fun r => r.map Prod.fst), Flg.union (rows.flatMap (fun r => r.map Prod.snd)))

/-- Elementwise map of a matrix of binary32 codes, flags collected. -/
def matMap (f : Nat → FM) (a : Mat) : Mat × Flg :=
  let r := a.map (fun row => row.map f)
  (r.map (fun row => row.map Prod.fst), Flg.union (r.flatMap (fun row => row.map Prod.snd)))
def matZip (f : Nat → Nat → FM) (a b : Mat) : Mat × Flg :=
  let r := (a.zip b).map (fun p => (p.1.zip p.2).map (fun q => f q.1 q.2))
  (r.map (fun row => row.map Prod.fst), Flg.union (r.flatMap (fun row => row.map Prod.snd)))
/-- DEDUCED, log 16. -/
def matW16 (a : Mat) : Mat × Flg := matMap toW16 a
/-- A product whose operands, if binary32, are converted to W16 for the bed (DEDUCED, log 16). -/
def matMul (k : Nat) (a bt : Mat × Flg) : Mat × Flg :=
  let x := matW16 a.1
  let y := matW16 bt.1
  let r := bedMul k x.1 y.1
  (r.1, a.2 ||| bt.2 ||| x.2 ||| y.2 ||| r.2)
/-- Round a binary32 matrix to W16 values. -/
def matRound (a : Mat × Flg) : Mat × Flg :=
  let r := matW16 a.1
  (r.1.map (fun row => row.map ofW16), a.2 ||| r.2)

/-- A row-major array as rows of `c`. -/
def rowsOf (c : Nat) (xs : List Nat) : Mat := chunksOf c xs.length xs

/-! ### The rules (R286 to R288) -/

/-- Elementwise rule for one element: w, m, v (R286). -/
def eltRule (hp : List Nat) (c1 c2 eta : FM) (s g w m v : FM) : FM × FM × FM :=
  let h := fun i => fmC (nth 0 hp i)
  let one := fmC fOne
  let g := fmMul s g
  let m' := fmAdd (fmMul (h 2) m) (fmMul (fmSub one (h 2)) g)
  let v' := fmAdd (fmMul (h 3) v) (fmMul (fmSub one (h 3)) (fmMul g g))
  let u := fmDiv (fmDiv m' c1) (fmAdd (fmSqrt (fmDiv v' c2)) (h 4))
  (fmSub w (fmMul eta (fmAdd u (fmMul (h 5) w))), m', v')

/-- Learning rate of step T (R285). -/
def etaOf (hp : List Nat) (t : Nat) : FM :=
  if t < nth 0 hp 1 then fmMul (fmC (nth 0 hp 0)) (fmDiv (fmInt t) (fmInt (nth 0 hp 1))) else fmC (nth 0 hp 0)

/-- The orthogonalised momentum O of R287, as rows of the layer. -/
def orthoOf (hp : List Nat) (r c : Nat) (m : List Nat) : Mat × Flg :=
  let n := fmSqrt (sumsq m)
  let k := fmDiv (fmC fOne) (fmAdd n (fmC (nth 0 hp 4)))
  let x0 := matRound (matMap (fun e => fmMul (fmC e) k) (rowsOf c m))
  let tall := decide (c < r)
  let x1 : Mat × Flg := if tall then (Mat.transpose c x0.1, x0.2) else x0
  let mm := min r c
  let kk := max r c
  let cf := fun i => fmC (nth 0 hp i)
  let x2 := (List.range (nth 0 hp 7)).foldl (fun (x : Mat × Flg) _ =>
    let a := matMul kk x x
    let aa := matMul mm a (Mat.transpose mm a.1, 0)
    let b := matZip (fun p q => fmAdd (fmMul (cf 9) (fmC p)) (fmMul (cf 10) (fmC q))) a.1 aa.1
    let b := matRound (b.1, a.2 ||| aa.2 ||| b.2)
    let bx := matMul mm b (Mat.transpose kk x.1, 0)
    let y := matZip (fun p q => fmAdd (fmMul (cf 8) (fmC p)) (fmC q)) x.1 bx.1
    matRound (y.1, x.2 ||| b.2 ||| bx.2 ||| y.2)) x1
  if tall then (Mat.transpose r x2.1, x2.2) else x2

/-- Identity scaled: `k` on the diagonal, +0 elsewhere. -/
def scaledEye (n k : Nat) : Mat := (List.range n).map (fun i => (List.range n).map (fun j => if i = j then k else 0))

/-- root4 of R288. -/
def root4 (hp : List Nat) (n : Nat) (a : Mat) : Mat × Flg :=
  let damp := fmC (nth 0 hp 13)
  let di := matZip (fun x e => fmAdd (fmC x) (fmMul damp (fmC e))) a (scaledEye n fOne)
  let k := fmSqrt (sumsq di.1.flatten)
  let z := matRound (matMap (fun x => fmMul (fmC x) (fmDiv (fmC fOne) k)) di.1)
  let y0 := fmDiv (fmC fOne) (fmSqrt (fmSqrt k))
  let r := (List.range (nth 0 hp 14)).foldl (fun (q : (Mat × Flg) × (Mat × Flg)) _ =>
    let t := matZip (fun e x => fmMul (fmSub (fmMul (fmC 0x40A00000) (fmC e)) (fmC x)) (fmC 0x3E800000)) (scaledEye n fOne) q.2.1
    let t := matRound (t.1, t.2 ||| q.2.2)
    let tt := (Mat.transpose n t.1, (0 : Flg))
    let y := matMul n q.1 tt
    let t2 := matRound (matMul n t tt)
    let t4 := matMul n t2 (Mat.transpose n t2.1, 0)
    let z := matRound (matMul n t4 (Mat.transpose n q.2.1, 0))
    ((y.1, y.2 ||| t.2), (z.1, z.2 ||| q.2.2)))
    ((scaledEye n y0.1, y0.2), (z.1, z.2 ||| di.2 ||| k.2))
  (r.1.1, r.1.2 ||| r.2.2)

/-! ### Shadows (R284, R292) -/

/-- A whole layer's elements in parameter order from a per-block reader, padding dropped. -/
def State.layerRead (s : State) (l : Layer) (f : State → Nat → List Nat × State) : List Nat × State :=
  (List.range l.blocks).foldl (fun (acc : List Nat × State) k =>
    let r := f acc.2 k
    (acc.1 ++ r.1.take (l.inBlock k), r.2)) ([], s)

/-- Values of block `k` of a layer array, padded. -/
def blockOf (xs : List Nat) (k : Nat) : List Nat := padBlock ((xs.drop (4096 * k)).take 4096)

/-- Learning-rate and bias terms of a step for a set. -/
def State.stepTerms (s : State) (set : Nat) : FM × FM × FM :=
  let hp := s.hpNow set
  let p := s.prod set
  let one := fmC fOne
  (etaOf hp (s.obj Obj.COMMITTED + 1), fmSub one (fmMul (fmC p.1) (fmC (nth 0 hp 2))), fmSub one (fmMul (fmC p.2) (fmC (nth 0 hp 3))))

/-- Shadow of one block under the elementwise rule. -/
def State.shadowElt (s : State) (l : Layer) (scale i : Nat) : State :=
  let k := i - l.first
  let p := l.mclass
  let r := s.record i
  let live := Rec.sel r
  let sh := 1 - live
  let n := l.inBlock k
  let g := s.gradBlock l k
  let w := g.2.buRead p 4 (Rec.master r live) 4096
  let m := w.2.buMoment p 7 (Rec.moments r live)
  let v := m.2.buMoment p 8 (Rec.moments r live + 4224)
  let hp := s.hpNow l.hpSet
  let t := s.stepTerms l.hpSet
  let out := (List.range n).map (fun j =>
    eltRule hp t.2.1 t.2.2 t.1 (fmC scale) (widenEl l.gfmt (nth 0 g.1 j)) (fmC (nth 0 w.1 j)) (fmC (nth 0 m.1 j)) (fmC (nth 0 v.1 j)))
  let fl := Flg.union (out.map (fun o => o.1.2 ||| o.2.1.2 ||| o.2.2.2))
  let s1 := v.2.buWrite p (Rec.master r sh) 4 (padBlock (out.map (fun o => o.1.1)))
  let s2 := s1.buPutMoment p 7 (Rec.moments r sh) (padBlock (out.map (fun o => o.2.1.1)))
  let s3 := s2.buPutMoment p 8 (Rec.moments r sh + 4224) (padBlock (out.map (fun o => o.2.2.1)))
  s3.buFlag p fl

/-- Shadow of a layer under a matrix rule (R287, R288). -/
def State.shadowMat (s : State) (l : Layer) (scale : Nat) : State :=
  let p := l.mclass
  let hp := s.hpNow l.hpSet
  let t := s.stepTerms l.hpSet
  let h := fun i => fmC (nth 0 hp i)
  let one := fmC fOne
  let rc := fun k => s.record (l.first + k)
  let g := s.layerRead l (fun s k => s.gradBlock l k)
  let w := g.2.layerRead l (fun s k => s.buRead p 4 (Rec.master (rc k) (Rec.sel (rc k))) 4096)
  let m := w.2.layerRead l (fun s k => s.buMoment p 7 (Rec.moments (rc k) (Rec.sel (rc k))))
  let gs := g.1.map (fun c => fmMul (fmC scale) (widenEl l.gfmt c))
  let mm := (m.1.zip gs).map (fun q => fmAdd (fmMul (h 6) (fmC q.1)) q.2)
  let mv := mm.map Prod.fst
  let mfl := Flg.union (mm.map Prod.snd)
  let upd : (Nat → Nat → FM) × Flg × State :=
    if l.rule = 1 then
      let o := orthoOf hp l.rows l.cols mv
      let f := o.1.flatten
      let q := fmSqrt (fmMax one (fmDiv (fmInt l.rows) (fmInt l.cols)))
      ((fun j wj => fmSub (fmC wj) (fmMul t.1 (fmAdd (fmMul q (fmC (nth 0 f j))) (fmMul (h 5) (fmC wj))))), o.2, m.2)
    else
      let r2 := l.rows * l.rows
      let c2 := l.cols * l.cols
      let slot := fun b => l.stateAddr % 2 ^ 52 + b * 8 * (r2 + c2)
      let live := Rec.sel (rc 0)
      let fl0 := m.2.buRead p 4 (slot live) r2
      let fr0 := fl0.2.buRead p 4 (slot live + 4 * r2) c2
      let il0 := fr0.2.buRead p 4 (slot live + 4 * (r2 + c2)) r2
      let ir0 := il0.2.buRead p 4 (slot live + 4 * (r2 + c2) + 4 * r2) c2
      let gm := matRound (rowsOf l.cols (gs.map Prod.fst), Flg.union (gs.map Prod.snd))
      let gt : Mat × Flg := (Mat.transpose l.cols gm.1, 0)
      let mix := fun (n : Nat) (old : List Nat) (x : Mat × Flg) =>
        let z := matZip (fun a b => fmAdd (fmMul (h 11) (fmC a)) (fmMul (fmSub one (h 11)) (fmC b))) (rowsOf n old) x.1
        ((z.1, z.2 ||| x.2) : Mat × Flg)
      let FL := mix l.rows fl0.1 (matMul l.cols gm gm)
      let FR := mix l.cols fr0.1 (matMul l.rows gt gt)
      let fresh := s.obj Obj.COMMITTED % nth 0 hp 12 = 0
      let IL : Mat × Flg := if fresh then root4 hp l.rows FL.1 else (rowsOf l.rows il0.1, 0)
      let IR : Mat × Flg := if fresh then root4 hp l.cols FR.1 else (rowsOf l.cols ir0.1, 0)
      let wm := matRound (rowsOf l.cols mv, 0)
      let left := matMul l.rows IL (Mat.transpose l.cols wm.1, wm.2)
      let P := matMul l.cols left (Mat.transpose l.cols IR.1, IR.2)
      let sp := sumsq P.1.flatten
      let P2 := if nth 0 hp 15 = 1 ∧ fGt sp.1 0 then
          matMap (fun x => fmMul (fmC x) (fmDiv (fmSqrt (sumsq mv)) (fmSqrt sp))) P.1
        else (P.1, 0)
      let f := P2.1.flatten
      let s1 := ((ir0.2.buWrite p (slot (1 - live)) 4 FL.1.flatten).buWrite p (slot (1 - live) + 4 * r2) 4 FR.1.flatten).buWrite p
        (slot (1 - live) + 4 * (r2 + c2)) 4 (IL.1.flatten ++ IR.1.flatten)
      ((fun j wj => fmSub (fmC wj) (fmMul t.1 (fmAdd (fmC (nth 0 f j)) (fmMul (h 5) (fmC wj))))),
        FL.2 ||| FR.2 ||| IL.2 ||| IR.2 ||| P.2 ||| P2.2, s1)
  let ws := ((List.range w.1.length).zip w.1).map (fun q => upd.1 q.1 q.2)
  let s2 := upd.2.2.buFlag p (mfl ||| upd.2.1 ||| Flg.union (ws.map Prod.snd))
  (List.range l.blocks).foldl (fun s k =>
    let sh := 1 - Rec.sel (rc k)
    (s.buWrite p (Rec.master (rc k) sh) 4 (blockOf (ws.map Prod.fst) k)).buPutMoment p 7 (Rec.moments (rc k) sh) (blockOf mv k)) s2

/-- Write a layer's shadow with a scale (R284, R292). -/
def State.shadowLayer (s : State) (l : Layer) (scale : Nat) : State :=
  let s1 :=
    if s.liveRecs l = [] then s
    else if l.rule = 0 then (s.liveRecs l).foldl (fun s i => s.shadowElt l scale i) s
    else s.shadowMat l scale
  { s1 with upd := { s1.upd with shadows := (s1.upd.shadows.filter (fun q => q.1 != l.layer)) ++ [(l.layer, scale)] } }

/-- Layers of the same panel with work that come before in descriptor order. -/
def State.earlier (s : State) (l : Layer) : List Layer :=
  s.layers.filter (fun k => k.mclass == l.mclass && decide (k.layer < l.layer) && s.liveRecs k != [])

/-- Hyperparameter sets take effect with the step's first update work; the stream carries each (R300, R406). -/
def State.fixHp (s : State) : State :=
  if s.upd.hpStep.isSome then s
  else
    let s1 := { s with upd := { s.upd with hpStep := some s.upd.hp, hpFresh := [] } }
    s.upd.hpFresh.foldl (fun t k => (t.setObj Obj.HP_EFFECT (s.obj Obj.COMMITTED)).streamRecord 3 0 0
      (beBytes 1 k ++ zeros 3 ++ (t.hpSet k).flatMap (beBytes 4))) s1

/-- BU_UPDATE_START: a layer's speculative update (R284). The whole shadow is written with this command (DESIGN CHOICE, log 17). -/
def State.startUpdate (s : State) (layer : Nat) : State :=
  match s.layers.find? (fun l => l.layer == layer) with
  | none => s
  | some l =>
    let ready := decide (l.gradIssues ≤ Sparse.get (fun _ => 0) s.coll.rootDone l.gradEntry) &&
      !(s.upd.shadows.any (fun q => q.1 == l.layer)) && !s.upd.leaf && !s.committing && s.jobRuns &&
      (s.earlier l).all (fun k => s.upd.shadows.any (fun q => q.1 == k.layer))
    if ready then (s.fixHp).shadowLayer l fOne else s

/-! ### The commit (R292, R293) -/

/-- Regenerate a block's working copy from its live master (R293). -/
def State.regenBlock (s : State) (l : Layer) (i : Nat) : State :=
  let r := s.record i
  let k := i - l.first
  let m := s.buRead l.mclass 4 (Rec.master r (Rec.sel r)) 4096
  let q := mapFlags (narrowEl l.wfmt false .rne) (m.1.take (l.inBlock k))
  let w := fmtWidth l.wfmt
  let full := q.1 ++ List.replicate (4096 - q.1.length) 0
  ((m.2.buWrite l.mclass (l.wcAddr % 2 ^ 52 + 4096 * k * w) w full)).buFlag l.mclass q.2

/-- FLIP waits for a snapshot that holds the block (R413). -/
def State.heldBySnap (s : State) (i : Nat) : Bool := s.snap.held.contains i

/-- A layer's update runs again from its first block with SCALE. -/
def State.rerunLayer (s : State) (l : Layer) (scale : Nat) : State :=
  let t := s.shadowLayer l scale
  { t with upd := { t.upd with rerun := t.upd.rerun ++ [l.layer] } }

/-- The panel's Blocking Unit has finished the matrix work of an attempt for the verdict received, or has discarded it (R290). -/
def State.matrixDone (s : State) (panel attempt : Nat) : Bool :=
  let ls := s.layers.filter (fun l => l.rule != 0 && l.mclass == panel && s.liveRecs l != [])
  ls.isEmpty || (decide (attempt ≤ s.obj Obj.ATTEMPTS) &&
    (match s.upd.verdict with
     | none => true
     | some (vd, _) => ls.all (fun l => s.upd.committed.contains l.layer ||
         (s.upd.shadows.any (fun q => q.1 == l.layer) && (vd != 1 || s.upd.rerun.contains l.layer)))))

/-- LAYER_COMMIT: the verdict is applied to one layer (R292). Records are taken in ascending order: the first with pins is given DEFER,
and the others wait behind it. -/
def State.commitLayer (s : State) (layer : Nat) : State :=
  match s.layers.find? (fun l => l.layer == layer), s.upd.verdict with
  | some l, some (vd, scale) =>
    if s.upd.committed.contains layer ∨ !(s.earlier l).all (fun k => s.upd.committed.contains k.layer) then s
    else
      let formed := (s.upd.shadows.find? (fun q => q.1 == layer)).map Prod.snd
      let live := s.liveRecs l
      if formed = none ∧ live ≠ [] then s
      else
        let s1 := if vd = 1 ∧ formed = some fOne ∧ live ≠ [] ∧ !s.upd.rerun.contains layer then (s.inc32 Obj.RECOMPUTES).rerunLayer l scale
          else s
        match live.find? (fun i => decide (0 < Rec.pins (s1.record i))) with
        | some i =>
          if recField (s1.record i) 0 0 0 = 0 then { s1.defer i with upd := { (s1.defer i).upd with stalled := [i] } } else s1
        | none =>
        if live.any s1.heldBySnap then s1.inc32 Obj.SNAP_HOLDS
        else
          let need := live.length * s1.blockRecMax
          let noRoom := s1.obj Obj.STREAM_MODE = 1 ∧ s1.ringFree < s1.stream.reserved + need + 32
          if noRoom then
            (if s1.stream.waiting then s1
             else { s1.inc32 Obj.STREAM_WAITS with stream := { s1.stream with waiting := true } })
          else
            let s2 := live.foldl (fun s i => (s.flip i).2) s1
            let s3 := live.foldl (fun s i => s.regenBlock l i) s2
            let s4 := { s3 with
              stream := { s3.stream with reserved := s3.stream.reserved + need, waiting := false }
              upd := { s3.upd with committed := s3.upd.committed ++ [layer], stalled := [] } }
            if s4.layers.all (fun k => s4.upd.committed.contains k.layer) then s4.finishCommit else s4
  | _, _ => s

/-- COMMIT_STALL: a flip has waited 100 ms for pins (R294). -/
def State.commitStall (s : State) (i : Nat) : State :=
  if s.upd.stalled.contains i then
    { s.raiseN Ev.COMMIT_STALL i with upd := { s.upd with stalled := s.upd.stalled.filter (· != i) } }
  else s

/-! ### APPLY (R300, R301) -/

/-- DEDUCED, log 49. -/
def hpObjs : List Nat := rangeFrom 0x320011 16

/-- Candidate of .11 to .20: what is not staged is as the set in HP_SET shows it (R299). -/
def State.candHp (s : State) (slot k : Nat) : Nat :=
  match (s.session slot).stagedAt k with
  | some b => ofBe b
  | none => nth 0 (s.hpSet (s.obj Obj.HP_SET)) (k - 0x320011)

def applyHyperparameters (s : State) (slot : Nat) : Ans :=
  let k := s.cand slot Obj.HP_SET
  let s1 := s.take slot [Obj.HP_SET]
  ({ s1 with upd := { s1.upd with
      hp := Sparse.set (fun _ => hpDefault) s1.upd.hp k (hpObjs.map (s.candHp slot)), hpFresh := (s1.upd.hpFresh.filter (· != k)) ++ [k] } }).ok

def applyNormPolicy (s : State) (slot : Nat) : Ans :=
  if fGt (s.cand slot Obj.CLIP) (s.cand slot Obj.ABS_LIMIT) then s.no St.INCONSISTENT 1
  else (s.take slot [Obj.CLIP, Obj.ABS_LIMIT, Obj.CLIP_MODE]).ok

/-! ### Commands -/

def execNormLeaf (s : State) : Out := .next s.normLeaf
def execVerdictForm (s : State) : Out := .next s.formVerdict
def execVerdictReceived (s : State) : Out := .next s.takeVerdict
def execBuUpdateStart (layer : Fin 524288) (s : State) : Out := .next (s.startUpdate layer.val)
def execLayerCommit (layer : Fin 524288) (s : State) : Out := .next (s.commitLayer layer.val)
def execCommitStall (record : Fin 1048576) (s : State) : Out := .next (s.commitStall record.val)

/-- BU_TILE_TASK: the Blocking Unit takes a bed lent at a lend point for one tile task (R116, R290). The values of its
product are part of the layer's shadow, which BU_UPDATE_START and LAYER_COMMIT write (DESIGN CHOICE, log 17). -/
def execBuTileTask (core : CoreId) (s : State) : Out :=
  let x := s.core core.val
  let atLend := match x.job.wait with
    | .bar _ _ _ lend => lend
    | _ => false
  let free := x.tiles.all (fun q => !q.2.live)
  .next (if atLend && free && s.jobRuns && !x.lent then (s.modCore core.val (fun x => { x with lent := true })).inc64 Obj.BED_TASKS else s)

end Sys2Proof.Machine
end

