-- ==== Sys2Proof/Machine/Loader.lean ====
section
/-! DEFINITION. The loader (R181 to R185, R480, R481): its checks in the order of R184, the claims, descriptors and plans among
them (R164, R191, R203, R208, R245, R249, R273, R277, R302, R305, R306, R310, R312), and the placement of an image (R180, R245,
R270, R275, R279, R315). -/

namespace Sys2Proof.Machine

/-! ### Stage 3: claims -/

/-- R182: bytes of a panel open to a job. -/
def dramLimit : Nat := 102542344192

/-- The device-claims record against Table 7.24, in code order. -/
def checkDevClaim (s : State) (img : List Byte) (dev : Nat) : Option Refuse :=
  let (a, d) := devClaimFor img dev
  let hosted := (loansFor img).filter (fun l => l.2.host == dev)
  firstOf [
    (List.range 4).findSome? (fun p =>
      let use := nth 0 d.dram p + (hosted.filter (fun l => l.2.cls == p)).foldl (fun n l => n + l.2.length) 0
      need (decide (use ≤ dramLimit)) (a.no 0x05 use dramLimit)),
    need (decide (d.ledger ≤ 1048576)) (a.no 0x06 d.ledger 1048576),
    need (decide (d.streams ≤ 32)) (a.no 0x07 d.streams 32),
    need (decide (d.channels ≤ 64)) (a.no 0x08 d.channels 64),
    need (decide (d.priv ≤ 4)) (a.no 0x08 d.priv 4),
    need (decide (d.chanTok ≤ 131072)) (a.no 0x08 d.chanTok 131072),
    need (decide (d.privTok ≤ 2097152)) (a.no 0x08 d.privTok 2097152),
    need (decide (d.loans ≤ 64)) (a.no 0x09 d.loans 64),
    need (decide (d.routes ≤ 4096 - s.routesUsed)) (a.no 0x0A d.routes (4096 - s.routesUsed))]

/-- Units that two ranges share. -/
def shared (a n b m : Nat) : Nat := min (a + n) (b + m) - max a b

/-- A resource of a core: a range within the capacity, and apart from the other context's. -/
def checkRange (a : At) (core code cap base n : Nat) (other : Option (Nat × Nat)) : Option Refuse :=
  let both := match other with | some q => shared base n q.1 q.2 | none => 0
  firstOf [
    need (decide (n = 0) || decide (base + n ≤ cap)) (a.noC core code (base + n) cap),
    need (both == 0) (a.noC core code (cap + both) cap)]

/-- One core-claims record on its cores (R181, R481). -/
def checkClaim (cs : List (At × CoreClaim)) (i : Nat) (p : At × CoreClaim) : Option Refuse :=
  let c := p.2
  let a := p.1
  let before := cs.take i
  firstOf [
    need (decide (1 ≤ c.count) && decide (c.first + c.count ≤ 12288) && decide (c.ctx ≤ 1)) (a.no 0x24 0 0),
    (rangeFrom c.first c.count).findSome? (fun n =>
      let o := claimAt before n (1 - c.ctx)
      firstOf [
        checkRange a n 0x01 4096 c.istBase c.istWords (o.map (fun y => (y.istBase, y.istWords))),
        checkRange a n 0x02 4096 c.pocketBase c.pocketUnits (o.map (fun y => (y.pocketBase, y.pocketUnits))),
        (List.range 6).findSome? (fun v =>
          let q := nth (0, 0) c.vb v
          checkRange a n 0x03 256 q.1 q.2 (o.map (fun y => nth (0, 0) y.vb v))),
        need (c.descUnits == 0 || decide (c.pocketBase ≤ c.descBase)) (a.noC n 0x25 c.descBase c.pocketBase),
        need (c.descUnits == 0 || decide (c.descBase + c.descUnits ≤ c.pocketBase + c.pocketUnits))
          (a.noC n 0x25 (c.descBase + c.descUnits) (c.pocketBase + c.pocketUnits)),
        need (claimAt before n c.ctx).isNone (a.noC n 0x2B n 0)])]

/-- Tiles of a core in the records before one. -/
def tilesOn (ts : List (At × TileRec)) (core : Nat) : List TileRec := (ts.filter (fun q => covers q.2.first q.2.count core)).map Prod.snd

/-- One tile record on its cores (R92, R102, R181, R302, R481). -/
def checkTile (img : List Byte) (dev : Nat) (ts : List (At × TileRec)) (i : Nat) (p : At × TileRec) : Option Refuse :=
  let t := p.2
  let a := p.1
  let before := ts.take i
  firstOf [
    need (decide (1 ≤ t.count) && decide (t.first + t.count ≤ 12288) && decide (t.ctx ≤ 1) && decide (t.tile ≤ 15) &&
      decide (1 ≤ t.m) && decide (t.m ≤ 8192) && decide (1 ≤ t.n) && decide (t.n ≤ 8192) && decide (1 ≤ t.passes) &&
      decide (t.passes ≤ 256)) (a.no 0x24 0 0),
    (rangeFrom t.first t.count).findSome? (fun c =>
      let on := tilesOn before c
      let sum := on.foldl (fun n y => n + y.m * y.n) (t.m * t.n)
      let both := ((on.filter (fun y => y.ctx != t.ctx)).map (fun y => shared t.base (t.m * t.n) y.base (y.m * y.n))).foldl (· + ·) 0
      let b := match claimAt (claimsFor img dev) c t.ctx with | some y => (y.pocketBase, y.pocketBase + y.pocketUnits) | none => (0, 0)
      firstOf [
        need (decide (sum ≤ 8192)) (a.noC c 0x04 sum 8192),
        need (decide (t.base + t.m * t.n ≤ 8192)) (a.noC c 0x04 (t.base + t.m * t.n) 8192),
        need (both == 0) (a.noC c 0x04 (8192 + both) 8192),
        need (t.seg == 0xFFFF || decide (b.1 ≤ t.seg)) (a.noC c 0x25 (64 * t.seg) (64 * b.1)),
        need (t.seg == 0xFFFF || decide (64 * t.seg + 4 * (t.m * t.n) ≤ 64 * b.2)) (a.noC c 0x25 (64 * t.seg + 4 * (t.m * t.n)) (64 * b.2)),
        need (on.all (fun y => !(y.tile == t.tile && y.ctx == t.ctx))) (a.noC c 0x2B c 0)])]

/-- Stage 3: device claims, core claims, tile table, each record in turn. -/
def checkClaims (s : State) (img : List Byte) (dev : Nat) : Option Refuse :=
  let cs := claimsFor img dev
  let ts := tilesFor img dev
  firstOf [
    checkDevClaim s img dev,
    ((List.range cs.length).zip cs).findSome? (fun q => checkClaim cs q.1 q.2),
    ((List.range ts.length).zip ts).findSome? (fun q => checkTile img dev ts q.1 q.2)]

/-! ### Stage 4: descriptors -/

/-- DRAM that a device of the slice claims in a panel. -/
def dramOf (img : List Byte) (dev panel : Nat) : Nat := nth 0 (devClaimFor img dev).2.dram panel

/-- A far-side range lies within the rights and windows of a swatch master of device `me` at device `t` (R207, R208): the
bound that it passes when it does not. -/
def farBound (img : List Byte) (me t ctx a n : Nat) (write : Bool) : Option Nat :=
  let cls := clsOf a
  let off := a % 2 ^ 47
  let remote := t != me
  if cls < 4 then
    let loan := (loansFor img).find? (fun l => remote && l.2.host == t && l.2.borrower == me && l.2.cls == cls && decide (l.2.base ≤ off) &&
      decide (off + n ≤ l.2.base + l.2.length))
    if off + n ≤ dramOf img t cls ∨ loan.isSome then none else some (dramOf img t cls)
  else if cls = 4 then
    match claimAt (claimsFor img t) (off / 2 ^ 18) ctx with
    | none => some 0
    | some c =>
      let b := off % 2 ^ 18
      let lo := 64 * c.pocketBase
      let hi := 64 * (c.pocketBase + c.pocketUnits)
      let dl := 64 * c.descBase
      if off < 2 ^ 32 ∧ lo ≤ b ∧ b + n ≤ hi then
        (if write && decide (dl < b + n) && decide (b < dl + 64 * c.descUnits) then some dl else none)
      else some hi
  else if cls = 9 then (if !remote ∧ !write ∧ off + n ≤ 0x2000000 then none else some 0)
  else if cls = 10 then (if !write ∧ off + n ≤ 8 then none else some 0)
  else some 0

/-- Device index that an address names under a CHIPMODE, if it lies in the slice (R203). -/
def State.targetOf (s : State) (dev mode gaddr : Nat) : Option Nat :=
  let c := gaddr / 2 ^ 52 % 4096
  let n := sliceSize s.sliceDef
  if mode = 2 then some dev
  else if mode = 1 then (if c < n then some c else none)
  else (List.range n).find? (fun i => s.chipOfIndex i == c)

/-- A program on a core in the context names the slot in an MV DMA, or in an MV CORD. -/
def namedBy (ks : List Chk) (d : DescRec) (cord : Bool) : Bool :=
  ks.any (fun k => k.prog.ctx == d.ctx && covers d.first d.count k.core && k.starts.any (fun p =>
    match k.instr p with
    | some (.dma slot _ _ _, _) => !cord && slot == d.slot
    | some (.cord slot _, _) => cord && slot == d.slot
    | _ => false))

/-- A DMA descriptor (R191, R203, R207, R208, R481). -/
def State.checkDma (s : State) (img : List Byte) (dev : Nat) (d : DescRec) : Option Refuse :=
  let x := DmaDesc.of d.words
  firstOf [
    need (decide (x.dir ≤ 1) && decide (x.chipmode ≤ 2)) (d.at_.noC d.first 0x24 0 0),
    (match s.targetOf dev x.chipmode x.gaddr with
    | none => some (d.at_.noC d.first 0x25 (x.gaddr % 2 ^ 47) 0)
    | some t => (List.range x.rows).findSome? (fun r =>
        (farBound img dev t d.ctx (x.farAt r) x.rowLen (x.dir == 1)).map (fun b =>
          d.at_.noC d.first 0x25 (x.farAt r % 2 ^ 47 + x.rowLen) b))),
    need (x.gaddr % 8 == 0) (d.at_.noC d.first 0x2B x.gaddr 0),
    need (x.gstride % 8 == 0) (d.at_.noC d.first 0x2B x.gstride 0)]

/-- A cord descriptor (R119, R121, R191). -/
def State.checkCord (s : State) (img : List Byte) (dev : Nat) (d : DescRec) : Option Refuse :=
  let x := CordDesc.of d.words
  firstOf [
    need (x.codesOk && drnRmOk x.ofmt x.rm && x.rstride % 64 == 0) (d.at_.noC d.first 0x24 0 0),
    (match s.targetOf dev 0 x.waddr with
    | none => some (d.at_.noC d.first 0x25 (x.waddr % 2 ^ 47) 0)
    | some t =>
      let last := x.waddr % 2 ^ 52 + (x.rows - 1) * x.rstride
      if 4 ≤ clsOf (x.waddr % 2 ^ 52) then some (d.at_.noC d.first 0x25 (x.waddr % 2 ^ 47) 0)
      else (farBound img dev t d.ctx last (x.rlen * fmtWidth x.wfmt) false).map (fun b =>
        d.at_.noC d.first 0x25 (last % 2 ^ 47 + x.rlen * fmtWidth x.wfmt) b)),
    need (cordModeOk x.wfmt x.xfmt) (d.at_.noC d.first 0x2B x.xfmt 0),
    need (x.waddr % 8 == 0) (d.at_.noC d.first 0x2B x.waddr 0),
    need (decide (x.xBytes ≤ 262144)) (d.at_.noC d.first 0x2B x.xBytes 0)]

/-- Groups and their records (R164). -/
def State.checkDescs (s : State) (img : List Byte) (dev : Nat) : Option Refuse :=
  let gs := groupsFor img dev
  let ks := chksFor img dev 0 ++ chksFor img dev 1
  ((List.range gs.length).zip gs).findSome? (fun q =>
    let h := q.2.1
    let before := (gs.take q.1).flatMap Prod.snd
    firstOf [
      need (decide (1 ≤ h.count) && decide (h.first + h.count ≤ 12288) && decide (h.ctx ≤ 1) && decide (1 ≤ h.slots)) (h.at_.no 0x24 0 0),
      (rangeFrom h.first h.count).findSome? (fun c =>
        let lim := match claimAt (claimsFor img dev) c h.ctx with | some y => y.descUnits | none => 0
        need (decide (h.slot + h.slots ≤ lim)) (h.at_.noC c 0x25 (h.slot + h.slots) lim)),
      q.2.2.findSome? (fun d => firstOf [
        need d.rest (d.at_.noC d.first 0x24 0 0),
        (rangeFrom d.first d.count).findSome? (fun c => need (descAt before c d.ctx d.slot).isNone (d.at_.noC c 0x2B d.slot 0)),
        if namedBy ks d false then s.checkDma img dev d else none,
        if namedBy ks d true then s.checkCord img dev d else none])])

/-! ### Stage 4: collective plan -/

def addrCls (a : Nat) : Nat := clsOf (a % 2 ^ 52)

/-- The Purl router's rights over a range at this device (Table 8.10, note (c) given by the plan itself): the bound passed. -/
def purlBound (img : List Byte) (dev a n : Nat) (write : Bool) : Option Nat :=
  let off := a % 2 ^ 47
  match addrCls a with
  | 4 => if off < 2 ^ 32 ∧ off / 2 ^ 18 < 12288 ∧ off % 2 ^ 18 + n ≤ 2 ^ 18 then none else some (2 ^ 18)
  | 8 => if off + n ≤ 0x6000000 then none else some 0x6000000
  | 10 => if !write ∧ off + n ≤ 8 then none else some 0
  | c => if c < 4 then (if off + n ≤ dramOf img dev c then none else some (dramOf img dev c)) else some 0

/-- Mask records of an entry. -/
def masksOf (masks : List MaskRec) (p : PlanEntry) : List MaskRec := (masks.drop p.maskFirst).take p.maskCount

/-- A plan entry's encodings (R246, R249, R277). -/
def planCodesOk (size : Nat) (nMasks i : Nat) (p : PlanEntry) : Bool :=
  p.entry == i && decide (p.entry < 0xFFFE) && decide (p.kind ≤ 2) && p.flags / 16 == 0 && (!p.fuse || p.kind == 2) &&
    (!p.isLocal || p.kind != 0) && decide (p.stream ≤ 31) && decide (p.sfmt ≤ 4) && decide (p.ofmt ≤ 4) &&
    (if p.kind = 0 then p.pfmt == 0 && p.ofmt == p.sfmt else p.pfmt == 3 || p.pfmt == 4) && decide (p.root < size) &&
    decide (1 ≤ p.chunkKib) && decide (p.chunkKib ≤ 256) &&
    (if p.isLocal then decide (1 ≤ p.icount) && decide (p.icount ≤ 12288) else p.icount == 1) && decide (p.issuer + p.icount ≤ 12288) &&
    decide (p.maskFirst + p.maskCount ≤ nMasks)

/-- COLLECTIVE_PLAN (R245, R249) (DEDUCED, log 52). -/
def State.checkPlan (s : State) (img : List Byte) (dev anchor : Nat) : Option Refuse :=
  let (sec, ps, ms) := planFor img dev
  let size := sliceSize s.sliceDef
  let streams := (0 :: ps.map PlanEntry.stream).eraseDups.length
  let claim := (devClaimFor img dev).2.streams
  let roots := (anchor :: ps.map PlanEntry.root).eraseDups.length
  let room := 4096 - s.routesUsed
  firstOf [
    ((List.range ps.length).zip ps).findSome? (fun q =>
      let a : At := (sec, q.1)
      let p := q.2
      let mine := masksOf ms p
      let own := mine.filter (fun m => m.device == dev)
      let src := fun (x : Nat) => if p.isLocal then x % 2 ^ 52 / 2 ^ 32 * 2 ^ 32 + p.issuer * 2 ^ 18 + x % 2 ^ 18 else x
      let w := fmtWidth p.sfmt
      let reads : List (Nat × Nat) :=
        if p.kind = 0 ∧ p.root ≠ dev then []
        else if p.maskCount = 0 then [(src p.src, p.elems * w)]
        else own.map (fun m => (src m.src, min (m.chunks * p.perChunk) (p.elems - m.first * p.perChunk) * w))
      let writes : List (Nat × Nat) :=
        if p.kind = 2 ∨ decide (p.root = dev) = decide (p.kind = 1) then [(p.dst, p.elems * fmtWidth p.ofmt)] else []
      firstOf [
        reads.findSome? (fun r => (purlBound img dev r.1 r.2 false).map (fun b => a.no 0x25 (r.1 % 2 ^ 47 + r.2) b)),
        writes.findSome? (fun r => (purlBound img dev r.1 r.2 true).map (fun b => a.no 0x25 (r.1 % 2 ^ 47 + r.2) b)),
        need (planCodesOk size ms.length q.1 p) (a.no 0x2B q.1 0),
        mine.findSome? (fun m => need (decide (m.device < size) && decide (m.first + m.chunks ≤ p.nChunks)) (a.no 0x2B m.device 0)),
        if p.isLocal then (p.src :: mine.map MaskRec.src).findSome? (fun x => need (addrCls x == 4) (a.no 0x2B x 0)) else none]),
    need (decide (streams ≤ claim)) (At.no (sec, 0) 0x07 streams claim),
    need (decide (roots ≤ room)) (At.no (sec, 0) 0x0A roots room)]

/-! ### Stage 4: sequence plan -/

/-- An area of the image in DRAM: its place, class, first offset, bytes. -/
abbrev Area := At × Nat × Nat × Nat

def areaAt (a : At) (addr n : Nat) : Area := (a, addrCls addr, addr % 2 ^ 47, n)

/-- Areas of the sequence plan (R306). -/
def feedAreas (img : List Byte) (dev : Nat) : List Area :=
  let qs := seqsFor img dev
  qs.flatMap (fun q =>
    q.streams.map (fun t => areaAt (q.sec, 0) t.addr (t.slots * t.slotBytes)) ++
    ((List.range q.channels.length).zip q.channels).map (fun c => areaAt (q.sec, c.1) c.2.addr (q.passes * c.2.bufBytes)))

/-- Ring devices of a privileged channel, or none when the ring leaves the slice (R310). -/
def ringOf (shape : List Nat) (wrap : Nat → Bool) (c : ChanRec) : Option (List Nat) :=
  let sx := nth 1 shape 0
  let sy := nth 1 shape 1
  let pos := [c.origin % sx, c.origin / sx % sy, c.origin / (sx * sy)]
  let ext := nth 1 shape c.axis
  let a0 := nth 0 pos c.axis
  let idx := fun (v : Nat) =>
    let q := setNth pos c.axis v
    nth 0 q 0 + sx * (nth 0 q 1 + sy * nth 0 q 2)
  let whole := wrap c.axis && c.ring == ext
  let coords := (List.range c.ring).map (fun p =>
    if whole then a0 + p
    else if p < ceilDiv c.ring 2 then a0 + 2 * p else a0 + 2 * (c.ring - 1 - p) + 1)
  if sx * sy * nth 1 shape 2 ≤ c.origin ∨ ext < a0 + c.ring then none else some (coords.map idx)

/-- A device's channels. -/
def chansFor (img : List Byte) (dev : Nat) : List ChanRec := (seqsFor img dev).flatMap SeqSec.channels

def checkSeq (s : State) (img : List Byte) (dev : Nat) : Option Refuse :=
  let qs := seqsFor img dev
  let all := ((imgDir img).filter (fun x => x.ty == 0x07)).map (fun x => seqOf x.idx (x.scope == 0xFFFF) (x.bytes img))
  let passes := match qs with | q :: _ => q.passes | [] => 0
  let d := (devClaimFor img dev).2
  let streams := qs.flatMap SeqSec.streams
  let sources := qs.flatMap SeqSec.sources
  let chans := qs.flatMap SeqSec.channels
  let priv := chans.filter (fun c => c.stream != 0)
  let ts := tilesFor img dev
  firstOf [
    qs.findSome? (fun q =>
      let h : At := (q.sec, 0)
      firstOf [
        need (decide (1 ≤ q.passes) && decide (q.passes ≤ 256) && decide (q.streams.length ≤ 5) && decide (q.sources.length ≤ 16) &&
          q.streams.all (fun t => decide (t.stream ≤ 4) && decide (1 ≤ t.sourceCount) && decide (t.sourceCount ≤ 16) && decide (1 ≤ t.slots) &&
            decide (t.slots ≤ 65536) && decide (1 ≤ t.sampleMax) && decide (t.sampleMax ≤ 2097152)) &&
          q.sources.all (fun x => decide (x.kind ≤ 1) && decide (x.endpoint ≤ 15) && decide (1 ≤ x.samples)) &&
          q.channels.all (fun c => decide (c.channel ≤ 63) && decide (c.stream ≤ 4) && decide (c.axis ≤ 2) && decide (1 ≤ c.cap) &&
            decide (1 ≤ c.maxSegs) && decide (c.maxSegs ≤ 4096) &&
            (if c.stream = 0 then c.ring == 1 else decide (2 ≤ c.ring) && decide (c.ring ≤ 16)))) (h.no 0x24 0 0),
        need (q.streams.all (fun t => q.shared == (t.stream != 0))) (h.no 0x2B 0 0)]),
    qs.head?.bind (fun q =>
      let h : At := (q.sec, 0)
      firstOf [
        need (decide (chans.length ≤ 64)) (h.no 0x08 chans.length 64),
        need (decide (priv.length ≤ 4)) (h.no 0x08 priv.length 4),
        need (decide (chans.length ≤ d.channels)) (h.no 0x08 chans.length d.channels),
        need (decide (priv.length ≤ d.priv)) (h.no 0x08 priv.length d.priv),
        all.findSome? (fun x => need (x.passes == passes) (At.no (x.sec, 0) 0x2B x.passes 0)),
        streams.findSome? (fun t => need (decide (t.firstSource + t.sourceCount ≤ sources.length)) (h.no 0x2B t.stream 0))]),
    qs.findSome? (fun q => ((List.range q.channels.length).zip q.channels).findSome? (fun p =>
      let a : At := (q.sec, p.1)
      let c := p.2
      let lim := if c.stream = 0 then d.chanTok else d.privTok
      let use := if c.stream = 0 then c.cap else c.ring * c.cap
      let cap := if c.stream = 0 then 131072 else 2097152
      let ring := if c.stream = 0 then some [] else ringOf (imgShape img) (sWrap s.sliceDef) c
      firstOf [
        need (decide (use ≤ cap) && decide (c.cap ≤ 131072)) (a.no 0x08 use cap),
        need (decide (use ≤ lim)) (a.no 0x08 use lim),
        match ring with | some _ => none | none => some (a.no 0x08 c.ring 0),
        need ((chans.filter (fun x => x.channel == c.channel)).length == 1) (a.no 0x2B c.channel 0),
        need (streams.any (fun t => t.stream == c.stream)) (a.no 0x2B c.stream 0),
        need (c.stream == 0 || (priv.filter (fun x => x.stream == c.stream)).length == 1) (a.no 0x2B c.stream 0),
        need ((ring.getD []).all (fun t => (chansFor img t).contains c)) (a.no 0x2B c.channel 0)])),
    ts.findSome? (fun t => need (qs.isEmpty || decide (t.2.passes ≤ passes)) (t.1.no 0x2B t.2.passes 0))]

/-! ### Stage 4: loan regions (R208, R312) -/

def checkLoans (s : State) (img : List Byte) (dev : Nat) : Option Refuse :=
  let ls := loansFor img
  let size := sliceSize s.sliceDef
  let mine := (ls.filter (fun l => l.2.host == dev)).length
  let want := (devClaimFor img dev).2.loans
  let a0 : At := match ls with | l :: _ => (l.1.1, 0) | [] => hdrAt
  firstOf [
    need (decide (mine ≤ 64)) (a0.no 0x09 mine 64),
    need (mine == want) (a0.no 0x09 mine want),
    ((List.range ls.length).zip ls).findSome? (fun q =>
      let a := q.2.1
      let l := q.2.2
      let job := dramOf img l.host l.cls
      let other := (ls.take q.1).find? (fun y => y.2.host == l.host && y.2.cls == l.cls && decide (l.base < y.2.base + y.2.length) &&
        decide (y.2.base < l.base + l.length))
      firstOf [
        need (decide (l.cls ≤ 3)) (a.no 0x24 0 0),
        need (decide (job ≤ l.base)) (a.no 0x25 l.base job),
        need (decide (l.base + l.length ≤ reservedBase)) (a.no 0x25 (l.base + l.length) reservedBase),
        match other with | some y => some (a.no 0x25 l.base (y.2.base + y.2.length)) | none => none,
        need (l.base % 2 ^ 20 == 0) (a.no 0x2B l.base 0),
        need (l.length % 2 ^ 20 == 0 && l.length != 0) (a.no 0x2B l.length 0),
        need (l.host != l.borrower && decide (l.host < size) && decide (l.borrower < size)) (a.no 0x2B l.host 0),
        need ((chansFor img l.borrower).any (fun c => c.channel == l.channel && c.stream != 0)) (a.no 0x2B l.channel 0)])]

/-! ### Stage 4: Ledger section (R273, R276, R277) -/

/-- Areas of a Ledger section: frames, residues, gradients, working copies, layer states, workspaces. -/
def ledgerAreas (l : LedgerSec) : List Area :=
  ((List.range l.recs.length).zip l.recs).flatMap (fun p =>
    let a : At := (l.sec, p.1)
    areaAt a (Rec.frame p.2) 66560 :: (if Rec.federation p.2 then [areaAt a (Rec.residue p.2 0) 16384] else [])) ++
  ((List.range l.layers.length).zip l.layers).flatMap (fun p =>
    let a : At := (l.sec, p.1)
    let y := p.2
    [areaAt a y.gradAddr (y.rows * y.cols * fmtWidth y.gfmt), areaAt a y.wcAddr (4096 * y.blocks * fmtWidth y.wfmt)] ++
      (if y.stateBytes = 0 then [] else [areaAt a y.stateAddr y.stateBytes])) ++
  ((List.range 4).filter (fun p => 0 < nth 0 l.workBytes p)).map (fun p => areaAt (l.sec, 0) (gta p (nth 0 l.workOff p)) (nth 0 l.workBytes p))

/-- Every area lies in its panel's job region and apart from those before it (R277, R306). -/
def checkAreas (img : List Byte) (dev : Nat) (as : List Area) : Option Refuse :=
  ((List.range as.length).zip as).findSome? (fun q =>
    let (a, cls, lo, n) := q.2
    let top := if cls < 4 then dramOf img dev cls else 0
    firstOf [
      need (decide (lo + n ≤ top)) (a.no 0x25 (lo + n) top),
      (((as.take q.1).find? (fun y => y.2.1 == cls && decide (0 < n) && decide (lo < y.2.2.1 + y.2.2.2) && decide (y.2.2.1 < lo + n)))).map
        (fun y => a.no 0x25 lo (y.2.2.1 + y.2.2.2))])

/-- Workspace and layer state that a layer needs (Table 11.8). -/
def workNeed (y : Layer) : Nat :=
  let m := min y.rows y.cols
  if y.rule = 1 then 4 * y.rows * y.cols + 4 * m * m
  else if y.rule = 2 then 4 * (y.rows ^ 2 + y.cols ^ 2) + 4 * y.rows * y.cols
  else 0
def stateNeed (y : Layer) : Nat := if y.rule = 2 then 16 * (y.rows ^ 2 + y.cols ^ 2) else 0

/-- CLs of an entry that a device's cores execute, in one step. -/
def clCount (evs : List (List Evt)) (e : Nat) : Nat :=
  evs.foldl (fun n es => n + (es.filter (fun x => match x with | .cl _ d _ _ => d == e | _ => false)).length) 0

/-- Events before the first PHASE 3 bar. -/
def beforeNorm : List Evt → List Evt
  | [] => []
  | .bar w id sc ph l :: es => if ph = 3 then [] else .bar w id sc ph l :: beforeNorm es
  | e :: es => e :: beforeNorm es

/-- Largest value of a running count of pins over a core's events: plus one at a GATHER, minus one at its release. -/
def pinPeak (pins : List PinPlan) : Int → List Evt → Int
  | _, [] => 0
  | n, .cl _ e _ _ :: es =>
    let n' := n + ((pins.filter (fun p => p.gather == e)).length : Int) -
      ((pins.filter (fun p => p.kind == 0 && p.release == e)).length : Int)
    max n' (pinPeak pins n' es)
  | n, _ :: es => pinPeak pins n es

/-- Pins that the blocks at record `r` can hold at once (R273). Plans whose GATHER and RELEASE are issued by different cores
count every issue (DEDUCED, log 52). -/
def pinsAt (ks : List Chk) (evs : List (List Evt)) (plan : List PlanEntry) (pins : List PinPlan) (r : Nat) : Nat :=
  let mine := pins.filter (fun p => decide (p.first ≤ r) && decide (r < p.first + p.count))
  let issuer := fun (e : Nat) => (plan.find? (fun q => q.entry == e)).map PlanEntry.issuer
  let split := mine.filter (fun p => p.kind == 0 && issuer p.gather != issuer p.release)
  let joint := mine.filter (fun p => !(p.kind == 0 && issuer p.gather != issuer p.release))
  split.foldl (fun n p => n + clCount evs p.gather) 0 +
    (ks.zip evs).foldl (fun n q => n + (pinPeak (joint.filter (fun p => issuer p.gather == some q.1.core)) 0 q.2).toNat) 0

/-- Layers of a Ledger section (R277). -/
def checkLayer (l : LedgerSec) (plan : List PlanEntry) (dev : Nat) (i : Nat) (y : Layer) : Option Refuse :=
  let a : At := (l.sec, i)
  let mine := (List.range l.recs.length).filter (fun j => Rec.layer (nth [] l.recs j) == i)
  let fr := (y.recs.filter (fun j => Rec.frozen (nth [] l.recs j))).length
  firstOf [
    need (decide (y.rule ≤ 2) && decide (y.hpSet ≤ 15) && (y.wfmt == 0 || y.wfmt == 3) && (y.gfmt == 1 || y.gfmt == 3 || y.gfmt == 4) &&
      decide (y.mclass ≤ 3) && decide (1 ≤ y.rows) && decide (y.rows ≤ 65536) && decide (1 ≤ y.cols) && decide (y.cols ≤ 65536) &&
      decide (1 ≤ y.gradIssues) && decide (y.gradIssues ≤ 256)) (a.no 0x24 0 0),
    need (y.layer == i) (a.no 0x2B y.layer 0),
    need (y.blocks == ceilDiv (y.rows * y.cols) 4096) (a.no 0x2B y.blocks 0),
    need (decide (mine = y.recs)) (a.no 0x2B y.first 0),
    need (mine.all (fun j => Rec.mclass (nth [] l.recs j) == y.mclass)) (a.no 0x2B y.mclass 0),
    need (y.rule == 0 || fr == 0 || fr == y.blocks) (a.no 0x2B fr 0),
    need (y.rule != 1 || decide (min y.rows y.cols ≤ 8192)) (a.no 0x2B (min y.rows y.cols) 0),
    need (y.rule != 2 || (decide (y.rows ≤ 8192) && decide (y.cols ≤ 8192))) (a.no 0x2B (max y.rows y.cols) 0),
    need (decide (stateNeed y ≤ y.stateBytes)) (a.no 0x2B y.stateBytes 0),
    need (decide (workNeed y ≤ nth 0 l.workBytes y.mclass)) (a.no 0x2B (nth 0 l.workBytes y.mclass) 0),
    need (plan.any (fun p => p.entry == y.gradEntry && p.kind != 0 && p.gate && p.root == dev && p.elems == y.rows * y.cols &&
      p.ofmt == y.gfmt && p.dst % 2 ^ 52 == y.gradAddr % 2 ^ 52)) (a.no 0x2B y.gradEntry 0)]

/-- Block records (R276, R277). -/
def checkRec (l : LedgerSec) (others : List Nat) (j : Nat) (r : List Byte) : Option Refuse :=
  let a : At := (l.sec, j)
  let zero := Rec.version r == 0 && Rec.sel r == 0 && Rec.rsel r == 0 && recField r 0 0 0 == 0 && Rec.pins r == 0 && Rec.lastSent r == 0 &&
    Rec.lastAck r == 0 && Rec.check r == 0
  firstOf [
    need zero (a.no 0x2B j 0),
    need (!(others.contains (Rec.blockId r)) && (l.recs.take j).all (fun q => Rec.blockId q != Rec.blockId r)) (a.no 0x2B (Rec.blockId r) 0),
    need (decide (Rec.layer r < l.layers.length)) (a.no 0x2B (Rec.layer r) 0),
    need (Rec.federation r || (Rec.rclass r == 0 && Rec.roff r == 0)) (a.no 0x2B (Rec.roff r) 0)]

/-- Pin plans (R273, R277, R297). -/
def checkPins (img : List Byte) (dev : Nat) (l : LedgerSec) (plan : List PlanEntry) : Option Refuse :=
  let ks := chksFor img dev 0
  let steps := allSteps img ks
  let root := fun (e : Nat) => plan.any (fun p => p.entry == e && p.kind == 0 && p.root == dev)
  firstOf [
    ((List.range l.pins.length).zip l.pins).findSome? (fun q =>
      let a : At := (l.sec, q.1)
      let p := q.2
      firstOf [
        need (decide (p.kind ≤ 1)) (a.no 0x24 0 0),
        need (root p.gather) (a.no 0x2B p.gather 0),
        need (decide (p.first + p.count ≤ l.recs.length)) (a.no 0x2B (p.first + p.count) 0),
        need (p.kind == 1 || (root p.release && steps.all (fun evs =>
          decide (clCount evs p.gather ≤ clCount (evs.map beforeNorm) p.release)))) (a.no 0x2B p.release 0)]),
    l.pins.findSome? (fun p => steps.findSome? (fun evs =>
      let n := pinsAt ks evs plan l.pins p.first
      need (decide (n ≤ 255)) (At.no (l.sec, 0) 0x2B n 0)))]

/-- Every job core of a panel has a lend point of phase 3 or 4 in its step. -/
def panelLends (img : List Byte) (dev panel : Nat) : Bool :=
  let ks := chksFor img dev 0
  (allSteps img ks).all (fun evs => (ks.zip evs).all (fun p => p.1.core / 3072 != panel || p.2.any (fun e =>
    match e with | .bar _ _ _ ph lend => lend && (ph == 3 || ph == 4) | _ => false)))

/-- A panel with a matrix rule lends its beds (R277). -/
def checkLend (img : List Byte) (dev : Nat) (l : LedgerSec) : Option Refuse :=
  ((List.range l.layers.length).zip l.layers).findSome? (fun q =>
    if q.2.rule = 0 then none else need (panelLends img dev q.2.mclass) (At.no (l.sec, q.1) 0x2B q.2.mclass 0))

/-- LEDGER_INIT. -/
def checkLedger (s : State) (img : List Byte) (dev : Nat) : Option Refuse :=
  match ledgerFor img dev with
  | none => none
  | some l =>
    let h : At := (l.sec, 0)
    let plan := (planFor img dev).2.1
    let rest := ((imgDir img).filter (fun x => x.ty == 0x06 && x.idx != l.sec)).map (fun x => ledgerOf x.idx (x.bytes img))
    let others := rest.flatMap (fun x => x.recs.map Rec.blockId)
    let lim := min 1048576 (devClaimFor img dev).2.ledger
    firstOf [
      need (decide (l.nRecs ≤ lim)) (h.no 0x06 l.nRecs lim),
      need (rest.all (fun x => x.anchor == l.anchor) && decide (l.anchor < sliceSize s.sliceDef)) (h.no 0x2B l.anchor 0),
      ((List.range l.layers.length).zip l.layers).findSome? (fun q => checkLayer l plan dev q.1 q.2),
      ((List.range l.recs.length).zip l.recs).findSome? (fun q => checkRec l others q.1 q.2),
      checkPins img dev l plan,
      checkLend img dev l]

/-- DRAM_INIT records (R480). -/
def checkInits (img : List Byte) (dev : Nat) : Option Refuse :=
  (initsFor img dev).findSome? (fun p =>
    let lim := dramOf img dev p.2.cls
    firstOf [
      need (decide (p.2.cls ≤ 3)) (p.1.no 0x24 0 0),
      need (decide (p.2.off + p.2.data.length ≤ lim)) (p.1.no 0x25 (p.2.off + p.2.data.length) lim)])

/-! ### GATE sources and other devices (R262) -/

/-- Bytes of this device that descriptors of other devices' programs write. -/
def State.remoteWrites (s : State) (img : List Byte) (dev : Nat) : List (Nat × Nat) :=
  ((List.range (sliceSize s.sliceDef)).filter (· != dev)).flatMap (fun t =>
    let ks := chksFor img t 0 ++ chksFor img t 1
    ((descsFor img t).filter (fun d => namedBy ks d false)).flatMap (fun d =>
      let x := DmaDesc.of d.words
      if x.dir = 1 ∧ s.targetOf t x.chipmode x.gaddr = some dev then (List.range x.rows).map (fun r => (x.farAt r, x.rowLen)) else []))

def State.checkRemoteGates (s : State) (img : List Byte) (dev : Nat) : Option Refuse :=
  let w := s.remoteWrites img dev
  if w = [] then none
  else
    let ks := chksFor img dev 0
    (allSteps img ks).findSome? (fun evs => (gates ks evs).findSome? (fun g =>
      if hits g.2.2 w then some (At.noC ((planFor img dev).1, 0) g.1 0x2B (nth (0, 0) g.2.2 0).1 0) else none))

/-! ### All stages -/

/-- The norm-anchor device that the image names; device index 0 when no Ledger section names one (DEDUCED, log 52). -/
def anchorOf (img : List Byte) : Nat :=
  match (imgDir img).find? (fun x => x.ty == 0x06) with
  | some x => (ledgerOf x.idx (x.bytes img)).anchor
  | none => 0

/-- Digest of the bytes before the signature section (R183). -/
def imgDigest (img : List Byte) : List Byte := digest64 (img.take (img.length - 114))

/-- The owner key that the image names, if it is enrolled (R183). -/
def State.ownerKey (s : State) (id : List Byte) : Option (List Byte) :=
  (s.flash.keys.find? (fun q => q.2.role == 2 && keyIdOf q.2.key == id)).map (fun q => q.2.key)

/-- Stages 1 and 2 of R184: header, identity, signature, slice. -/
def State.checkHead (s : State) (img : List Byte) : Option Refuse :=
  let d := s.sliceDef
  firstOf [
    checkForm img,
    need (imgIdRev img == s.obj Obj.ID_REV) (hdrAt.no 0x21 0 0),
    need (match s.ownerKey (imgOwner img) with
      | some key => ed448phVerify key (imgDigest img) (img.drop (img.length - 114))
      | none => false) (hdrAt.no 0x22 0 0),
    need (decide (SLICE_CREATED ≤ s.sliceState) && imgShape img == [sExt d 0, sExt d 1, sExt d 2] && imgDimord img == d.dimord.toNat)
      (hdrAt.no 0x23 0 0)]

/-- All of the loader's checks, in the order of R184: the first failure (DEDUCED, log 52). -/
def State.checkImage (s : State) (img : List Byte) : Option Refuse :=
  match s.checkHead img with
  | some r => some r
  | none =>
    let dev := s.deviceIndex
    match checkOnce img dev with
    | some r => some r
    | none =>
      firstOf [
        checkClaims s img dev,
        s.checkDescs img dev,
        checkLedger s img dev,
        checkSeq s img dev,
        s.checkPlan img dev (anchorOf img),
        checkLoans s img dev,
        checkInits img dev,
        checkAreas img dev ((match ledgerFor img dev with | some l => ledgerAreas l | none => []) ++ feedAreas img dev),
        s.checkRemoteGates img dev,
        checkPrograms img dev]

/-! ### Placement -/

/-- Registers as LOAD sets them (R180). -/
def loadRegs (p : Prog) (seed : Nat) : Regs where
  x1 := 0
  x2 := 0
  x3 := 0
  fmode := BitVec.ofNat 32 p.fmode
  fstat := 0
  srstate := if seed % 2 ^ 64 = 0 then 1 else BitVec.ofNat 64 seed
  rctl := BitVec.ofNat 32 p.strict
  rstat := 0

/-- A context as its claims and its program give it. -/
def ctxFor (claim : Option CoreClaim) (prog : Option (Prog × Nat)) : Ctx :=
  let c := match claim with
    | some y => { Ctx.reset with pocketBase := y.pocketBase, pocketUnits := y.pocketUnits, descBase := y.descBase, descUnits := y.descUnits }
    | none => Ctx.reset
  match prog with
  | some (p, seed) =>
    let r := loadRegs p seed
    { c with present := true, pc := p.entry, entry := p.entry, regs := r, atStep := r, atLoad := r }
  | none => c

/-- A core without an image: its counters, mark register and breakpoints stay. -/
def CoreSt.bare (x : CoreSt) : CoreSt :=
  { CoreSt.reset with mark := x.mark, bps := x.bps, invalid := x.invalid, permx := x.permx, resCorr := x.resCorr, resUncorr := x.resUncorr }

/-- Program of a core's context, with its seed. -/
def progAt (ps : List (At × Prog)) (core ctx : Nat) : Option (Prog × Nat) :=
  (ps.find? (fun p => p.2.ctx == ctx && covers p.2.first p.2.count core)).map (fun p => (p.2, nth 0 p.2.seeds (core - p.2.first)))

/-- A core as the image makes it (DESIGN CHOICE, log 36). -/
def coreFor (cs : List (At × CoreClaim)) (ts : List (At × TileRec)) (ps : List (At × Prog)) (core : Nat) (x : CoreSt) : CoreSt :=
  let y := { x.bare with
    job := ctxFor (claimAt cs core 0) (progAt ps core 0)
    filler := ctxFor (claimAt cs core 1) (progAt ps core 1) }
  (ts.filter (fun t => covers t.2.first t.2.count core)).foldl (fun y t =>
    y.setTile (ctxOf t.2.ctx) t.2.tile { Tile.reset with base := t.2.base, m := t.2.m, n := t.2.n, seg := t.2.seg, passes := t.2.passes }) y

/-- Cores that a record of the image names. -/
def coresNamed (img : List Byte) (dev : Nat) : List Nat :=
  let rs := (claimsFor img dev).map (fun p => (p.2.first, p.2.count)) ++ (tilesFor img dev).map (fun p => (p.2.first, p.2.count)) ++
    (progsFor img dev).map (fun p => (p.2.first, p.2.count))
  (List.range 12288).filter (fun c => rs.any (fun r => covers r.1 r.2 c))

/-- The image as the device holds it. -/
def imageOf (img : List Byte) (dev : Nat) : Image :=
  let qs := seqsFor img dev
  let pl := planFor img dev
  let lg := ledgerFor img dev
  { ownerKey := imgOwner img
    steps := imgSteps img
    dram := (devClaimFor img dev).2.dram
    loans := (loansFor img).map Prod.snd
    plan := pl.2.1
    masks := pl.2.2
    layers := match lg with | some l => l.layers | none => []
    pinPlans := match lg with | some l => l.pins | none => []
    workOff := match lg with | some l => l.workOff | none => [0, 0, 0, 0]
    workBytes := match lg with | some l => l.workBytes | none => [0, 0, 0, 0]
    ledger := min 1048576 (devClaimFor img dev).2.ledger
    lends := (List.range 4).map (panelLends img dev)
    passes := match qs with | q :: _ => q.passes | [] => 0
    streams := qs.flatMap SeqSec.streams
    sources := qs.flatMap SeqSec.sources
    channels := qs.flatMap SeqSec.channels }

/-- Write the programs into the instruction stores and the descriptors into the pockets. -/
def State.placeWords (s : State) (img : List Byte) (dev : Nat) : State :=
  let s1 := (progsFor img dev).foldl (fun s p =>
    (rangeFrom p.2.first p.2.count).foldl (fun s c => s.writeMem (istoreAddr c p.2.base) (p.2.words.flatMap (leBytes 8)) 0) s) s
  (descsFor img dev).foldl (fun s d =>
    (rangeFrom d.first d.count).foldl (fun s c =>
      match claimAt (claimsFor img dev) c d.ctx with
      | some y => s.writeMem (pocketAddr c (64 * (y.descBase + d.slot))) (d.words.flatMap (leBytes 8) ++ zeros 32) 0
      | none => s) s) s1

/-- Block records with OWNER and CHECK (R270, R275). -/
def State.placeRecs (s : State) (recs : List (List Byte)) : State :=
  ((List.range recs.length).zip recs).foldl (fun s p => s.putRec p.1 (setField p.2 1 47 36 s.chip)) s

/-- Tree entries for the distinct roots (R245). -/
def State.placeTrees (s : State) (roots : List Nat) : State :=
  let d := s.sliceDef
  { s with torus := { s.torus with routes := putRoutes s.torus.routes 0 4096 (roots.eraseDups.map (fun r => s.treeEntry d (posOfIndex d r))) } }

/-- The bytes of hosted loan regions are open at placement (R211) (DEDUCED, log 53). -/
def State.openLoans (s : State) (ls : List Loan) : State :=
  ls.foldl (fun s l =>
    let a := gta l.cls l.base
    { s.spend with mem := s.mem.put a ((List.range l.length).map (fun j => Config.freeByte s.free (a + j))) }) s

/-- Placement of an image that passed every check, in one action (R184, R208) (DEDUCED, log 53). -/
def State.placeImage (s : State) (img : List Byte) : State :=
  let dev := s.deviceIndex
  let im := imageOf img dev
  let cs := claimsFor img dev
  let ts := tilesFor img dev
  let ps := progsFor img dev
  let s1 := (coresNamed img dev).foldl (fun s c => s.setCore c (coreFor cs ts ps c (s.core c))) s
  let s2 := (s1.placeWords img dev).placeRecs (match ledgerFor img dev with | some l => l.recs | none => [])
  let s3 := s2.placeTrees (im.plan.map PlanEntry.root ++ [anchorOf img])
  let s4 := s3.openLoans (im.loans.filter (fun l => l.host == dev))
  let s5 := (initsFor img dev).foldl (fun s p => s.writeMem (gta p.2.cls p.2.off) p.2.data 0) s4
  (({ s5 with job := { s5.job with image := some im } }).setObj Obj.NORM_ANCHOR (anchorOf img)).feedLoad im

/-- The image in force is discarded: windows, tree entries, Ledger, programs, tiles, collectives, update and feed (R184, R185,
R208, R267, R270). -/
def State.discardImage (s : State) : State :=
  let s1 := (s.endCollectives.clearCollectives).clearLedger
  let s2 := { s1 with
    cores := (s1.cores.map (fun (q : Nat × CoreSt) => (q.1, q.2.bare))).filter (fun q => q.2 != CoreSt.reset)
    dma := { s1.dma with xfers := [], flights := [] }
    job := JobSt.reset
    upd := UpdSt.reset
    feed := FeedSt.reset
    resh := ReshSt.reset
    poisonHere := false }
  let s3 := ([Obj.STEPS_DONE, Obj.ABORTED, Obj.TRAPPED, Obj.COMMITTED, Obj.ATTEMPTS, Obj.ROUNDS_MERGED, Obj.STEPS, Obj.DEBUG_GRANT,
    Obj.UNVERIFIED, Obj.RS_STATE].foldl (fun s k => s.setObj k 0) s2)
  s3.setObj Obj.FIRST_TRAP 0xFFFF

end Sys2Proof.Machine
end

