-- ==== Sys2Proof/Machine/Reshard.lean ====
section
/-! DEFINITION. Re-sharding in place (R265, R321 to R323): the plan of Table 12.7, its checks, and the sequence of Table 12.8 as
one device takes part in it. -/

namespace Sys2Proof.Machine

/-! ### The plan (Table 12.7) -/

structure RsRoot where
  entry : Nat
  root : Nat
  dst : Nat
deriving DecidableEq, Repr

/-- An outgoing layer: old owner, new owner, layer index at the old owner, move entries of frames, residues, state, gradient. -/
structure RsOut where
  src : Nat
  dst : Nat
  layer : Nat
  frame : Nat
  res : Nat
  state : Nat
  grad : Nat
deriving DecidableEq, Repr

/-- An arriving layer: new owner, descriptor, record images. -/
structure RsIn where
  dst : Nat
  layer : Layer
  recs : List (List Byte)
deriving DecidableEq, Repr

structure RsPlan where
  stepAt : Nat
  epoch : Nat
  roots : List RsRoot
  outs : List RsOut
  ins : List RsIn
  /-- The parts fill the object. -/
  whole : Bool
deriving DecidableEq, Repr

/-- `n` arriving records from the front of the bytes, and what is left. -/
def insOf : Nat → List Byte → List RsIn × List Byte
  | 0, b => ([], b)
  | n + 1, b =>
    let y := layerOf (slice b 8 128)
    let rs := (List.range y.blocks).map (fun j => slice b (136 + 32 * j) 32)
    let r := insOf n (b.drop (136 + 32 * y.blocks))
    (⟨leAt b 0 2, y, rs⟩ :: r.1, r.2)

def rsPlanOf (b : List Byte) : RsPlan :=
  let nr := leAt b 12 4
  let no := leAt b 16 4
  let ni := leAt b 20 4
  let o0 := 32 + 16 * nr
  let i0 := o0 + 16 * no
  if b.length < i0 + 136 * ni then ⟨leAt b 0 8, leAt b 8 1, [], [], [], false⟩
  else
    let r := insOf ni (b.drop i0)
    { stepAt := leAt b 0 8
      epoch := leAt b 8 1
      roots := (List.range nr).map (fun i => ⟨leAt b (32 + 16 * i) 2, leAt b (34 + 16 * i) 2, leAt b (40 + 16 * i) 8⟩)
      outs := (List.range no).map (fun i =>
        let o := o0 + 16 * i
        ⟨leAt b o 2, leAt b (o + 2) 2, leAt b (o + 4) 4, leAt b (o + 8) 2, leAt b (o + 10) 2, leAt b (o + 12) 2, leAt b (o + 14) 2⟩)
      ins := r.1
      whole := r.2.isEmpty && r.1.all (fun x => x.recs.all (fun q => q.length == 32)) }

/-- Move entries of an outgoing layer (Table 12.7). -/
def RsOut.moves (o : RsOut) : List Nat := [o.frame, o.res] ++ (if o.state = 0xFFFF then [] else [o.state]) ++ [o.grad]

/-- The armed plan. -/
def State.rsPlan (s : State) : RsPlan := rsPlanOf (s.dom Obj.RS_PLAN)

/-- Plan entries with the new roots. -/
def RsPlan.reroot (p : RsPlan) (es : List PlanEntry) : List PlanEntry :=
  es.map (fun e => match p.roots.find? (fun r => r.entry == e.entry) with
    | some r => { e with root := r.root, dst := r.dst }
    | none => e)

/-! ### Checks of APPLY (R321) -/

/-- Layers of this device that the plan leaves where they are. -/
def RsPlan.staying (p : RsPlan) (me : Nat) (ls : List Layer) : List Layer :=
  ls.filter (fun l => !(p.outs.any (fun o => o.src == me && o.layer == l.layer)))

/-- The areas that a layer uses at its owner, with its records' bytes: class, offset, length. -/
def layerAreas (y : Layer) (recs : List (List Byte)) : List (Nat × Nat × Nat) :=
  recs.flatMap (fun r => (Rec.mclass r, Rec.moff r * 1024, 66560) ::
    (if Rec.federation r then [(Rec.rclass r, Rec.roff r * 1024, 16384)] else [])) ++
  [(addrCls y.gradAddr, y.gradAddr % 2 ^ 47, y.rows * y.cols * fmtWidth y.gfmt), (addrCls y.wcAddr, y.wcAddr % 2 ^ 47, 4096 * y.blocks * fmtWidth y.wfmt),
    (addrCls y.stateAddr, y.stateAddr % 2 ^ 47, y.stateBytes)]

/-- Feed areas of the image in force (R306). -/
def Image.feedAreas (im : Image) : List (Nat × Nat × Nat) :=
  im.streams.map (fun t => (addrCls t.addr, t.addr % 2 ^ 47, t.slots * t.slotBytes)) ++
    im.channels.map (fun c => (addrCls c.addr, c.addr % 2 ^ 47, im.passes * c.bufBytes))

/-- Workspaces of the image in force. -/
def Image.workAreas (im : Image) : List (Nat × Nat × Nat) := (List.range 4).map (fun p => (p, nth 0 im.workOff p, nth 0 im.workBytes p))

/-- Every area of `as` lies in its panel's job region and apart from those before it and from `fixed`. -/
def Image.areasOk (im : Image) (fixed : List (Nat × Nat × Nat)) : List (Nat × Nat × Nat) → Bool
  | [] => true
  | a :: as =>
    (a.2.2 == 0 || (decide (a.1 < 4) && decide (a.2.1 + a.2.2 ≤ nth 0 im.dram a.1) &&
      fixed.all (fun b => b.1 != a.1 || b.2.2 == 0 || decide (a.2.1 + a.2.2 ≤ b.2.1) || decide (b.2.1 + b.2.2 ≤ a.2.1)))) &&
    im.areasOk (a :: fixed) as

/-- An arriving layer satisfies R277 at this device, its new owner. -/
def Image.arriveOk (im : Image) (p : RsPlan) (me : Nat) (x : RsIn) : Bool :=
  let y := x.layer
  let stay := p.staying me im.layers
  let fr := (x.recs.filter Rec.frozen).length
  decide (y.rule ≤ 2) && decide (y.hpSet ≤ 15) && (y.wfmt == 0 || y.wfmt == 3) && (y.gfmt == 1 || y.gfmt == 3 || y.gfmt == 4) &&
  decide (y.mclass ≤ 3) && decide (1 ≤ y.rows) && decide (y.rows ≤ 65536) && decide (1 ≤ y.cols) && decide (y.cols ≤ 65536) &&
  decide (1 ≤ y.gradIssues) && decide (y.gradIssues ≤ 256) && y.blocks == ceilDiv (y.rows * y.cols) 4096 &&
  decide (y.first + y.blocks ≤ im.ledger) && stay.all (fun l => l.layer != y.layer && (decide (l.first + l.blocks ≤ y.first) || decide (y.first + y.blocks ≤ l.first))) &&
  x.recs.all (fun r => Rec.layer r == y.layer && Rec.mclass r == y.mclass && Rec.valid r && (Rec.federation r || (Rec.rclass r == 0 && Rec.roff r == 0))) &&
  (y.rule == 0 || fr == 0 || fr == y.blocks) && (y.rule != 1 || decide (min y.rows y.cols ≤ 8192)) &&
  (y.rule != 2 || (decide (y.rows ≤ 8192) && decide (y.cols ≤ 8192))) && decide (stateNeed y ≤ y.stateBytes) &&
  decide (workNeed y ≤ nth 0 im.workBytes y.mclass) && (y.rule == 0 || nth false im.lends y.mclass) &&
  (p.reroot im.plan).any (fun e => e.entry == y.gradEntry && e.kind != 0 && e.gate && e.root == me && e.elems == y.rows * y.cols &&
    e.ofmt == y.gfmt && e.dst % 2 ^ 52 == y.gradAddr % 2 ^ 52)

/-- The records of a layer at this device. -/
def State.recordsOf (s : State) (l : Layer) : List (List Byte) := l.recs.map s.record

/-- The arriving layers of this device pass R277 together: each alone, their records and BLOCK_IDs apart from each other and from what
stays, their areas in the job region and disjoint. -/
def State.arrivalsOk (s : State) (im : Image) (p : RsPlan) : Bool :=
  let me := s.deviceIndex
  let mine := p.ins.filter (fun x => x.dst == me)
  let stay := p.staying me im.layers
  let fixed := stay.flatMap (fun l => layerAreas l (s.recordsOf l)) ++ im.workAreas ++ im.feedAreas
  let recs := mine.flatMap (fun x => x.layer.recs)
  let ids := (stay.flatMap s.recordsOf ++ mine.flatMap RsIn.recs).map Rec.blockId
  mine.all (im.arriveOk p me) && (mine.map (fun x => x.layer.layer)).eraseDups.length == mine.length &&
    recs.eraseDups.length == recs.length && ids.eraseDups.length == ids.length &&
    im.areasOk fixed (mine.flatMap (fun x => layerAreas x.layer x.recs))

/-- A root record names an entry of the image's plan whose new root has a tree route entry. -/
def State.rootOk (s : State) (im : Image) (r : RsRoot) : Bool :=
  im.plan.any (fun e => e.entry == r.entry) && decide (r.root < sliceSize s.sliceDef) && (s.tree (s.chipOfIndex r.root)).isSome

/-- A move entry is KIND 1 with SYSTEM set and one mask record. -/
def Image.moveOk (im : Image) (e : Nat) : Bool := im.plan.any (fun p => p.entry == e && p.kind == 1 && p.system && p.maskCount == 1)

/-- No block of an outgoing layer of this device has PRIVILEGED set, and the layer exists here. -/
def State.outOk (s : State) (im : Image) (o : RsOut) : Bool :=
  o.src != s.deviceIndex || (match im.layers.find? (fun l => l.layer == o.layer) with
    | some l => (s.recordsOf l).all (fun r => recField r 0 3 3 == 0)
    | none => false)

/-- APPLY on 0x3102 arms a plan (R321) (DEDUCED, log 59). -/
def applyReshard (s : State) (slot : Nat) : Ans :=
  let b := s.candB slot Obj.RS_PLAN
  let p := rsPlanOf b
  let j := s.jobState
  if ¬ (j = JOB_LOADED ∨ j = JOB_RUNNING ∨ j = JOB_STOPPED) ∨ s.moving then s.no St.WRONG_STATE 0
  else
    match s.job.image with
    | none => s.no St.WRONG_STATE 0
    | some im =>
      let least := s.obj Obj.COMMITTED + (if j = JOB_RUNNING then 2 else 0)
      if p.whole && decide (least ≤ p.stepAt) && p.epoch != s.obj Obj.EPOCH && p.roots.all (s.rootOk im) &&
          p.outs.all (fun o => o.moves.all im.moveOk) && p.outs.all (s.outOk im) && s.arrivalsOk im p then
        ({ ((s.takeB slot [Obj.RS_PLAN]).setObj Obj.RS_AT p.stepAt).setObj Obj.RS_STATE 1 with resh := ReshSt.reset }).ok
      else s.no St.INCONSISTENT 1

/-! ### The sequence (R322) -/

/-- This device is the norm-anchor device. -/
def State.isAnchor (s : State) : Bool := s.obj Obj.NORM_ANCHOR == s.deviceIndex
/-- Chip of the norm-anchor device. -/
def State.anchorChip (s : State) : Nat := s.chipOfIndex (s.obj Obj.NORM_ANCHOR)

/-- Mail to another device of the slice (R237). -/
def State.mailTo (s : State) (chip : Nat) (m : Mail) : State := s.mgmt chip 0 (.cpMail m)
/-- Mail to every other device of the slice. -/
def State.mailAll (s : State) (m : Mail) : State :=
  ((s.membersOf s.sliceDef).filter (· != s.chip)).foldl (fun s c => s.mailTo c m) s

/-- Every job core has reached STEP and the device has settled its attempt; or no core runs. -/
def State.atBoundary (s : State) : Bool :=
  !s.committing && s.upd.shadows.isEmpty && !s.roundDue &&
  (if s.jobRuns then s.jobCores.all (fun c =>
      let y := (s.core c).job
      y.wait == .step && y.xferTags.isEmpty && y.collTags.isEmpty && decide (y.attempt ≤ s.upd.settled))
    else s.jobState == JOB_LOADED || s.jobState == JOB_STOPPED)

/-- Records of a layer that leaves, as mail (step 4). -/
def State.fieldsOf (s : State) (l : Layer) : List (Nat × Nat × Nat × Nat × Nat × Nat) :=
  (s.recordsOf l).map (fun r => (Rec.blockId r, Rec.version r, Rec.sel r, Rec.rsel r, Rec.lastSent r, Rec.lastAck r))

/-- Own layers that leave, with the record of the plan. -/
def State.leaving (s : State) : List (RsOut × Layer) :=
  (s.rsPlan.outs.filter (fun o => o.src == s.deviceIndex)).filterMap (fun o => (s.layers.find? (fun l => l.layer == o.layer)).map (fun l => (o, l)))

/-- Go (steps 3 and 4): the epoch advance is asked for, and old owners send the records' fields (DEDUCED, log 59). -/
def State.reshGo (s : State) : State :=
  if s.obj Obj.RS_STATE = 1 ∧ s.resh.phase = 1 then
    let s1 := { s.setObj Obj.RS_STATE 2 with
      resh := { s.resh with phase := 3 }
      coll := { s.coll with advance := some s.rsPlan.epoch } }
    s1.leaving.foldl (fun s q => s.mailTo (s.chipOfIndex q.1.dst) (.rsFields (s.fieldsOf q.2))) s1
  else s

/-- No-go: the plan is disarmed (R323). -/
def State.reshNogo (s : State) : State :=
  if s.obj Obj.RS_STATE = 1 then { (s.setObj Obj.RS_STATE 5).raiseN Ev.RESHARD_REFUSED 0 with resh := ReshSt.reset } else s

/-- The norm-anchor device decides when it holds a digest of every device (step 2). -/
def State.reshDecide (s : State) : State :=
  let ds := s.resh.digests
  if s.obj Obj.RS_STATE = 1 ∧ s.resh.phase = 1 ∧ s.isAnchor = true then
    if ds.any (fun d => decide (d.2 ≠ digest64 (s.dom Obj.RS_PLAN))) then (s.mailAll .rsNogo).reshNogo
    else if (s.membersOf s.sliceDef).all (fun c => ds.any (fun d => d.1 == c)) then (s.mailAll .rsGo).reshGo
    else s
  else s

/-- A digest arrives at the norm-anchor device. -/
def State.reshDigest (s : State) (chip : Nat) (d : List Byte) : State :=
  { s with resh := { s.resh with digests := s.resh.digests.filter (fun (q : Nat × List Byte) => q.1 != chip) ++ [(chip, d)] } }.reshDecide

/-- Step 1 at the boundary of AT_STEP: the digest goes to the norm-anchor device. -/
def State.reshBoundary (s : State) : State :=
  if s.obj Obj.RS_STATE = 1 ∧ s.resh.phase = 0 ∧ s.obj Obj.COMMITTED = s.obj Obj.RS_AT ∧ s.atBoundary = true ∧ s.isOpen = true then
    let d := digest64 (s.dom Obj.RS_PLAN)
    let s1 := { s with resh := { s.resh with phase := 1 } }
    if s.isAnchor then s1.reshDigest s.chip d else s1.mailTo s.anchorChip (.rsDigest d)
  else s

/-- A pending epoch advance acts once the old epoch has drained (R265): a re-shard's move entries are issued (step 5), and EPOCH
itself changes at step 8 (R322, R323) (DEDUCED, log 59). -/
def State.epochAdvance (s : State) : State :=
  match s.coll.advance with
  | none => s
  | some _ =>
    if s.drained && s.resh.phase == 3 then
      let s1 := { s.setObj Obj.RS_STATE 3 with resh := { s.resh with phase := 5 } }
      (s1.rsPlan.outs.flatMap RsOut.moves).foldl State.sysIssue s1
    else s

/-- The move entries are complete at this device. -/
def State.movesDone (s : State) : Bool :=
  let es := s.rsPlan.outs.flatMap RsOut.moves
  s.coll.issues.all (fun x => !es.contains x.entry || x.done)

/-- Arriving layers of this device. -/
def State.arriving (s : State) : List RsIn := s.rsPlan.ins.filter (fun x => x.dst == s.deviceIndex)

/-- The fields sent for every arriving block are here. -/
def State.fieldsHere (s : State) : Bool :=
  (s.arriving.flatMap RsIn.recs).all (fun r => s.resh.fields.any (fun f => f.1 == Rec.blockId r))

/-- Record image with the sent fields, RESIDENT and OWNER (step 6, R275). -/
def State.arrivedRec (s : State) (r : List Byte) : List Byte :=
  let r1 := setField (setField r 0 4 4 1) 1 47 36 s.chip
  match s.resh.fields.find? (fun f => f.1 == Rec.blockId r) with
  | some (_, v, sel, rsel, sent, ack) =>
    setField (setField (setField (setField (setField r1 0 23 8 v) 0 7 7 sel) 0 6 6 rsel) 2 63 32 sent) 2 31 0 ack
  | none => r1

/-- Step 6: INIT of an arriving layer's records, and its working copy (DEDUCED, log 59). -/
def State.install (s : State) (x : RsIn) : State :=
  let s1 := ((List.range x.recs.length).zip x.recs).foldl (fun s (q : Nat × List Byte) => s.putRec (x.layer.first + q.1) (s.arrivedRec q.2)) s
  let s2 := x.layer.recs.foldl (fun s i => s.regenBlock x.layer i) s1
  { s2 with resh := { s2.resh with installed := s2.resh.installed ++ x.layer.recs } }

/-- Old owners that this device reports done to. -/
def State.oldOwners (s : State) : List Nat := ((s.rsPlan.outs.filter (fun o => o.dst == s.deviceIndex)).map RsOut.src).eraseDups

def State.installAll (s : State) : State :=
  let s1 := s.arriving.foldl State.install s
  (s1.oldOwners.filter (· != s.deviceIndex)).foldl (fun s i => s.mailTo (s.chipOfIndex i) .rsDone) { s1 with resh := { s1.resh with phase := 6 } }

/-- Step 7: MOVE of one record. -/
def State.moveOut (s : State) (owner epoch i : Nat) : State :=
  let r := s.record i
  s.moveRec i owner false epoch (Rec.mclass r) (Rec.moff r) (Rec.rclass r) (Rec.roff r)

/-- Steps 7 and 8 (DEDUCED, log 59). -/
def State.reshFinish (s : State) : State :=
  let p := s.rsPlan
  let s1 := s.leaving.foldl (fun s q => q.2.recs.foldl (fun s i => s.moveOut (s.chipOfIndex q.1.dst) p.epoch i) s) s
  let ins := s.arriving.map RsIn.layer
  let s2 := match s1.job.image with
    | some im => { s1 with job := { s1.job with image := some { im with plan := p.reroot im.plan, layers := p.staying s.deviceIndex im.layers ++ ins } } }
    | none => s1
  let n := (ins.map Layer.blocks).foldl (· + ·) 0
  (({ ((s2.setObj Obj.EPOCH p.epoch).setObj Obj.RS_BLOCKS_IN n).setObj Obj.RS_STATE 4 with
    resh := ReshSt.reset
    coll := { s2.coll with advance := none } }).raiseN Ev.RESHARD_DONE 0).afterCommit

/-- Every new owner of a layer of this device has reported done. -/
def State.allDone (s : State) : Bool :=
  s.leaving.all (fun q => q.1.dst == s.deviceIndex || s.resh.done.contains (s.chipOfIndex q.1.dst))

/-- RESHARD_MOVE_DONE: what the completed moves let this device do (steps 6 to 8). -/
def State.reshMoved (s : State) : State :=
  if s.resh.phase = 5 ∧ s.movesDone = true ∧ s.fieldsHere = true then
    (if s.installAll.allDone then s.installAll.reshFinish else s.installAll)
  else if s.resh.phase = 6 ∧ s.allDone = true then s.reshFinish
  else s

/-- Fields arrive from an old owner; a new owner reports done. -/
def State.reshFields (s : State) (fs : List (Nat × Nat × Nat × Nat × Nat × Nat)) : State :=
  if s.obj Obj.RS_STATE = 1 ∨ s.moving = true then { s with resh := { s.resh with fields := s.resh.fields ++ fs } } else s
def State.reshDone (s : State) (chip : Nat) : State :=
  if s.moving then { s with resh := { s.resh with done := insNat chip s.resh.done } } else s

/-! ### Commands -/

def execEpochAdvance (s : State) : Out := .next s.epochAdvance
def execReshardBoundary (s : State) : Out := .next s.reshBoundary
/-- Go arrives from the norm-anchor device by CP_MAIL. -/
def execReshardGo (src : ChipId) (s : State) : Out := .next (if src.toNat = s.anchorChip then s.reshGo else s)
/-- No-go arrives from the norm-anchor device by CP_MAIL. -/
def execReshardNogo (src : ChipId) (s : State) : Out := .next (if src.toNat = s.anchorChip then s.reshNogo else s)
/-- The norm-anchor device has waited 1 s for agreeing digests (step 2). -/
def execReshardDigestTimeout (s : State) : Out :=
  .next (if s.isAnchor = true ∧ s.obj Obj.RS_STATE = 1 ∧ s.resh.phase = 1 then (s.mailAll .rsNogo).reshNogo else s)
def execReshardMoveDone (s : State) : Out := .next s.reshMoved

end Sys2Proof.Machine
end

