-- ==== Sys2Proof/Machine/Export.lean ====
section
/-! DEFINITION. State export (16): sending the stream (R411), snapshots (R412 to R415), APPLY on 0x5000 (R421); and the exchange areas
of a panel (R365), which snapshots read. -/

namespace Sys2Proof.Machine

/-! ### Owned blocks and exchange areas (R365) -/

/-- Records of blocks that are owned here, ascending. -/
def State.ownedRecs (s : State) : List Nat :=
  ascending (s.recsUsed.filter (fun i => Rec.valid (s.record i) && Rec.resident (s.record i)))

/-- Records of federation blocks owned here, ascending (R327). -/
def State.fedRecs (s : State) : List Nat := s.ownedRecs.filter (fun i => Rec.federation (s.record i))
/-- Those of a panel. -/
def State.panelRecs (s : State) (p : Nat) : List Nat := s.fedRecs.filter (fun i => Rec.mclass (s.record i) == p)

/-- Offset and bytes of a panel's exchange area. -/
def exchOf (b : List Byte) (p : Nat) : Nat × Nat := (leAt b (16 * p) 8, leAt b (16 * p + 8) 8)
/-- Bytes of a keep or pool slot: C. -/
def slotLen (kLimit : Nat) : Nat := max 576 (64 * ceilDiv (16 + ceilDiv (20 * kLimit) 8) 64)
/-- Bytes of a block's part of the area. -/
def exchStride (keep kLimit : Nat) : Nat := 49152 + keep * slotLen kLimit
def State.exchC (s : State) : Nat := slotLen (s.obj Obj.K_LIMIT)

/-- First address of the part of the area that belongs to a federation block. -/
def State.exchAt (s : State) (i : Nat) : Nat :=
  let p := Rec.mclass (s.record i)
  gta p ((exchOf (s.dom Obj.EXCH_AREA) p).1 + (s.panelRecs p).findIdx (· == i) * exchStride (s.obj Obj.KEEP) (s.obj Obj.K_LIMIT))
def State.floorAt (s : State) (i : Nat) : Nat := s.exchAt i
def State.momentumAt (s : State) (i : Nat) : Nat := s.exchAt i + 16384
def State.scratchAt (s : State) (i : Nat) : Nat := s.exchAt i + 32768
def State.keepAt (s : State) (i k : Nat) : Nat := s.exchAt i + 49152 + k * s.exchC
/-- A slot of a panel's receive pool. -/
def State.poolAt (s : State) (p k : Nat) : Nat :=
  gta p ((exchOf (s.dom Obj.EXCH_AREA) p).1 + (s.panelRecs p).length * exchStride (s.obj Obj.KEEP) (s.obj Obj.K_LIMIT) + k * s.exchC)

/-- The selvedge engine reads bytes; the manual states no value for a poisoned codeword here, so its bytes are free (DESIGN CHOICE, log 21). -/
def State.selRead (s : State) (a n : Nat) : List Byte × State :=
  let r := s.readMem a n 0x0D8
  if r.2.1 = [] then (r.1, r.2.2)
  else
    ((List.range n).map (fun i => if inPoison r.2.1 (a + i) then Config.freeByte r.2.2.freeCtr (a + i) else nth 0 r.1 i), r.2.2.spend)

/-- Elements of `w` bytes. -/
def State.selElems (s : State) (w a n : Nat) : List Nat × State :=
  let r := s.selRead a (n * w)
  (elemsOf w n r.1, r.2)
def State.selWrite (s : State) (a w : Nat) (xs : List Nat) : State := s.writeMem a (bytesOfElems w xs) 0x0D8

/-! ### Sending the stream (R411) -/

/-- Bytes of one STREAM_SEG. -/
def segMax : Nat := 1048576

/-- The device sends the next stretch of the ring. -/
def State.streamSeg (s : State) : State :=
  let o := s.stream.sent
  let n := min segMax (s.obj Obj.STREAM_OFFSET - o)
  if s.obj Obj.STREAM_MODE = 0 ∨ n = 0 then s
  else
    let r := s.fxpSend (endpointOf (s.dom Obj.STREAM_EP)) 0x60 0 0 (beBytes 8 o ++ s.ringBytes o n)
    if r.1 = 0 then s else { r.2 with stream := { r.2.stream with sent := o + n, reach := max r.2.stream.reach (o + n) } }

/-- STREAM_ACK: a DURABLE value frees the bytes below it. -/
def State.streamAck (s : State) (d : Nat) : State :=
  if s.obj Obj.STREAM_DURABLE ≤ d ∧ d ≤ s.stream.reach then
    let t := s.setObj Obj.STREAM_DURABLE d
    State.drainBacklog t.stream.backlog.length t
  else s

/-- STREAM_RESUME: sending goes on from FROM. -/
def State.streamResume (s : State) (k : Nat) : State :=
  if s.obj Obj.STREAM_DURABLE ≤ k ∧ k ≤ s.obj Obj.STREAM_OFFSET then { s with stream := { s.stream with sent := k } } else s

/-! ### Snapshots (R412 to R415) -/

/-- Head round of a snapshot's identity. -/
def State.headRound (s : State) : Nat := if s.obj Obj.FED_STATE = 0 then 0 else s.obj Obj.HEAD_ROUND

/-- A snapshot is in progress. -/
def State.snapping (s : State) : Bool := s.snap.ident.isSome

/-- A word of `w` bytes stored least significant byte first, sent most significant byte first. -/
def turned (w : Nat) (bs : List Byte) : List Byte := (chunksOf w bs.length bs).flatMap List.reverse

/-- Bytes of a block's entry after its head. -/
def entryLen (content : Nat) (wfmt : Nat) : Nat :=
  match content with
  | 0 => if wfmt = 0 then 4096 else 8192
  | 1 => 16384
  | _ => 16384 + 8448 + 3 * 16384 + 8192

/-- Entry of one block (R414). -/
def State.snapEntry (s : State) (content i : Nat) : List Byte × State :=
  let r := s.record i
  let wf := recField r 1 6 6
  let head := beBytes 5 (Rec.blockId r) ++ beBytes 1 wf ++ beBytes 2 (Rec.version r)
  let fed := Rec.federation r && decide (s.obj Obj.FED_STATE ≠ 0)
  match content with
  | 0 =>
    (match s.layers.find? (fun l => l.recs.contains i) with
    | some l =>
      let w := if wf = 0 then 1 else 2
      let d := s.selRead (l.wcAddr % 2 ^ 52 + 4096 * (i - l.first) * w) (4096 * w)
      (head ++ turned w d.1, d.2)
    | none => (head ++ zeros (entryLen 0 wf), s))
  | 1 =>
    let d := s.selRead (Rec.master r (Rec.sel r)) 16384
    (head ++ turned 4 d.1, d.2)
  | _ =>
    let m := s.selRead (Rec.master r (Rec.sel r)) 16384
    let q := m.2.selRead (Rec.moments r (Rec.sel r)) 8448
    let a := q.2.selRead (Rec.anchor r) 16384
    let v := if fed then a.2.selRead (a.2.momentumAt i) 16384 else (zeros 16384, a.2)
    let f := if fed then v.2.selRead (v.2.floorAt i) 16384 else (zeros 16384, v.2)
    let e := if Rec.federation r then f.2.selRead (Rec.residue r (Rec.rsel r)) 8192 else (zeros 8192, f.2)
    (head ++ turned 4 m.1 ++ q.1 ++ turned 4 a.1 ++ turned 4 v.1 ++ turned 4 f.1 ++ turned 2 e.1, e.2)

/-- Header of the plaintext (R414). -/
def State.snapHeader (s : State) (ident : Nat × Nat) (content blocks : Nat) : List Byte :=
  beBytes 4 ident.1 ++ beBytes 8 ident.2 ++ beBytes 1 content ++ zeros 1 ++ beBytes 2 s.chip ++ beBytes 2 s.deviceIndex ++
    beBytes 1 s.selfMember ++ zeros 1 ++ beBytes 4 blocks ++ (s.dom Obj.DIGEST).take 16 ++ zeros 24

/-- A snapshot begins: every owned block is held (R413). -/
def State.snapBegin (s : State) (content : Nat) : State :=
  let ident := (s.headRound, s.obj Obj.COMMITTED)
  let rs := s.ownedRecs
  let total := 64 + (rs.map (fun i => 8 + entryLen content (recField (s.record i) 1 6 6))).foldl (· + ·) 0
  { (s.setObj Obj.SNAP_STATE 2).setDom Obj.SNAP_ID (leBytes 4 ident.1 ++ leBytes 8 ident.2) with
    snap := { held := rs
              text := s.snapHeader ident content rs.length
              seg := 0
              segs := ceilDiv total (s.obj Obj.SNAP_SEG_BYTES)
              offset := 0
              todo := rs
              content := some content
              ident := some ident
              agreed := s.snap.agreed
              round := s.snap.round } }

/-- A snapshot ends; its held blocks are released. -/
def State.snapEnd (s : State) (state : Nat) : State :=
  { s.setObj Obj.SNAP_STATE state with snap := { SnapSt.reset with agreed := s.snap.agreed, round := s.snap.round } }

/-- A scheduled boundary of SNAP_EVERY is due: the head round has reached a multiple that no boundary has met (R412). -/
def State.roundSnap (s : State) : Bool :=
  decide (s.obj Obj.SNAP_EVERY ≠ 0) && decide (0 < s.headRound) && decide (s.headRound % s.obj Obj.SNAP_EVERY = 0) &&
    decide (s.headRound ≠ s.snap.round)

/-- SNAPSHOT_BOUNDARY: the device stands at a step boundary that is a snapshot boundary (R412, R413). -/
def State.snapBoundary (s : State) : State :=
  let agreed := s.snap.agreed && decide (s.obj Obj.COMMITTED = s.obj Obj.SNAP_AT)
  if (agreed || s.roundSnap) && s.atBoundary && s.job.image.isSome then
    let s1 := { s with snap := { s.snap with agreed := s.snap.agreed && !agreed, round := s.headRound } }
    if s.snapping then (s1.inc32 Obj.SNAP_MISSED).raiseN Ev.SNAP_MISSED (s.obj Obj.COMMITTED) else s1.snapBegin (s.obj Obj.SNAP_CONTENT)
  else s

/-- Read blocks until a segment is full; a block is released when its bytes are read. -/
def State.snapFill (content : Nat) : List Nat → State → State
  | [], s => s
  | i :: is, s =>
    if s.obj Obj.SNAP_SEG_BYTES ≤ s.snap.text.length then s
    else
      let r := s.snapEntry content i
      State.snapFill content is { r.2 with snap := { r.2.snap with
        text := r.2.snap.text ++ r.1, todo := r.2.snap.todo.filter (· != i), held := r.2.snap.held.filter (· != i) } }

/-- SNAP_SEG: the next segment is encrypted under SNAP_KEY_SLOT and sent (R415). -/
def State.snapSeg (s : State) : State :=
  match s.snap.ident, s.snap.content with
  | some ident, some content =>
    if s.snap.segs ≤ s.snap.seg then s
    else
      let t := State.snapFill content s.snap.todo s
      let n := t.obj Obj.SNAP_SEG_BYTES
      let pt := t.snap.text.take n
      let head := beBytes 4 ident.1 ++ beBytes 8 ident.2 ++ beBytes 4 t.snap.seg ++ beBytes 4 t.snap.segs ++ beBytes 8 t.snap.offset
      -- the IV stands in the authenticated bytes 28 to 39
      let slot := t.obj Obj.SNAP_KEY_SLOT
      if t.slotAllows slot 1 then
        match t.nextIv slot with
        | none => s
        | some (iv, u) =>
          let c := Aes.gcm (t.keySlot slot).key iv (head ++ iv) pt
          let r := u.fxpSend (endpointOf (t.dom Obj.SNAP_EP)) 0x63 0 0 (head ++ iv ++ c.1 ++ c.2)
          let seg := t.snap.seg + 1
          { (if seg = t.snap.segs then r.2.setObj Obj.SNAP_STATE 3 else r.2) with
            snap := { r.2.snap with text := t.snap.text.drop n, seg := seg, offset := t.snap.offset + pt.length } }
      else s
  | _, _ => s

/-- SNAP_DONE with a matching identity ends the snapshot (R415). -/
def State.snapDone (s : State) (b : List Byte) : State :=
  if s.snap.ident = some (beAt b 0 4, beAt b 4 8) then
    if beAt b 12 1 = 0 then ((s.snapEnd 4).inc32 Obj.SNAPS_DONE).raiseN Ev.SNAP_DONE (beAt b 4 8)
    else (s.snapEnd 5).raiseN Ev.SNAP_FAILED (beAt b 4 8)
  else s

/-- SNAP_TIMEOUT: no answer after the last segment (R415). -/
def State.snapTimeout (s : State) : State :=
  match s.snap.ident with
  | some i => if s.snap.segs ≤ s.snap.seg then (s.snapEnd 5).raiseN Ev.SNAP_FAILED i.2 else s
  | none => s

/-- The agreed boundary reaches a device (R412). -/
def State.snapAgree (s : State) (c : Nat) : State :=
  let t := { s.setObj Obj.SNAP_AT c with snap := { s.snap with agreed := true } }
  if s.snapping then t else t.setObj Obj.SNAP_STATE 1

/-- The norm-anchor device answers a request: SNAP_AT at every device of the slice. -/
def State.snapFix (s : State) : State :=
  let c := s.obj Obj.COMMITTED + 2
  (s.mailAll (.snapAt c)).snapAgree c

/-- SNAP_COMMAND NOW (R412) (DEDUCED, log 60). -/
def cmdSnapNow (s : State) : Ans :=
  if s.snapping || s.job.image.isNone then s.no St.WRONG_STATE 0
  else if s.isAnchor then s.snapFix.ok
  else (s.mailTo s.anchorChip .snapRequest).ok

/-- SNAP_COMMAND CANCEL (R415). -/
def cmdSnapCancel (s : State) : Ans :=
  if s.snapping || s.snap.agreed then ({ s.snapEnd 5 with snap := { SnapSt.reset with round := s.snap.round } }).ok else s.no St.WRONG_STATE 0

/-! ### APPLY on 0x5000 (R421) -/

def exportNums : List Nat := [Obj.STREAM_MODE, Obj.STREAM_CONTENT, Obj.STREAM_RING, Obj.STREAM_SHARE, Obj.STREAM_KEY_SLOT, Obj.EXPORT_ID,
  Obj.SNAP_CONTENT, Obj.SNAP_KEY_SLOT, Obj.SNAP_EVERY, Obj.SNAP_TIMEOUT, Obj.SNAP_SEG_BYTES]

def applyExport (s : State) (slot : Nat) : Ans :=
  let c := s.cand slot
  let changes := [Obj.STREAM_MODE, Obj.STREAM_CONTENT, Obj.STREAM_RING].any (fun k => c k != s.obj k)
  if changes ∧ ¬ (s.jobState = JOB_EMPTY ∨ s.jobState = JOB_LOADED ∨ s.jobState = JOB_REFUSED) then s.no St.WRONG_STATE 1
  else if c Obj.STREAM_MODE ≠ 0 ∧ allZero (s.candB slot Obj.STREAM_EP) then s.no St.INCONSISTENT 3
  else if c Obj.STREAM_KEY_SLOT ≠ 0xFF ∧ s.slotAllows (c Obj.STREAM_KEY_SLOT) 2 = false then s.no St.INCONSISTENT 6
  else if c Obj.SNAP_EVERY ≠ 0 ∧ allZero (s.candB slot Obj.SNAP_EP) then s.no St.INCONSISTENT 8
  else if c Obj.SNAP_EVERY ≠ 0 ∧ s.slotAllows (c Obj.SNAP_KEY_SLOT) 1 = false then s.no St.INCONSISTENT 0x0A
  else ((s.take slot exportNums).takeB slot [Obj.STREAM_EP, Obj.SNAP_EP]).ok

/-! ### Commands -/

/-- A datagram of one type is taken by its handler when it passes the checks. -/
def State.onDatagram (s : State) (d : Dgram) (ty : Nat) (k : FxpHdr → List Byte → State → State) : State :=
  if s.up then
    match (s.frameIn d.port.val).fxpTake d.bytes with
    | (some (h, b), t) => if h.ty = ty then k h b t else t
    | (none, t) => t
  else s

def execStreamSeg (s : State) : Out := .next s.streamSeg
def execStreamAck (d : Dgram) (s : State) : Out := .next (s.onDatagram d 0x61 (fun _ b t => t.streamAck (beAt b 0 8)))
def execStreamResume (d : Dgram) (s : State) : Out := .next (s.onDatagram d 0x62 (fun _ b t => t.streamResume (beAt b 0 8)))
def execSnapshotBoundary (s : State) : Out := .next s.snapBoundary
def execSnapSeg (s : State) : Out := .next s.snapSeg
def execSnapDone (d : Dgram) (s : State) : Out := .next (s.onDatagram d 0x64 (fun _ b t => t.snapDone b))
def execSnapTimeout (s : State) : Out := .next s.snapTimeout

end Sys2Proof.Machine
end

