-- ==== Sys2Proof/Machine/Tension.lean ====
section
/-! DEFINITION. Tension (17): the phase a job core is charged to, step figures and their histograms, the exported records
(R434 to R437, R439). -/

namespace Sys2Proof.Machine

/-! ### What holds a step (R40, R172, R322) -/

/-- A re-shard holds the step: its boundary has come, or its moves are in progress. -/
def State.reshHolds (s : State) : Bool :=
  (s.obj Obj.RS_STATE == 1 && s.obj Obj.COMMITTED == s.obj Obj.RS_AT) || s.obj Obj.RS_STATE == 2 || s.obj Obj.RS_STATE == 3

/-- A context's wait at STEP is satisfied. -/
def State.stepOk (s : State) (y : Ctx) : Bool :=
  y.xferTags.isEmpty && y.collTags.isEmpty && decide (y.attempt ≤ s.upd.settled) && !s.roundDue && !s.reshHolds

/-! ### Charging (R434) -/

/-- The Filler of a core can do nothing now: absent, ended, stopped, at its own join, or held under R55. -/
def State.fillerIdle (s : State) (x : CoreSt) : Bool :=
  let y := x.filler
  !y.present || y.ended || y.stopped || y.broken || (y.wait != .none && !y.released) || s.pwr.heldNow

/-- A lend point of PHASE 3 or 4 keeps its cores while the panel's Blocking Unit has matrix work of the step to do (R290). -/
def State.lendHolds (s : State) (core : Nat) (y : Ctx) : Bool :=
  match y.wait with
  | .bar _ _ phase lend => lend && (phase == 3 || phase == 4) && !s.matrixDone (core / 3072) y.attempt
  | _ => false

/-- The job context of a core waits. -/
def State.jobWaits (s : State) (core : Nat) (x : CoreSt) : Bool :=
  match x.job.wait with
  | .none => false
  | .bar _ _ _ _ => !x.job.released || x.lent || s.lendHolds core x.job || (s.pwr.heldNow && s.pwr.holdJob)
  | .step => !s.stepOk x.job

/-- Bar that is a READY_BAR of the image. -/
def State.isReadyBar (s : State) (id : Nat) : Bool := match s.job.image with | some im => im.channels.any (fun r => r.readyBar == id) | none => false

/-- Code of Table 17.8, the first row that applies. -/
def State.chargeCode (s : State) (core : Nat) (x : CoreSt) : Nat :=
  let y := x.job
  if x.running = .filler ∧ s.fillerIdle x = false then 7
  else if s.jobWaits core x = true ∧ s.fillerIdle x = true then 8
  else
    match y.wait with
    | .bar id _ _ _ => if s.isReadyBar id && !y.released then 6 else y.phase
    | .step =>
      if s.obj Obj.ATTEMPTS < y.attempt then (if y.xferTags.isEmpty && y.collTags.isEmpty then 3 else y.phase)
      else if s.upd.settled < y.attempt then 4
      else if s.roundDue then 5
      else if s.reshHolds then 2
      else y.phase
    | .none => y.phase

/-- `ns` of time are charged to every job core. -/
def State.chargeCores (s : State) (ns : Nat) : State :=
  if s.jobRuns then
    { s with cores := s.cores.map (fun (q : Nat × CoreSt) =>
        if q.2.job.present then
          let k := s.chargeCode q.1 q.2
          (q.1, { q.2 with charge := Sparse.set (fun _ => 0) q.2.charge k (Sparse.get (fun _ => 0) q.2.charge k + ns) })
        else q) }
  else s

/-! ### Figures (R435, R436) -/

/-- Histogram bin of a figure. -/
def binOf (f : Nat) : Nat := if f < 1024 then 0 else min 31 (Nat.log2 f - 9)

/-- One figure enters LAST, TOTAL, MIN, MAX and the histogram. -/
def TenSt.add (t : TenSt) (first : Bool) (phase f : Nat) : TenSt :=
  let g := fun i => Sparse.get (fun _ => 0) t.figs (4 * phase + i)
  let set := fun (m : Sparse Nat) i v => Sparse.set (fun _ => 0) m (4 * phase + i) v
  let k := 32 * phase + binOf f
  { t with
    figs := set (set (set (set t.figs 0 f) 1 (counted 0x60000101 64 (g 1 + f))) 2 (if first then f else min (g 2) f)) 3 (max (g 3) f)
    bins := Sparse.set (fun _ => 0) t.bins k (satAdd 32 (Sparse.get (fun _ => 0) t.bins k) 1) }

/-- A step's record (R437). -/
def State.tenRecord (s : State) (attempt : Nat) (figs : List Nat) : List Byte :=
  beBytes 8 (s.obj Obj.COMMITTED) ++ beBytes 8 attempt ++ beBytes 4 s.headRound ++ beBytes 2 (s.obj Obj.H_NOW) ++
    beBytes 2 (if leAt (s.dom Obj.LAST_VERDICT) 16 1 = 2 then 1 else 0) ++ beBytes 8 s.now ++ figs.flatMap (beBytes 8)

/-- A full batch goes to the recorder, or is discarded when the window to it is closed (R437). -/
def State.tenSend (s : State) : State :=
  if s.ten.batch.length < s.obj Obj.TENSION_BATCH then s
  else
    let p := endpointOf (s.dom Obj.STREAM_EP)
    let t := { s with ten := { s.ten with batch := [] } }
    if s.windowFree p.key = 0 then t.bump Obj.TENSION_DROPPED s.ten.batch.length 32
    else (t.fxpSend p 0x68 0 0 s.ten.batch.flatten).2

/-- An accepted group acts from the next step (R439). -/
def State.tenNext (s : State) : State :=
  match s.ten.next with
  | some (x, e, b) =>
    { (((s.setObj Obj.XCH_TARGET x).setObj Obj.TENSION_EXPORT e).setObj Obj.TENSION_BATCH b) with ten := { s.ten with next := none } }
  | none => s

/-- STEP_FIGURE: the last job core has completed the step (R435 to R437). -/
def State.stepFigure (s : State) (attempt : Nat) : State :=
  let n := max 1 s.ten.closed
  let figs := (List.range 9).map (fun p => Sparse.get (fun _ => 0) s.ten.sums p / n)
  let first := decide (s.obj Obj.STEPS = 0)
  let t1 := ((List.range 9).zip figs).foldl (fun (t : TenSt) (q : Nat × Nat) => t.add first q.1 q.2) { s.ten with sums := [], closed := 0 }
  let s1 := { s with ten := t1 }.inc64 Obj.STEPS
  let s2 := if s1.obj Obj.TENSION_EXPORT = 1 then { s1 with ten := { s1.ten with batch := s1.ten.batch ++ [s1.tenRecord attempt figs] } }.tenSend else s1
  s2.tenNext

/-- A job core's step interval ends (R435). -/
def State.closeCharge (s : State) (core : Nat) : State :=
  let x := s.core core
  let sums := x.charge.foldl (fun (m : Sparse Nat) (q : Nat × Nat) => Sparse.set (fun _ => 0) m q.1 (Sparse.get (fun _ => 0) m q.1 + q.2)) s.ten.sums
  { s.setCore core { x with charge := [] } with ten := { s.ten with sums := sums, closed := s.ten.closed + 1 } }

/-- LOAD and CLEAR zero figures and histograms (R436). -/
def State.tenClear (s : State) : State := { s.setObj Obj.STEPS 0 with ten := { s.ten with figs := [], bins := [] } }

/-- Intervals begin anew at START (R435). -/
def State.tenStart (s : State) : State :=
  { s with
    ten := { s.ten with sums := [], closed := 0 }
    cores := s.cores.map (fun (q : Nat × CoreSt) => (q.1, { q.2 with charge := [] })) }

/-- Write of CLEAR. -/
def cmdClear (s : State) : Ans := s.tenClear.ok

/-- APPLY on 0x6000 (R439). -/
def applyTension (s : State) (slot : Nat) : Ans :=
  let c := s.cand slot
  if c Obj.TENSION_EXPORT = 1 ∧ allZero (s.dom Obj.STREAM_EP) then s.no St.INCONSISTENT 7
  else
    let t := { s with ten := { s.ten with next := some (c Obj.XCH_TARGET, c Obj.TENSION_EXPORT, c Obj.TENSION_BATCH) } }
    (if s.jobRuns then t else t.tenNext).ok

/-- STATS and HIST (Table 17.9). -/
def State.tenStats (s : State) : List Byte := (List.range 36).flatMap (fun i => leBytes 8 (Sparse.get (fun _ => 0) s.ten.figs i))
def State.tenHist (s : State) : List Byte := (List.range 288).flatMap (fun i => leBytes 4 (Sparse.get (fun _ => 0) s.ten.bins i))

end Sys2Proof.Machine
end

