-- ==== Sys2Proof/Machine/CoreFlow.lean ====
section
/-! DEFINITION. A core's moves, transfers and cord-path work, its flow, bars, the step, collective issue, and the switch
between its contexts (R119 to R121, R163 to R176). -/

namespace Sys2Proof.Machine

/-! ### Copies between the pocket and a buffer (R163) -/

/-- LDV or STV: whole units move, and poison marks move with them (R197) (DEDUCED, log 33). -/
def copyEffect (dir : Bool) (core : Nat) (c : CtxId) (i : PI) (w : Nat) (s : State) : Option State :=
  match i with
  | .copy store vb vunit punit vxs pxs len =>
    if store = dir then
      let rg := ((s.core core).ctx c).regs
      let v := vbAddr core vb ((((vunit : Int) + rg.x vxs).toNat) * 64)
      let p := unitAddr core punit (rg.x pxs)
      let from_ := if store then v else p
      let dst := if store then p else v
      let r := s.coreRead core c from_ (len * 64)
      let bad := r.2.1.flatMap (fun cw => (List.range 16).filterMap (fun j =>
        if from_ ≤ cw + j ∧ cw + j < from_ + len * 64 then some (cw + j - from_) else none))
      some ((r.2.2.writePoison dst r.1 bad (swatchMaster core)).advance core c w)
    else none
  | _ => none

def execLdv (core : CoreId) (c : CtxId) (s : State) : Out := .next (s.issue core.val c (copyEffect false core.val c))
def execStv (core : CoreId) (c : CtxId) (s : State) : Out := .next (s.issue core.val c (copyEffect true core.val c))

/-! ### Transfers and cord-path work (R121, R164, R203) -/

/-- The descriptor words in a slot of a context's descriptor region (DEDUCED, log 33). -/
def State.slotWords (s : State) (core : Nat) (c : CtxId) (slot : Nat) : List Nat :=
  (List.range 4).map (fun j => s.word64 (pocketAddr core ((((s.core core).ctx c).descBase + slot) * 64 + 8 * j)))

/-- A swatch descriptor is taken and the tag is outstanding (R164, R205). -/
def State.takeDesc (s : State) (x : Xfer) : State :=
  ({ s with dma := { s.dma with nextXfer := s.dma.nextXfer + 1 } }.setXfer s.dma.nextXfer x).modCtx x.core x.ctx
    (fun y => { y with xferTags := y.xferTags ++ [x.tag] })

/-- The tag is free and the swatch has a free descriptor. -/
def State.mayTake (s : State) (core : Nat) (c : CtxId) (tag : Nat) : Bool :=
  !((s.core core).ctx c).xferTags.contains tag && decide (0 < (s.descs (core / 64)).1)

/-- Chip that a descriptor's far side lies on (R203). -/
def State.farChip (s : State) (d : DmaDesc) : Nat :=
  if d.chipmode = 2 then s.chip else if d.chipmode = 1 then s.chipOfIndex (d.gaddr / 2 ^ 52 % 4096) else d.gaddr / 2 ^ 52 % 4096

/-- The transfer of a DMA descriptor, with the index that PXS names. -/
def State.dmaXfer (s : State) (core : Nat) (c : CtxId) (slot tag : Nat) (pf : Bool) (x : Int) : Xfer :=
  let ws := s.slotWords core c slot
  let d := DmaDesc.of ws
  { swatch := core / 64, core := core, ctx := c, slot := slot, tag := tag, cord := false, prefetch := pf, write := d.dir == 1
    gaddr := s.farChip d * 2 ^ 52 + d.gaddr % 2 ^ 52, rowLen := d.rowLen, rows := d.rows, gstride := d.gstride
    pbase := (((d.punit : Int) + x).toNat) * 64, pstride := d.pstride, active := false, issued := 0, reqs := []
    fault := none, poisonAt := none, words := ws, fmode := 0, srstate := 0 }

def dmaEffect (core : Nat) (c : CtxId) (i : PI) (w : Nat) (s : State) : Option State :=
  match i with
  | .dma slot pxs tag pf =>
    if s.mayTake core c tag then
      some ((s.takeDesc (s.dmaXfer core c slot tag pf (((s.core core).ctx c).regs.x pxs))).advance core c w)
    else none
  | _ => none

def execDma (core : CoreId) (c : CtxId) (s : State) : Out := .next (s.issue core.val c (dmaEffect core.val c))

/-- Rounding of a cord descriptor's outputs under FMODE; binary32 outputs take no second rounding (R120). -/
def CordDesc.sel (d : CordDesc) (fmode : Nat) : RSel := if d.ofmt = 4 then .mode .rne else cvtSel d.rm fmode d.ofmt

/-- The draws that a cord instruction takes where it stands in program order: one per output (R81). -/
def CordDesc.draws (d : CordDesc) (fmode : Nat) : Nat := if d.sel fmode = .sr then d.v * d.rows else 0

/-- The cord-path work of a slot's descriptor, with the FMODE and the SRSTATE of its place in program order (R81, R88). -/
def State.cordXfer (s : State) (core : Nat) (c : CtxId) (slot tag : Nat) : Xfer :=
  { swatch := core / 64, core := core, ctx := c, slot := slot, tag := tag, cord := true, prefetch := false, write := false
    gaddr := 0, rowLen := 0, rows := 0, gstride := 0, pbase := 0, pstride := 0, active := true, issued := 0, reqs := []
    fault := none, poisonAt := none, words := s.slotWords core c slot, fmode := ((s.core core).ctx c).regs.fmode.toNat
    srstate := ((s.core core).ctx c).regs.srstate.toNat }

/-- The registers after the draws of a cord instruction. -/
def Regs.drawn (r : Regs) (n : Nat) : Regs := { r with srstate := BitVec.ofNat 64 (srAfter n r.srstate.toNat) }

def cordEffect (core : Nat) (c : CtxId) (i : PI) (w : Nat) (s : State) : Option State :=
  match i with
  | .cord slot tag =>
    if s.mayTake core c tag then
      let x := s.cordXfer core c slot tag
      some (((s.takeDesc x).modCtx core c (fun y =>
        { y with regs := y.regs.drawn ((CordDesc.of x.words).draws x.fmode) })).advance core c w)
    else none
  | _ => none

def execCord (core : CoreId) (c : CtxId) (s : State) : Out := .next (s.issue core.val c (cordEffect core.val c))

/-- One output of the cord path (R120): its sum, saturation, first poisoned term, invalid products, NaV products. -/
structure CordOut where
  sum : Int
  sat : Bool
  first : Option Nat
  ivp : Nat
  nvp : Nat
deriving DecidableEq, Repr

/-- A row times a vector: group sums added in ascending order; a saturated output stays at its end, and a poisoned one takes
no further sum (R98, R101, R105). -/
def cordSum (E : Int) (n : Nat) (ws xs : List POp) : CordOut :=
  (List.range (ceilDiv n 32)).foldl (fun (o : CordOut) g =>
    let r := groupSum E (32 * g) ((ws.drop (32 * g)).take 32) ((xs.drop (32 * g)).take 32)
    let z := o.sum + r.1
    let o1 : CordOut := { o with first := if o.first.isSome then o.first else r.2.1, ivp := o.ivp + r.2.2.1, nvp := o.nvp + r.2.2.2 }
    if o.sat || o1.first.isSome then o1
    else if accMax < z then { o1 with sum := accMax, sat := true }
    else if z < accMin then { o1 with sum := accMin, sat := true }
    else { o1 with sum := z }) ⟨0, false, none, 0, 0⟩

/-- A row of weights: from DRAM here; what a row of another chip holds is open (DESIGN CHOICE, log 34). -/
def State.cordRow (s : State) (core : Nat) (c : CtxId) (d : CordDesc) (row : Nat) : List POp × State :=
  let a := d.waddr % 2 ^ 52 + row * d.rstride
  if d.waddr / 2 ^ 52 % 4096 = s.chip then
    let r := s.readElems core c d.wfmt a d.rlen
    (r.1.map (POp.of d.wfmt), r.2)
  else
    ((elemsOf (fmtWidth d.wfmt) d.rlen ((List.range (d.rlen * fmtWidth d.wfmt)).map (fun j => Config.freeByte s.free (a + j)))).map
      (POp.of d.wfmt), s.spend)

/-- Every output, row by row and within a row vector by vector (DEDUCED, log 33). -/
def State.cordRows (s : State) (core : Nat) (c : CtxId) (d : CordDesc) : List CordOut × State :=
  let xs := s.readElems core c d.xfmt (pocketAddr core (d.xoff * 64)) (d.v * d.rlen)
  let vs := (chunksOf d.rlen d.v xs.1).map (fun v => v.map (POp.of d.xfmt))
  (List.range d.rows).foldl (fun (acc : List CordOut × State) row =>
    let r := acc.2.cordRow core c d row
    (acc.1 ++ vs.map (cordSum d.e d.rlen r.1), r.2)) ([], xs.2)

/-- An output as binary32. -/
def CordOut.b32 (o : CordOut) (E : Int) : Nat × Flg :=
  if o.first.isSome then (Sys2Proof.b32.dnan, 0) else encInt Sys2Proof.b32 .rne false o.sum (E - 40)

/-- The completion record (Table 5.11) (DESIGN CHOICE, log 34). -/
def cordRecord (v : Nat) (os : List CordOut) : List Byte :=
  let first := (os.zip (List.range os.length)).findSome? (fun (q : CordOut × Nat) => q.1.first.map (fun k => (q.2 / v, k, q.2 % v)))
  let f := first.getD (0, 0, 0)
  let pc := os.foldl (fun n o => n + o.ivp + o.nvp) 0
  let any := fun (p : CordOut → Bool) => if os.any p then 1 else 0
  leBytes 8 (f.1 * 2 ^ 40 + f.2.1 * 2 ^ 16 + f.2.2 * 2 ^ 14 + 8 + 4 * any (fun o => decide (0 < o.nvp)) +
    2 * any (fun o => decide (0 < o.ivp)) + any (fun o => o.sat)) ++ leBytes 8 (min 65535 pc * 2 ^ 48)

/-- The work of a cord transfer is done (R119 to R121): outputs converted vector by vector, flags, record; the descriptor and
the tag return (DESIGN CHOICE, log 34). -/
def State.cordDone (s : State) (i : Nat) (x : Xfer) : State :=
  let d := CordDesc.of x.words
  let r := s.cordRows x.core x.ctx d
  let y := (r.2.core x.core).ctx x.ctx
  let st1 := r.1.map (fun o => o.b32 d.e)
  let out := (List.range d.v).flatMap (fun v => (List.range d.rows).map (fun row => nth 0 (st1.map Prod.fst) (row * d.v + v)))
  let cv := if d.ofmt = 4 then (out, 0, x.srstate)
    else convList (d.sel x.fmode) (fun m e => narrowEl d.ofmt (navOvf x.fmode) m e) x.srstate out
  let s1 := r.2.coreWrite x.core (pocketAddr x.core (d.yoff * 64)) (bytesOfElems (fmtWidth d.ofmt) cv.1)
  let s2 := s1.writeMem (pocketAddr x.core ((y.descBase + x.slot) * 64 + 32)) (cordRecord d.v r.1) x.master
  let s3 := (s2.dropXfer i).modCtx x.core x.ctx (fun z =>
    { z with
      xferTags := z.xferTags.filter (· != x.tag)
      regs := z.regs.flag (Flg.union (st1.map Prod.snd) ||| cv.2.1) })
  let n := r.1.foldl (fun n o => n + o.ivp + o.nvp) 0
  if n = 0 then s3 else s3.poisonEvents x.core 0 n true

/-- CORD_COMPLETE: the cord-path work that holds a tag of the context ends (DESIGN CHOICE, log 34). -/
def execCordComplete (core : CoreId) (c : CtxId) (tag : Fin 32) (s : State) : Out :=
  match s.xferOf core.val c tag.val with
  | some i =>
    match s.xfer i with
    | some x => if x.cord then .next (s.cordDone i x) else .next s
    | none => .next s
  | none => .next s

/-! ### Flow (R165, R166, R168) -/

def jmpEffect (core : Nat) (c : CtxId) (i : PI) (_ : Nat) (s : State) : Option State :=
  match i with
  | .jmp target => some (s.modCtx core c (fun y => { y with pc := target }))
  | _ => none

def execJmp (core : CoreId) (c : CtxId) (s : State) : Out := .next (s.issue core.val c (jmpEffect core.val c))

def loopEffect (core : Nat) (c : CtxId) (i : PI) (w : Nat) (s : State) : Option State :=
  match i with
  | .loop count last xsel xstep =>
    some (s.modCtx core c (fun y =>
      { y with pc := y.pc + w, loops := ⟨y.pc + w, last, count, xsel, BitVec.ofNat 16 xstep⟩ :: y.loops }))
  | _ => none

def execLoop (core : CoreId) (c : CtxId) (s : State) : Out := .next (s.issue core.val c (loopEffect core.val c))

def setxEffect (core : Nat) (c : CtxId) (i : PI) (w : Nat) (s : State) : Option State :=
  match i with
  | .setx xsel v => some ((s.modCtx core c (fun y => { y with regs := y.regs.setX xsel (BitVec.ofNat 16 v) })).advance core c w)
  | _ => none

def execSetx (core : CoreId) (c : CtxId) (s : State) : Out := .next (s.issue core.val c (setxEffect core.val c))

/-- Squash the run-ahead prefetches of a context whose tags a mask names (R165). -/
def State.squashTags (s : State) (core : Nat) (c : CtxId) (mask : Nat) : State :=
  (s.dma.xfers.filter (fun (q : Nat × Xfer) => q.2.core == core && q.2.ctx == c && q.2.prefetch && bit mask q.2.tag)).foldl
    (fun s q => s.squash q.1) s

/-- BRV: it waits for the verdict of its step (R168). -/
def brvEffect (core : Nat) (c : CtxId) (i : PI) (w : Nat) (s : State) : Option State :=
  match i with
  | .brv target mask =>
    if s.obj Obj.ATTEMPTS < ((s.core core).ctx c).attempt then none
    else if leAt (s.dom Obj.LAST_VERDICT) 16 1 = 2 then
      some ((s.squashTags core c mask).modCtx core c (fun y => { y with pc := target }))
    else some (s.advance core c w)
  | _ => none

def execBrv (core : CoreId) (s : State) : Out := .next (s.issue core.val .job (brvEffect core.val .job))

def waitdEffect (core : Nat) (c : CtxId) (i : PI) (w : Nat) (s : State) : Option State :=
  match i with
  | .waitd mask => if ((s.core core).ctx c).xferTags.any (bit mask) then none else some (s.advance core c w)
  | _ => none

def execWaitd (core : CoreId) (c : CtxId) (s : State) : Out := .next (s.issue core.val c (waitdEffect core.val c))

def waitcEffect (core : Nat) (c : CtxId) (i : PI) (w : Nat) (s : State) : Option State :=
  match i with
  | .waitc mask => if ((s.core core).ctx c).collTags.any (bit mask) then none else some (s.advance core c w)
  | _ => none

def execWaitc (core : CoreId) (c : CtxId) (s : State) : Out := .next (s.issue core.val c (waitcEffect core.val c))

/-! ### Collective issue (R176) -/

def clEffect (core : Nat) (i : PI) (w : Nat) (s : State) : Option State :=
  match i with
  | .cl entry tag xs =>
    let y := (s.core core).job
    if y.collTags.contains tag || s.coll.advance.isSome then none
    else
      match s.plan entry with
      | none => none
      | some p =>
        some (((s.modCtx core .job (fun y => { y with collTags := y.collTags ++ [tag] })).clIssue p core (64 * y.regs.x xs) tag).advance
          core .job w)
  | _ => none

def execClIssue (core : CoreId) (s : State) : Out := .next (s.issue core.val .job (clEffect core.val))

/-! ### Bars (R18, R55, R116, R169) -/

/-- Every multiply-accumulate of the context has left its tile's adder tree (DEDUCED, log 35). -/
def CoreSt.settled (x : CoreSt) (c : CtxId) : Bool := (List.range 16).all (fun t => (x.tile c t).settled)

/-- A held period keeps the context at its bar (R55). -/
def State.barHeld (s : State) (c : CtxId) : Bool := s.pwr.heldNow && (c == .filler || s.pwr.holdJob)

/-- A context at a bar may pass: the join is complete, the bed is not lent, no matrix work of the step holds it (R290), no hold is in force, and the Filler runs on only
while the job context waits (R174). -/
def State.canPass (s : State) (core : Nat) (c : CtxId) : Bool :=
  let x := s.core core
  let y := x.ctx c
  y.released && x.running == c && !s.barHeld c &&
    (match c with
     | .job => !x.lent && !s.lendHolds core y
     | .filler => !x.job.present || s.jobWaits core x)

/-- A context at a bar passes it: its working time is charged to PHASE from here on. -/
def State.passBar (s : State) (core : Nat) (c : CtxId) : State :=
  match ((s.core core).ctx c).wait with
  | .bar _ _ phase _ =>
    if s.canPass core c then
      (s.modCtx core c (fun y => { y with wait := .none, released := false, phase := if phase = 7 then y.phase else phase })).advance core c 1
    else s
  | _ => s

/-- A context arrives at a bar. SCOPE 0 has no join. -/
def State.arriveBar (s : State) (core : Nat) (c : CtxId) (id scope phase : Nat) (lend : Bool) : State :=
  s.modCtx core c (fun y => { y with
    wait := .bar id scope phase lend
    released := scope == 0
    reached := y.reached || (c == .job && phase == 3) })

/-- BAR: arrival once the context's earlier results are written; then it passes as soon as it may. The Filler rests at its
bar, where the core may switch back. -/
def barEffect (core : Nat) (c : CtxId) (i : PI) (_ : Nat) (s : State) : Option State :=
  match i with
  | .bar id scope lend phase =>
    let x := s.core core
    if (x.ctx c).wait = .none then
      (if x.settled c then
        let t := s.arriveBar core c id scope phase lend
        some (if c = .job then t.passBar core c else t)
      else none)
    else some (s.passBar core c)
  | _ => none

def execBar (core : CoreId) (c : CtxId) (s : State) : Out := .next (s.issue core.val c (barEffect core.val c))

/-- Cores joined with `core` by a bar of a scope. -/
def sameScope (scope a b : Nat) : Bool :=
  if scope = 1 then a / 64 == b / 64 else if scope = 2 then a / 3072 == b / 3072 else scope == 3

/-- Cores that hold a program in the context and belong to the join. -/
def State.joinCores (s : State) (core : Nat) (c : CtxId) (scope : Nat) : List Nat :=
  (s.cores.filter (fun (q : Nat × CoreSt) => (q.2.ctx c).present && sameScope scope core q.1)).map Prod.fst

/-- Every core of the join waits at the bar; the job context's READY_BAR waits for its row as well (R307). -/
def State.joinReady (s : State) (c : CtxId) (id scope : Nat) (cs : List Nat) : Bool :=
  cs.all (fun j => match ((s.core j).ctx c).wait with
    | .bar i sc _ _ => i == id && sc == scope && !((s.core j).ctx c).released
    | _ => false) && (c == .filler || s.rowReady id)

/-- BAR_JOIN_COMPLETE: every participant of the join that `core` waits at has arrived. -/
def execBarJoinComplete (core : CoreId) (c : CtxId) (s : State) : Out :=
  match ((s.core core.val).ctx c).wait with
  | .bar id scope _ _ =>
    let cs := s.joinCores core.val c scope
    if 0 < scope ∧ s.jobRuns ∧ s.joinReady c id scope cs then
      let s1 := if c = .job then (s.rowRelease id).passNow id else s
      let s2 := cs.foldl (fun s j => s.modCtx j c (fun y => { y with released := true })) s1
      .next (if c = .job then cs.foldl (fun s j => s.passBar j c) s2 else s2)
    else .next s
  | _ => .next s

/-! ### The step (R172, R187) -/

/-- The step whose STEP passes is the last one: its verdict carried the mark, or STEPS is reached (DEDUCED, log 61; DEDUCED, log 65). -/
def State.lastStep (s : State) (attempt : Nat) : Bool :=
  (match s.job.stopAt with | some n => decide (n ≤ attempt) | none => false) ||
    (match s.job.image with | some im => decide (im.steps ≠ 0) && decide (im.steps ≤ s.obj Obj.STEPS_DONE + 1) | none => false)

/-- Every job core has stopped at its STEP: the job is STOPPED (R187). -/
def State.stopCheck (s : State) : State :=
  let cs := s.jobCores
  if cs ≠ [] ∧ cs.all (fun j => (s.core j).job.atStop) then
    let s1 := { s with
      cores := s.cores.map (fun (q : Nat × CoreSt) => (q.1, { q.2 with job := { q.2.job with atStop := false }, running := .job }))
      job := { s.job with stopAt := none } }
    ((s1.setObj Obj.ABORTED 0).setJob JOB_STOPPED).raiseN Ev.JOB_STOPPED 0
  else s

/-- A core completes its STEP. The last job core of the step adds it to STEPS_DONE and to Tension's figures. -/
def State.passStep (s : State) (core : Nat) : State :=
  let n := (s.core core).job.attempt
  let stop := s.lastStep n
  let s1 := (s.closeCharge core).modCtx core .job (fun y =>
    { y with wait := .none, atStep := y.regs, loops := [], pc := y.entry, phase := 0, attempt := n + 1, reached := false, atStop := stop })
  let last := s1.jobCores.all (fun j => decide (n < (s1.core j).job.attempt))
  if last then ((s1.inc64 Obj.STEPS_DONE).stepFigure n).stopCheck else s1

def stepEffect (core : Nat) (i : PI) (_ : Nat) (s : State) : Option State :=
  match i with
  | .step =>
    let x := s.core core
    let s1 := s.modCtx core .job (fun y => { y with wait := .step, reached := true })
    if x.job.wait = .none ∧ !x.settled .job then none
    else if s1.stepOk (s1.core core).job then some (s1.passStep core) else some s1
  | _ => none

/-- STEP: the core arrives, or completes the step once its waits are satisfied. -/
def execStep (core : CoreId) (s : State) : Out := .next (s.issue core.val .job (stepEffect core.val))

/-! ### The end of the Filler, and pre-emption (R173, R174) -/

def endEffect (core : Nat) (i : PI) (_ : Nat) (s : State) : Option State :=
  match i with
  | .endF => some (s.modCtx core .filler (fun y => { y with ended := true }))
  | _ => none

def execEndFiller (core : CoreId) (s : State) : Out := .next (s.issue core.val .filler (endEffect core.val))

/-- The core's next context under Table 7.14 (DEDUCED, log 35). -/
def State.nextCtx (s : State) (core : Nat) (x : CoreSt) : CtxId :=
  match x.running with
  | .job =>
    if (!x.job.present || (!x.job.stopped && s.jobWaits core x)) && !s.fillerIdle x then .filler else .job
  | .filler =>
    let y := x.filler
    if (y.wait != .none || y.ended || y.stopped || y.broken) && (!s.jobWaits core x || s.fillerIdle x) && x.job.present then .job else .filler

/-- CONTEXT_SWITCH: a switch reads and changes neither context (DEDUCED, log 35). -/
def execContextSwitch (core : CoreId) (s : State) : Out :=
  .next (if s.jobRuns then s.modCore core.val (fun x => { x with running := s.nextCtx core.val x }) else s)

end Sys2Proof.Machine
end

