-- ==== Sys2Proof/Machine/Fed.lean ====
section
/-! DEFINITION. Contributions, their coding, the receive pool, and the merge (R327, R340 to R346, R352 to R355, R365, R438). -/

namespace Sys2Proof.Machine

/-! ### Block records (R342 to R345, Table 13.7) -/

/-- Block record header and payload, padded to 8 bytes. -/
def blockRec (id form km1 scale : Nat) (payload : List Byte) : List Byte :=
  let b := beBytes 5 id ++ beBytes 1 form ++ beBytes 2 km1 ++ beBytes 2 scale ++ zeros 6 ++ payload
  padTo (roundUp b.length 8) b

/-- Length of the record at the front of the bytes; a reserved FORM has no payload (DESIGN CHOICE, log 22). -/
def blockRecLen (b : List Byte) : Nat :=
  let form := beAt b 5 1
  if form = 0 then roundUp (16 + ceilDiv (20 * (beAt b 6 2 + 1)) 8) 8 else if form = 1 then 528 else 16

/-- Cut a transfer into its records (`n` bounds them). -/
def blockRecs : Nat → List Byte → List (List Byte)
  | 0, _ => []
  | _ + 1, [] => []
  | n + 1, b => b.take (blockRecLen b) :: blockRecs n (b.drop (blockRecLen b))

/-- Magnitude of a binary32 code, in code order. -/
def magOf (c : Nat) : Nat := c % 2 ^ 31

/-- Indices of the `k` largest magnitudes, the lower index first among equal ones; ascending (R342). -/
def topIdx (k : Nat) (xs : List Nat) : List Nat :=
  let order := ((List.range xs.length).zip xs).mergeSort (fun a b => decide (magOf b.2 < magOf a.2) || (magOf a.2 == magOf b.2 && decide (a.1 ≤ b.1)))
  ascending ((order.take k).map Prod.fst)

/-- Scale of kept values: steps 1 and 2 of R342. -/
def topScale (kept : List Nat) : Int :=
  match b32.dec (kept.foldl (fun a c => max a (magOf c)) 0) with
  | .fin _ m e =>
    if m = 0 then 0
    else
      let x := expOf m e
      let r := (roundAt .rne false m e (x - 2)).1
      let s := if r ≤ 7 then x - 16 else x - 15
      if s < -128 then -128 else s
  | _ => 0

/-- Entries of 20 bits packed from the most significant bit. -/
def pack20 (es : List Nat) : List Byte :=
  let n := ceilDiv (20 * es.length) 8
  beBytes n (es.foldl (fun v e => v * 2 ^ 20 + e) 0 * 2 ^ (8 * n - 20 * es.length))
def unpack20 (k : Nat) (b : List Byte) : List Nat :=
  (List.range k).map (fun i => beAt b (20 * i / 8) 3 / 2 ^ (4 - 20 * i % 8) % 2 ^ 20)

/-- Top-k record of a block (R342). -/
def topRec (id k : Nat) (xs : List Nat) : List Byte :=
  let is := topIdx k xs
  let s := topScale (is.map (nth 0 xs))
  blockRec id 0 (k - 1) (unsigned 16 s) (pack20 (is.map (fun i => i * 256 + (toShort g8 .rne false false s (nth 0 xs i)).1)))

/-- Sum of magnitudes by the tree of R141 (R343). -/
def magSum (xs : List Nat) : Nat := (treeFold (fadd b32 .rne) 13 (xs.map magOf)).1

/-- Scale of sign coding: the sum over 4,096, rounded once to W16. -/
def signScale (xs : List Nat) : Nat :=
  match b32.dec (magSum xs) with
  | .fin _ m e => (encInt w16 .rne false m (e - 12)).1
  | _ => (fcvt b32 w16 .rne (magSum xs)).1

/-- A binary32 value is below zero; −0 is not. -/
def below0 (c : Nat) : Bool := b32.neg c && decide (magOf c ≠ 0)

/-- Eight sign bits, the first in the most significant place. -/
def signByte (xs : List Nat) : Byte :=
  BitVec.ofNat 8 ((List.range 8).foldl (fun v i => 2 * v + (if below0 (nth 0 xs i) then 1 else 0)) 0)
def signRec (id : Nat) (xs : List Nat) : List Byte := blockRec id 1 0 (signScale xs) ((chunksOf 8 512 xs).map signByte)
def voidRec (id : Nat) : List Byte := blockRec id 2 0 0 []

def block0 : List Nat := List.replicate 4096 0

/-- Decoded values of a top-k record, none when it is faulty. -/
def topDec (kLimit : Nat) (b : List Byte) : Option (List Nat) :=
  let k := beAt b 6 2 + 1
  let es := unpack20 k (b.drop 16)
  let is := es.map (· / 256)
  let cs := es.map (· % 256)
  let s := signed 16 (beAt b 8 2)
  if kLimit < k ∨ cs.contains g8.nav ∨ !((is.zip (is.drop 1)).all (fun q => decide (q.1 < q.2))) then none
  else some ((is.zip cs).foldl (fun d q => setNth d q.1 (g8.widen s q.2).1) block0)

/-- Decoded values of a sign record, none when its scale is not a finite number of at least zero. -/
def signDec (b : List Byte) : Option (List Nat) :=
  let c := beAt b 8 2
  match w16.dec c with
  | .fin neg m _ =>
    if neg ∧ m ≠ 0 then none
    else
      let v := (fcvt w16 b32 .rne c).1
      some ((List.range 4096).map (fun i => if bit (nth 0 (b.drop 16) (i / 8)).toNat (7 - i % 8) then fneg b32 v else v))
  | _ => none

/-- Decoded values of a block record (R345); a faulty record decodes as void. -/
def blockDec (kLimit : Nat) (b : List Byte) : List Nat :=
  let form := beAt b 5 1
  if form = 0 then (topDec kLimit b).getD block0 else if form = 1 then (signDec b).getD block0 else block0

/-! ### Members and masks -/

def State.selfId (s : State) : Nat := s.obj Obj.MEMBER_ID
def State.member (s : State) (m : Nat) : Member := Sparse.get (fun _ => Member.unknown) s.fed.members m
def State.setMember (s : State) (m : Nat) (x : Member) : State :=
  { s with fed := { s.fed with members := Sparse.set (fun _ => Member.unknown) s.fed.members m x } }
def State.isLiveMember (s : State) (m : Nat) : Bool := bit (s.obj Obj.LIVE_MASK) m
/-- Live members other than this one. -/
def State.liveOthers (s : State) : List Nat := (List.range 64).filter (fun m => m != s.selfId && s.isLiveMember m)
/-- First member of a mask at or after `r` modulo 64, in cyclic order (R348). -/
def coordIn (mask r : Nat) : Option Nat := ((List.range 64).map (fun i => (r + i) % 64)).find? (bit mask)
/-- NEXT_COORD (Table 13.13). -/
def State.nextCoord (s : State) : Nat :=
  if s.obj Obj.FED_STATE = 0 then 0xFF else (coordIn (s.obj Obj.LIVE_MASK) (s.obj Obj.HEAD_ROUND + 1)).getD 0xFF

/-- Number under which this member's own map and record stand among the members. -/
def ownKey : Nat := 64

/-- The partner for a block in a member: the device that owns it (R327). -/
def State.partner (s : State) (m block : Nat) : Option Peer :=
  ((s.member m).map.find? (fun r => decide (r.first ≤ block) && decide (block < r.first + r.count))).map
    (fun r => ⟨m, r.chip, r.addr, r.port, none⟩)

/-- Distinct partners for a list of blocks, with their blocks. -/
def State.byPartner (s : State) (m : Nat) (blocks : List Nat) : List (Peer × List Nat) :=
  let ps := (blocks.filterMap (s.partner m)).eraseDups
  ps.map (fun p => (p, blocks.filter (fun b => s.partner m b == some p)))

/-- Consecutive runs of ascending numbers: first, count. -/
def runsOf : List Nat → List (Nat × Nat)
  | [] => []
  | b :: bs =>
    match runsOf bs with
    | (f, n) :: rs => if f = b + 1 then (b, n + 1) :: rs else (b, 1) :: (f, n) :: rs
    | [] => [(b, 1)]

/-- Record of a block owned here. -/
def State.recOfBlock (s : State) (block : Nat) : Option Nat := s.fedRecs.find? (fun i => Rec.blockId (s.record i) == block)
def State.blockIds (s : State) : List Nat := ascending (s.fedRecs.map (fun i => Rec.blockId (s.record i)))

/-- Address of this device in messages: the IPv6 address of Ethernet port 0, or its IPv4 address mapped (R328; PRESUMED, log 23). -/
def State.ownAddr (s : State) : Nat :=
  let v6 := ofBe (s.dom Obj.IPV6_ADDR)
  if v6 ≠ 0 then v6 else 0xFFFF * 2 ^ 32 + s.obj Obj.IPV4_ADDR

/-- This device's part of the owner map (Table 13.2). -/
def State.ownMap (s : State) : List MapRec :=
  (runsOf s.blockIds).map (fun r => ⟨r.1, r.2, s.chip, s.obj Obj.UDP_PORT, BitVec.ofNat 128 s.ownAddr⟩)

def MapRec.bytes (r : MapRec) : List Byte :=
  beBytes 5 r.first ++ beBytes 3 r.count ++ beBytes 2 r.chip ++ beBytes 2 r.port ++ beBytes 16 r.addr.toNat ++ zeros 4
def MapRec.of (b : List Byte) : MapRec := ⟨beAt b 0 5, beAt b 5 3, beAt b 8 2, beAt b 10 2, BitVec.ofNat 128 (beAt b 12 16)⟩
def mapBytes (rs : List MapRec) : List Byte := (sortBy (fun a b => decide (a.first ≤ b.first)) rs).flatMap MapRec.bytes
def mapOf (b : List Byte) : List MapRec := (chunksOf 32 (b.length / 32) b).map MapRec.of

/-- Something for the speaker of this member: done here when this device is the speaker (R326). -/
def State.tell (s : State) (m : Mail) (here : State → State) : State := if s.isAnchor then here s else s.mailTo s.anchorChip m

/-! ### Exchange areas are in order (R365) -/

/-- Panels that hold federation blocks. -/
def State.fedPanels (s : State) : List Nat := (List.range 4).filter (fun p => s.panelRecs p != [])

def State.exchOk (s : State) : Bool :=
  match s.job.image with
  | none => false
  | some im =>
    let fixed := im.layers.flatMap (fun l => layerAreas l (s.recordsOf l)) ++ im.workAreas ++ im.feedAreas
    decide (s.obj Obj.S_MAX < s.obj Obj.KEEP) && s.fedPanels.all (fun p =>
      let a := exchOf (s.dom Obj.EXCH_AREA) p
      let n := (s.panelRecs p).length
      decide (n * exchStride (s.obj Obj.KEEP) (s.obj Obj.K_LIMIT) + s.obj Obj.POOL_SLOTS * s.exchC ≤ a.2) &&
        decide ((s.obj Obj.MAX_MEMBERS - 1) * n ≤ s.obj Obj.POOL_SLOTS) && im.areasOk fixed [(p, a.1, a.2)])

/-! ### Forming a contribution (R341 to R344) -/

/-- x := (master − anchor) + residue, and the flags of neither matter. -/
def deltaOf (master anchor residue : List Nat) : List Nat :=
  (master.zip (anchor.zip residue)).map (fun q => (fadd b32 .rne (fsub b32 .rne q.1 q.2.1).1 q.2.2).1)

/-- Record of x under the FORM and TOPK in force; true when it is void. -/
def encodeBlock (id form k : Nat) (frozen : Bool) (xs : List Nat) : List Byte × Bool :=
  if frozen || xs.any (fun c => !fFinite c) then (voidRec id, true)
  else if form = 0 then (topRec id k xs, false)
  else (signRec id xs, false)

/-- New residue: W16(x − d) (R344) (DEDUCED, log 58). -/
def residueOf (xs ds : List Nat) : List Nat := (xs.zip ds).map (fun q => (fcvt b32 w16 .rne (fsub b32 .rne q.1 q.2).1).1)

/-- Form, keep and count the contribution of one block; its record and the state. -/
def State.formBlock (s : State) (origin i : Nat) : List Byte × State :=
  let r := s.record i
  let w := s.selElems 4 (Rec.master r (Rec.sel r)) 4096
  let a := w.2.selElems 4 (Rec.anchor r) 4096
  let e := if s.obj Obj.EF_ENABLE = 1 then
      (let q := a.2.selElems 2 (Rec.residue r (Rec.rsel r)) 4096
       (q.1.map ofW16, q.2))
    else (block0, a.2)
  let xs := deltaOf w.1 a.1 e.1
  let c := encodeBlock (Rec.blockId r) (s.obj Obj.FORM) (s.obj Obj.TOPK) (Rec.frozen r) xs
  let s1 := e.2.selWrite (Rec.residue r (1 - Rec.rsel r)) 2 (residueOf xs (blockDec (s.obj Obj.K_LIMIT) c.1))
  let k := origin % s.obj Obj.KEEP
  let s2 := (s1.writeMem (s.keepAt i k) c.1 0x0D8).setSent i origin
  let s3 := { s2 with fed := { s2.fed with
    keeps := s2.fed.keeps.filter (fun q => !(q.idx == i && q.slot == k)) ++ [⟨origin, i, k, c.1.length⟩] } }
  let s4 := if c.2 && !Rec.frozen r then (s3.inc32 Obj.VOID_SENT).raiseN Ev.DELTA_VOID (s.selfId + origin * 2 ^ 32) else s3
  (c.1, s4)

/-- Form every federation block: pairs of block and record, and the state. -/
def State.formAll (origin : Nat) : List Nat → State → List (Nat × List Byte) × State
  | [], s => ([], s)
  | i :: is, s =>
    let f := s.formBlock origin i
    let t := State.formAll origin is f.2
    ((Rec.blockId (s.record i), f.1) :: t.1, t.2)

/-- Records of the given blocks, ascending. -/
def recordsFor (blocks : List Nat) (recs : List (Nat × List Byte)) : List Byte :=
  (ascending blocks).flatMap (fun b => (recs.filter (fun r => r.1 == b)).flatMap Prod.snd)

/-- Send a contribution to every partner in every other live member. -/
def State.sendDeltas (s : State) (origin : Nat) (recs : List (Nat × List Byte)) : State :=
  s.liveOthers.foldl (fun s m =>
    (s.byPartner m (recs.map Prod.fst)).foldl (fun (s : State) (q : Peer × List Nat) =>
      let b := recordsFor q.2 recs
      ((s.fxpSend q.1 0x10 0 origin b).2).bump Obj.BYTES_SENT b.length 64) s) s

/-- Reports that this device's transfers of its contribution are complete (R347). -/
def State.addReport (s : State) (chip kind round : Nat) : State :=
  { s with fed := { s.fed with reports := s.fed.reports.filter (fun q => !(q.1 == chip && q.2.1 == kind)) ++ [(chip, kind, round)] } }

/-- Accepted values of 0x4000 take effect (R367) (DEDUCED, log 57). -/
def State.flushAccepted (s : State) : State :=
  let t := s.fed.accepted.foldl (fun s (q : Nat × Nat) => s.setObj q.1 q.2) s
  { t with fed := { t.fed with accepted := [] } }

/-! ### The receive pool (R365) -/

/-- Free slots of a panel's pool, lowest first. -/
def State.poolFree (s : State) (p : Nat) : List Nat :=
  let used := (s.fed.pool.filter (fun q => q.panel == p)).map PoolRec.slot
  (List.range (s.obj Obj.POOL_SLOTS)).filter (fun k => !used.contains k)

/-- Blocks owned here that a device of a member owns: those a contribution from it holds. -/
def State.sharedRecs (s : State) (m chip : Nat) : List Nat :=
  s.fedRecs.filter (fun i => match s.partner m (Rec.blockId (s.record i)) with | some p => p.chip == chip | none => false)

/-- Reserve slots for a contribution's records; none when a pool is full. -/
def State.reserve (s : State) (m origin : Nat) : List Nat → Option State
  | [] => some s
  | i :: is =>
    if s.fed.pool.any (fun q => q.member == m && q.origin == origin && q.idx == i) then s.reserve m origin is
    else
      let p := Rec.mclass (s.record i)
      match (s.poolFree p).head? with
      | none => none
      | some k => State.reserve { s with fed := { s.fed with pool := s.fed.pool ++ [⟨m, origin, i, p, k, 0⟩] } } m origin is

/-- A received record is written into its slot; one for a block that is not owned here is dropped and counted (R355). -/
def State.poolWrite (s : State) (m origin : Nat) (b : List Byte) : State :=
  match s.recOfBlock (beAt b 0 5) with
  | none => s.inc32 Obj.FOREIGN_DROPPED
  | some i =>
    match s.reserve m origin [i] with
    | none => s
    | some t =>
      match t.fed.pool.find? (fun q => q.member == m && q.origin == origin && q.idx == i) with
      | none => t
      | some q =>
        let u := t.writeMem (t.poolAt q.panel q.slot) (b.take t.exchC) 0x0D8
        { u with fed := { u.fed with pool := u.fed.pool.map (fun x => if x = q then { q with len := min b.length t.exchC } else x) } }

/-- A contribution is whole: its records stand in the pool. -/
def State.takeDelta (s : State) (m origin : Nat) (b : List Byte) : State :=
  (blockRecs b.length b).foldl (fun s r => s.poolWrite m origin r) s

/-- A member's record of a block, from the keep ring for this member. -/
def State.recordFor (s : State) (m origin i : Nat) : Option (List Byte × State) :=
  if m = s.selfId then
    (s.fed.keeps.find? (fun q => q.origin == origin && q.idx == i)).map (fun q => s.selRead (s.keepAt i q.slot) q.len)
  else
    (s.fed.pool.find? (fun q => q.member == m && q.origin == origin && q.idx == i && decide (0 < q.len))).map
      (fun q => s.selRead (s.poolAt q.panel q.slot) q.len)

/-! ### Manifests (Table 13.9) -/

namespace Manifest
def parent (x : Manifest) : List Byte := x.payload.take 16
def issuer (x : Manifest) : Nat := beAt x.payload 16 1
def count (x : Manifest) : Nat := beAt x.payload 17 1
def floor (x : Manifest) : Nat := if x.ty = 0x23 then beAt x.payload 24 4 else beAt x.payload 20 4
def live (x : Manifest) : Nat := if x.ty = 0x23 then beAt x.payload 32 8 else beAt x.payload 24 8
def departed (x : Manifest) : Nat := if x.ty = 0x23 then 0 else beAt x.payload 32 8
def joined (x : Manifest) : Nat := if x.ty = 0x23 then 0 else beAt x.payload 40 8
def etaO (x : Manifest) : Nat := beAt x.payload 48 4
def muO (x : Manifest) : Nat := beAt x.payload 52 4
def omitted (x : Manifest) : Nat := if x.ty = 0x23 then 0 else beAt x.payload 56 8
/-- Entries: member, origin, weight; a fork close names none. -/
def entries (x : Manifest) : List (Nat × Nat × Nat) :=
  if x.ty = 0x23 then [] else (List.range x.count).map (fun i => let o := 64 + 12 * i; (beAt x.payload o 1, beAt x.payload (o + 4) 4, beAt x.payload (o + 8) 4))
def names (x : Manifest) (m origin : Nat) : Bool := x.entries.any (fun e => e.1 == m && e.2.1 == origin)
end Manifest

/-- Digest of a manifest (R351). -/
def manifestDigest (round : Nat) (payload : List Byte) : List Byte := (digest64 (beBytes 4 round ++ payload)).take 16
def mkManifest (round ty : Nat) (payload : List Byte) : Manifest := ⟨round, ty, payload, manifestDigest round payload⟩

/-- Records named by a manifest that this device lacks: member, origin, blocks. -/
def State.lacking (s : State) (x : Manifest) : List (Nat × Nat × List Nat) :=
  (x.entries.map (fun e => (e.1, e.2.1, (s.fedRecs.filter (fun i => (s.recordFor e.1 e.2.1 i).isNone)).map (fun i => Rec.blockId (s.record i))))).filter
    (fun q => q.2.2 != [])

/-- DELTA_REQ to the owners of what is lacking (R355). -/
def State.askDeltas (s : State) (ls : List (Nat × Nat × List Nat)) : State :=
  ls.foldl (fun s q =>
    (s.byPartner q.1 q.2.2).foldl (fun s w =>
      (runsOf (ascending w.2)).foldl (fun s r =>
        s.fxpSingle w.1 0x13 0 q.2.1 (beBytes 5 r.1 ++ zeros 3 ++ beBytes 4 r.2)) s) s) s

/-! ### The merge (R352, R353) -/

/-- acc and W over the decoded records (R352). -/
def mergeSum : List (Nat × List Nat) → List Nat × Nat → List Nat × Nat
  | [], x => x
  | (w, d) :: es, (acc, W) =>
    mergeSum es ((acc.zip d).map (fun q => (fadd b32 .rne q.1 (fmul b32 .rne w q.2).1).1), (fadd b32 .rne W w).1)

/-- New momentum and anchor of one element. -/
def outerRule (eta mu W acc a m : Nat) : Nat × Nat :=
  let delta := (fdiv b32 .rne acc W).1
  let m' := (fadd b32 .rne (fmul b32 .rne mu m).1 delta).1
  (m', (fadd b32 .rne a (fmul b32 .rne eta (fadd b32 .rne (fmul b32 .rne mu m').1 delta).1).1).1)

/-- Decoded records of a block for the entries of a manifest. -/
def State.decoded (s : State) (i : Nat) : List (Nat × Nat × Nat) → List (Nat × List Nat) × State
  | [] => ([], s)
  | (m, o, w) :: es =>
    let r := (s.recordFor m o i).getD ([], s)
    let t := r.2.decoded i es
    ((w, blockDec (s.obj Obj.K_LIMIT) r.1) :: t.1, t.2)

/-- The layer of a record. -/
def State.layerAt (s : State) (i : Nat) : Option Layer := s.layers.find? (fun l => l.recs.contains i)

/-- Bytes that a KIND 2 block record compares: live master, momentum, live residue (R407). -/
def State.kind2Parts (s : State) (i : Nat) : List (List Byte) :=
  let r := s.record i
  s.mem.read (Rec.master r (Rec.sel r)) 16384 :: (if s.obj Obj.STREAM_CONTENT = 1 then
    [s.mem.read (s.momentumAt i) 16384, s.mem.read (Rec.residue r (Rec.rsel r)) 8192] else [])
def State.kind2Record (s : State) (i : Nat) (before : List (List Byte)) : List Byte :=
  let r := s.record i
  blockRecord (Rec.blockId r) (if s.obj Obj.STREAM_CONTENT = 1 then 13 else 1) (Rec.version r)
    ((before.zip (s.kind2Parts i)).flatMap (fun q => codePart q.1 q.2))

/-- A Blocking Unit's shadow of a layer is formed again from the live state that an outer write has changed (DEDUCED, log 24). -/
def State.reshadow (s : State) (l : Layer) : State :=
  match s.upd.shadows.find? (fun q => q.1 == l.layer) with
  | some q => s.shadowLayer l q.2
  | none => s

/-- Steps 2 to 5 and 7 of R353 for one block, with RFLIP between when asked: a' and m' go live. -/
def State.putAnchor (s : State) (i : Nat) (a m : List Nat) (rflip : Bool) : State :=
  let r := s.record i
  let live := Rec.sel r
  let s1 := (s.selWrite (Rec.master r (1 - live)) 4 a).selWrite (s.scratchAt i) 4 m
  let q := s1.selRead (Rec.moments r live) 8448
  let s2 := (q.2.writeMem (Rec.moments r (1 - live)) q.1 0x0D8)
  let s3 := (s2.flip i).2
  let r3 := s3.record i
  let w := s3.selRead (Rec.master r3 (Rec.sel r3)) 16384
  let s4 := w.2.writeMem (Rec.anchor r3) w.1 0x0D8
  let v := s4.selRead (s4.scratchAt i) 16384
  let s5 := v.2.writeMem (v.2.momentumAt i) v.1 0x0D8
  let s6 := if rflip then s5.rflip i else s5
  match s6.layerAt i with
  | some l => (s6.regenBlock l i).reshadow l
  | none => s6

/-- Copy the anchor to the floor (step 1). -/
def State.copyFloor (s : State) (i : Nat) : State :=
  let a := s.selRead (Rec.anchor (s.record i)) 16384
  a.2.writeMem (a.2.floorAt i) a.1 0x0D8

/-- One block under a manifest; the block record for the stream. -/
def State.mergeBlock (s : State) (x : Manifest) (floorRose own : Bool) (i : Nat) : List Byte × State :=
  let s1 := if floorRose then s.copyFloor i else s
  if x.count = 0 then ([], s1.setAcked i x.floor)
  else
    let before := s1.kind2Parts i
    let d := s1.decoded i x.entries
    let a := d.2.selElems 4 (Rec.anchor (s1.record i)) 4096
    let m := a.2.selElems 4 (s1.momentumAt i) 4096
    let sum := mergeSum d.1 (block0, 0)
    let out := (sum.1.zip (a.1.zip m.1)).map (fun q => outerRule x.etaO x.muO sum.2 q.1 q.2.1 q.2.2)
    let s2 := (m.2.putAnchor i (out.map Prod.snd) (out.map Prod.fst) own).setAcked i x.floor
    (s2.kind2Record i before, s2)

/-- Every federation block in turn. -/
def State.mergeBlocks (x : Manifest) (floorRose own : Bool) : List Nat → State → List Byte × State
  | [], s => ([], s)
  | i :: is, s =>
    let b := s.mergeBlock x floorRose own i
    let t := State.mergeBlocks x floorRose own is b.2
    (b.1 ++ t.1, t.2)

/-- Contributions named by manifests are counted for the ramp (R340). -/
def State.countRamps (s : State) (x : Manifest) : State :=
  let r1 := (List.range 64).foldl (fun m j => if bit x.joined j then Sparse.set (fun _ => 0) m j 1 else m) s.fed.ramps
  let r2 := x.entries.foldl (fun m e => let n := Sparse.get (fun _ => 0) m e.1; if n = 0 ∨ bit x.joined e.1 then m else Sparse.set (fun _ => 0) m e.1 (n + 1)) r1
  { s with fed := { s.fed with ramps := r2 } }

/-- Counted steps since the last resumption (R39, R438). -/
def State.counted (s : State) : Nat := s.obj Obj.COMMITTED - s.fed.mark

/-- Round of a manifest becomes the head: objects and masks. -/
def State.setHead (s : State) (x : Manifest) : State :=
  (((((s.setObj Obj.HEAD_ROUND x.round).setDom Obj.HEAD_DIGEST x.digest).setObj Obj.FLOOR_ROUND x.floor).setObj Obj.DEPARTED_MASK x.departed).setObj
    Obj.LIVE_MASK ((s.obj Obj.LIVE_MASK ||| x.joined) &&& (2 ^ 64 - 1 - x.departed))).setDom Obj.LAST_MANIFEST x.payload

/-- The pool after a manifest: what it names, what it omits, what has become older than S_MAX unnamed goes (R365). -/
def State.freePool (s : State) (x : Manifest) : State :=
  { s with fed := { s.fed with pool := s.fed.pool.filter (fun q =>
      !(x.names q.member q.origin || (bit x.omitted q.member && decide (q.origin ≤ x.round)) || decide (q.origin + s.obj Obj.S_MAX ≤ x.round))) } }

/-- The member's own contribution after a manifest: named, absent (R344, R349), or still open. -/
def State.settleOwn (s : State) (x : Manifest) : State :=
  match s.fed.own with
  | none => s
  | some o =>
    if x.names s.selfId o then { s.inc64 Obj.OWN_NAMED with fed := { s.fed with own := none } }
    else if bit x.omitted s.selfId || decide (o + s.obj Obj.S_MAX ≤ x.round) then
      { s.raiseN Ev.CONTRIB_STALE (s.selfId + o * 2 ^ 32) with fed := { s.fed with own := none } }
    else s

/-- H of the next round (R438). -/
def chooseH (x sT h target hMin hMax : Nat) : Nat :=
  let a := if sT = 0 then hMax else ceilDiv (x * 1000) (target * sT)
  min (min (max (max a hMin) (ceilDiv h 2)) hMax) (2 * h)

/-- The member resumes inner steps (round step 4 is done): the speaker chooses H (R346, R438). -/
def State.resume (s : State) : State :=
  if s.fed.inRound && s.fed.own.isNone && s.fed.queue.isEmpty && decide (s.obj Obj.FED_STATE = 3) then
    let h := s.obj Obj.H_NOW
    let sT := (s.fed.stepped - s.fed.resumed) / h
    let n := if s.obj Obj.H_MIN = s.obj Obj.H_MAX then s.obj Obj.H_MIN else
      chooseH (s.now - s.fed.stepped) sT h (s.obj Obj.XCH_TARGET) (s.obj Obj.H_MIN) (s.obj Obj.H_MAX)
    let s1 := { s with fed := { s.fed with inRound := false, mark := s.obj Obj.COMMITTED, resumed := s.now } }
    if s.isAnchor then
      let s2 := (s1.setObj Obj.H_NOW n).mailAll (.fedH n)
      if n = h then s2 else s2.raiseN Ev.H_CHANGED (h % 65536 + n * 2 ^ 16 + s.obj Obj.HEAD_ROUND * 2 ^ 32)
    else s1
  else s

/-- A manifest may be merged now: the member runs no inner steps (R346). -/
def State.mayMerge (s : State) : Bool :=
  !s.committing && !s.moving && (decide (s.obj Obj.FED_STATE = 3) && (!s.jobRuns || s.fed.inRound))

/-- Merge a ROUND_CLOSE (R352, R353). -/
def State.mergeClose (s : State) (x : Manifest) : State :=
  let own := match s.fed.own with | some o => x.names s.selfId o | none => false
  let rose := decide (s.obj Obj.FLOOR_ROUND < x.floor)
  let c := s.counted
  let b := State.mergeBlocks x rose own s.fedRecs s
  let s1 := (b.2.setHead x).countRamps x
  let s2 := s1.streamRecord 2 ((if rose then 1 else 0) + (if own then 16 else 0)) (c % 65536) b.1
  let s3 := (s2.freePool x).settleOwn x
  { s3.inc64 Obj.ROUNDS_MERGED with fed := { s3.fed with queue := s3.fed.queue.filter (fun q => q.round != x.round) } }

end Sys2Proof.Machine
end

