-- ==== Sys2Proof/Machine/Fetch.lean ====
section
/-! DEFINITION. State that a member fetches from its partners (R339, R353, R359), what the speaker tells its devices and what
they report to it (R326), and how a member founds, enters and ends its part (R337, R356). -/

namespace Sys2Proof.Machine

/-! ### Speakers and devices (R326) -/

/-- The speaker of a member. -/
def State.speaker (s : State) (m : Nat) : Peer := (s.member m).peer
/-- A single-datagram message to a member's speaker. -/
def State.oneTo (s : State) (m ty round : Nat) (b : List Byte) : State := s.fxpSingle (s.speaker m) ty 0 round b
/-- Other members known here that have not departed. -/
def State.knownMembers (s : State) : List Nat :=
  (s.fed.members.map Prod.fst).filter (fun m => decide (m < 64) && m != s.selfId && !bit (s.obj Obj.DEPARTED_MASK) m)
def membersMask (ms : List Nat) : Nat := ms.foldl setBit 0

/-- Chips of the other devices of the slice. -/
def State.otherChips (s : State) : List Nat := (s.membersOf s.sliceDef).filter (· != s.chip)
/-- Newest round that a device has reported merged, or fetched whole. -/
def State.reported (s : State) (chip : Nat) : Nat :=
  (s.fed.reports.filter (fun q => q.1 == chip && q.2.1 != 0)).foldl (fun a q => max a q.2.2) 0
/-- The member's head round: the newest round that every device of the member has merged. -/
def State.memberHead (s : State) : Nat := s.otherChips.foldl (fun h c => min h (s.reported c)) (s.obj Obj.HEAD_ROUND)

/-- The speaker tells its devices where the member stands (DEDUCED, log 48). -/
def State.tellState (s : State) : State :=
  if s.isAnchor then
    s.mailAll (.fedState (s.obj Obj.FED_STATE) s.fxp.incarn (s.obj Obj.HEAD_ROUND) (s.obj Obj.FLOOR_ROUND) (s.dom Obj.HEAD_DIGEST)
      (s.obj Obj.LIVE_MASK) (s.obj Obj.UDP_PORT) (BitVec.ofNat 128 s.ownAddr))
  else s

/-- A report of this device: kept here, and mailed to the speaker. -/
def State.report_ (s : State) (kind round : Nat) : State :=
  let t := s.addReport s.chip kind round
  if t.isAnchor then t else t.mailTo t.anchorChip (.fedReport kind round)

/-- The member's owner map: this device's part and those its other devices have sent. -/
def State.fullMap (s : State) : List MapRec := s.ownMap ++ (s.member ownKey).map

/-- The owner map goes to a member's speaker. A speaker whose chip is not known yet is named 0xFF and 0xFFFF (DEDUCED, log 20). -/
def State.sendMap (s : State) (m : Nat) : State :=
  let p := s.speaker m
  (s.fxpSend (if p.chip = 0xFFFF then { p with member := 0xFF } else p) 0x04 0 0 (mapBytes s.fullMap)).2

/-- This device's part has changed since it was last announced (R327). -/
def State.announceMap (s : State) : State :=
  if s.ownMap = s.fed.announced then s
  else
    let t := { s with fed := { s.fed with announced := s.ownMap } }
    if t.isAnchor then t.liveOthers.foldl State.sendMap t else t.mailTo t.anchorChip (.fedOwn (mapBytes t.ownMap))

/-! ### Beginning and ending (R337, R356, R362) -/

/-- Bits 45:30 of the timebase. -/
def State.newIncarn (s : State) : Nat := s.now / 2 ^ 30 % 2 ^ 16

/-- FOUND at one device: its live masters become anchor and floor, and its momentum +0. -/
def State.foundHere (s : State) : State :=
  let s1 := s.fedRecs.foldl (fun s i =>
    let w := s.selRead (Rec.master (s.record i) (Rec.sel (s.record i))) 16384
    ((w.2.writeMem (Rec.anchor (s.record i)) w.1 0x0D8).writeMem (s.floorAt i) w.1 0x0D8).writeMem (s.momentumAt i) (zeros 16384) 0x0D8) s
  let s2 := ((((s1.setObj Obj.FED_STATE 3).setObj Obj.HEAD_ROUND 0).setObj Obj.FLOOR_ROUND 0).setObj Obj.H_NOW (s1.obj Obj.H_MIN)).setObj
    Obj.DEPARTED_MASK 0
  { s2 with fed := { FedSt.reset with mark := s2.obj Obj.COMMITTED, resumed := s2.now, announced := s2.ownMap } }

/-- The member's part ends at one device. -/
def State.fedEndHere (s : State) : State :=
  let t := s.flushAccepted
  { ((((t.setObj Obj.FED_STATE 0).setObj Obj.HEAD_ROUND 0).setObj Obj.FLOOR_ROUND 0).setObj Obj.LIVE_MASK 0).setObj Obj.DEPARTED_MASK 0 with
    fed := FedSt.reset
    fxp := { t.fxp with tx := t.fxp.tx.filter (fun x => decide (0x50 ≤ x.ty)), rx := t.fxp.rx.filter (fun x => decide (0x50 ≤ x.ty)) } }

/-- LEAVE, LOAD or UNLOAD: the speaker sends LEAVE to the live speakers. -/
def State.fedEnd (s : State) : State :=
  if s.obj Obj.FED_STATE = 0 then s
  else
    let t := if s.isAnchor && decide (s.obj Obj.FED_STATE ≠ 1) then s.liveOthers.foldl (fun s m => s.oneTo m 0x06 s.memberHead []) s else s
    t.fedEndHere.tellState

/-! ### STATE_REQ and STATE_FRAG (R339) -/

/-- Ask the partners in a member for state: KINDS bit 0 anchor, 1 momentum, 2 floor. The manual does not hold Table 13.6; this
payload is the model's (DESIGN CHOICE, log 30). -/
def State.askState (s : State) (m kinds : Nat) (blocks : List Nat) : State :=
  (s.byPartner m blocks).foldl (fun (s : State) (q : Peer × List Nat) =>
    (runsOf (ascending q.2)).foldl (fun s r =>
      s.fxpSingle q.1 0x30 0 0 (beBytes 5 r.1 ++ beBytes 1 kinds ++ zeros 2 ++ beBytes 4 r.2)) s) s

/-- The record of one block in a STATE_FRAG transfer. -/
def State.stateRec (s : State) (kinds i : Nat) : List Byte × State :=
  let part := fun (k a : Nat) (x : List Byte × State) =>
    if bit kinds k then
      (let r := x.2.selRead a 16384
       (x.1 ++ turned 4 r.1, r.2))
    else x
  let head := beBytes 5 (Rec.blockId (s.record i)) ++ beBytes 1 (kinds % 8) ++ zeros 2 ++ beBytes 4 (s.obj Obj.HEAD_ROUND) ++
    beBytes 4 (s.obj Obj.FLOOR_ROUND)
  part 2 (s.floorAt i) (part 1 (s.momentumAt i) (part 0 (Rec.anchor (s.record i)) (head, s)))

/-- Records of a run of blocks owned here, by ascending block. -/
def State.recsInRun (s : State) (first count : Nat) : List Nat :=
  sortBy (fun a b => decide (Rec.blockId (s.record a) ≤ Rec.blockId (s.record b)))
    (s.fedRecs.filter (fun i => decide (first ≤ Rec.blockId (s.record i)) && decide (Rec.blockId (s.record i) < first + count)))

/-- A partner answers with its head's state (DESIGN CHOICE, log 30). -/
def State.onStateReq (s : State) (p : Peer) (b : List Byte) : State :=
  let is := s.recsInRun (beAt b 0 5) (beAt b 8 4)
  if (s.obj Obj.FED_STATE = 3 ∨ s.obj Obj.FED_STATE = 4) ∧ is ≠ [] then
    let r := is.foldl (fun (x : List Byte × State) i => let q := x.2.stateRec (beAt b 5 1) i; (x.1 ++ q.1, q.2)) ([], s)
    (r.2.fxpSend p 0x31 0 (s.obj Obj.HEAD_ROUND) r.1).2
  else s

/-- Bytes of the record at the front. -/
def stateRecLen (b : List Byte) : Nat :=
  let k := beAt b 5 1
  16 + 16384 * ((if bit k 0 then 1 else 0) + (if bit k 1 then 1 else 0) + (if bit k 2 then 1 else 0))
def stateRecs : Nat → List Byte → List (List Byte)
  | 0, _ => []
  | _ + 1, [] => []
  | n + 1, b => b.take (stateRecLen b) :: stateRecs n (b.drop (stateRecLen b))
/-- The k-th array of a record. -/
def stateArr (b : List Byte) (k : Nat) : List Nat := (chunksOf 4 4096 (b.drop (16 + 16384 * k))).map ofBe

/-- Fetched state goes live: anchor, momentum and master under R353, the floor, and both residue slots zero. -/
def State.putState (s : State) (i : Nat) (a m f : List Nat) : List Byte × State :=
  let before := s.kind2Parts i
  let s1 := (s.selWrite (s.floorAt i) 4 f).putAnchor i a m false
  let r := s1.record i
  let s2 := (s1.writeMem (Rec.residue r 0) (zeros 8192) 0x0D8).writeMem (Rec.residue r 1) (zeros 8192) 0x0D8
  (s2.kind2Record i before, s2)

/-- This device has reported its state whole. -/
def State.wholeHere (s : State) : Bool := s.fed.reports.any (fun q => q.1 == s.chip && q.2.1 == 2)

/-- Manifests that the fetched state already holds take their place in the books. -/
def State.pass (s : State) (x : Manifest) : State := (((s.setHead x).countRamps x).freePool x).settleOwn x

/-- Every block holds one round and one floor round. -/
def State.stateWhole (s : State) (round floor : Nat) : State :=
  let old := s.fed.queue.filter (fun x => decide (x.round ≤ round))
  let t := old.foldl State.pass s
  ({ (t.setObj Obj.HEAD_ROUND round).setObj Obj.FLOOR_ROUND floor with
    fed := { t.fed with queue := t.fed.queue.filter (fun x => decide (round < x.round)) } }).report_ 2 round

/-- What has arrived is looked over: blocks of an older round are asked for again. -/
def State.fetchCheck (s : State) : State :=
  let is := s.fedRecs
  let got := is.filterMap (fun i => s.fed.fetched.find? (fun q => q.idx == i))
  if s.wholeHere || decide (got.length < is.length) then s
  else
    match got with
    | [] => s.stateWhole (s.obj Obj.HEAD_ROUND) (s.obj Obj.FLOOR_ROUND)
    | g :: gs =>
      let new := gs.foldl (fun a q => if a.round < q.round then q else a) g
      let old := got.filter (fun q => decide (q.round ≠ new.round ∨ q.floor ≠ new.floor))
      if old = [] then s.stateWhole new.round new.floor
      else
        ({ s with fed := { s.fed with fetched := s.fed.fetched.filter (fun q => !old.contains q) } }).askState
          (s.fed.donor.getD 0xFF) 7 (old.map (fun (q : FetchRec) => Rec.blockId (s.record q.idx)))

/-- One record of fetched state in FED_STATE 2 or 5; its part of the stream's record. -/
def State.takeStateRec (x : List Byte × State) (b : List Byte) : List Byte × State :=
  match x.2.recOfBlock (beAt b 0 5) with
  | none => (x.1, x.2.inc32 Obj.FOREIGN_DROPPED)
  | some i =>
    if beAt b 5 1 % 8 = 7 then
      let q := x.2.putState i (stateArr b 0) (stateArr b 1) (stateArr b 2)
      (x.1 ++ q.1, { q.2 with fed := { q.2.fed with
        fetched := q.2.fed.fetched.filter (fun f => f.idx != i) ++ [⟨i, beAt b 8 4, beAt b 12 4⟩] } })
    else x

/-- A STATE_FRAG transfer in FED_STATE 2 or 5. -/
def State.takeState (s : State) (b : List Byte) : State :=
  let r := (stateRecs b.length b).foldl State.takeStateRec ([], s)
  (r.2.streamRecord 2 (if s.fed.fork.isSome then 12 else 8) 0 r.1).fetchCheck

/-- Ask a donor for the whole state; a held block is not written before its release (R413). -/
def State.startFetch (s : State) (d : Nat) : State :=
  if (s.member d).map.isEmpty || s.fedRecs.any s.heldBySnap then s
  else (({ s with fed := { s.fed with donor := some d, fetched := [] } }).askState d 7 s.blockIds).fetchCheck

/-- Side records of a FORK_CLOSE (Table 13.10). -/
def forkSideRecs (p : List Byte) : List (List Byte) := (List.range (beAt p 18 1)).map (fun k => slice p (48 + 32 * k) 32)
def sideHead (b : List Byte) : Nat := beAt b 0 4
def sideMask (b : List Byte) : Nat := beAt b 4 8
def sideRounds (b : List Byte) : Nat := beAt b 12 4
/-- Members of a side; its lowest member other than one's own. -/
def sideMembers (b : List Byte) : List Nat := (List.range 64).filter (bit (sideMask b))
def lowestOf (self : Nat) (b : List Byte) : Nat := ((sideMembers b).filter (· != self)).headD 0xFF

/-- The donor: the lowest-ID live member other than itself, or the lowest of the kept side after a fork (R339, R360). -/
def State.donorPick (s : State) : Option Nat :=
  match s.fed.fork with
  | some x => some (lowestOf s.selfId (nth [] (forkSideRecs x.payload) (beAt x.payload 19 1)))
  | none => s.liveOthers.head?

/-- STATE_REQs go out when the donor's owner map is here. -/
def State.joinFetch (s : State) : State :=
  if (s.obj Obj.FED_STATE = 2 ∨ s.obj Obj.FED_STATE = 5) ∧ s.fed.donor = none then
    match s.donorPick with
    | some d => s.startFetch d
    | none => s
  else s

/-- DELTA_GONE: the member adopts the head state in FED_STATE 5 (R355). -/
def State.adoptHere (s : State) : State :=
  ({ s.setObj Obj.FED_STATE 5 with fed := { s.fed with
      donor := none, fetched := [], reports := s.fed.reports.filter (fun q => q.2.1 != 2) } }).joinFetch
def State.adopt (s : State) : State :=
  if s.isAnchor then (if s.obj Obj.FED_STATE = 3 then (s.setObj Obj.FED_STATE 5).tellState.adoptHere else s)
  else s.mailTo s.anchorChip (.fedReport 3 (s.obj Obj.HEAD_ROUND))

/-- The member is live again after FED_STATE 2 or 5, at this device. -/
def State.goLiveHere (s : State) : State :=
  let joined := decide (s.obj Obj.FED_STATE = 2)
  let s1 := { (s.setObj Obj.FED_STATE 3).setObj Obj.LIVE_MASK (setBit (s.obj Obj.LIVE_MASK) s.selfId) with
    fed := { s.fed with donor := none, fetched := [] } }
  if joined then
    { s1.setObj Obj.H_NOW (s1.obj Obj.H_MIN) with
      fed := { s1.fed with mark := s1.obj Obj.COMMITTED, resumed := s1.now, inRound := false } }
  else s1.resume

/-- Every device of the member holds its state and has merged what followed. -/
def State.liveCheck (s : State) : State :=
  let f := s.obj Obj.FED_STATE
  if s.isAnchor = true ∧ (f = 2 ∨ f = 5) ∧ s.wholeHere = true ∧ s.fed.queue = [] ∧ s.fed.fork = none ∧
      s.otherChips.all (fun c => s.fed.reports.any (fun q => q.1 == c && q.2.1 == 2) && s.reported c == s.obj Obj.HEAD_ROUND) = true then
    let t := s.goLiveHere
    (if f = 2 then t.raiseN Ev.FXP_JOINED (s.selfId + s.obj Obj.HEAD_ROUND * 2 ^ 32) else t).tellState
  else s

end Sys2Proof.Machine
end

