-- ==== Sys2Proof/Machine/Chain.lean ====
section
/-! DEFINITION. The chain of manifests, the coordinator's close (R347 to R351, R354), forks and their close (R357 to R361). -/

namespace Sys2Proof.Machine

/-! ### The chain (R351) -/

def State.topRound (s : State) : Nat := match s.fed.chain with | x :: _ => max x.round (s.obj Obj.HEAD_ROUND) | [] => s.obj Obj.HEAD_ROUND

/-- Digest of the manifest of a round, as this chain holds it. -/
def State.digestOf (s : State) (r : Nat) : Option (List Byte) :=
  match s.fed.chain.find? (fun x => x.round == r) with
  | some x => some x.digest
  | none =>
    if r = s.obj Obj.HEAD_ROUND then some (s.dom Obj.HEAD_DIGEST)
    else (s.fed.chain.find? (fun x => x.round == r + 1 && x.ty == 0x21)).map Manifest.parent

/-- The round before a manifest in its chain. -/
def Manifest.prev (x : Manifest) : Nat := if x.ty = 0x23 then beAt x.payload 20 4 else x.round - 1

/-- Digest of the member's head. -/
def State.memberDigest (s : State) : List Byte := (s.digestOf s.memberHead).getD (s.dom Obj.HEAD_DIGEST)

def State.askChain (s : State) (m r : Nat) : State := s.oneTo m 0x22 r []

/-- Send a manifest to a member's speaker, unless it is on its way. -/
def State.sendManifest (s : State) (x : Manifest) (flags m : Nat) : State :=
  if s.fxp.tx.any (fun t => t.ty == x.ty && t.round == x.round && t.peer.member == m) then s
  else (s.fxpSend (s.speaker m) x.ty flags x.round x.payload).2

/-- A manifest of the next round is kept, queued and passed to the devices. -/
def State.append (s : State) (x : Manifest) : State :=
  ({ s with fed := { s.fed with
      chain := x :: s.fed.chain
      queue := s.fed.queue ++ [x]
      joins := s.fed.joins.filter (fun m => !bit x.joined m)
      leaves := s.fed.leaves.filter (fun m => !bit x.departed m)
      closing := false } }).mailAll (.fedManifest x.round x.ty x.payload)

/-- Manifests back to min(floor round, head round − FORK_HORIZON) are kept. -/
def State.trimChain (s : State) : State :=
  let lo := min (s.obj Obj.FLOOR_ROUND) (s.obj Obj.HEAD_ROUND - s.obj Obj.FORK_HORIZON)
  { s with fed := { s.fed with chain := s.fed.chain.filter (fun x => decide (lo ≤ x.round)) } }

/-! ### Forks (R357) -/

/-- A manifest of another member's chain is noted; the one before it is asked for until the chains meet. -/
def State.noteOther (s : State) (m : Nat) (x : Manifest) : State :=
  let t := if s.fed.others.contains (m, x) then s else { s with fed := { s.fed with others := s.fed.others ++ [(m, x)] } }
  if t.digestOf x.prev = some x.parent ∨ t.fed.others.any (fun q => q.1 == m && q.2.round == x.prev) = true then t else t.askChain m x.prev

/-- The speaker has found a fork with a member. -/
def State.enterFork (s : State) (m : Nat) : State :=
  if s.obj Obj.FED_STATE = 3 then
    let t := (((s.setObj Obj.FED_STATE 4).inc32 Obj.FORKS).raiseN Ev.FXP_FORK (s.selfId + s.obj Obj.HEAD_ROUND * 2 ^ 32)).tellState
    match (t.member m).head with
    | some h => t.askChain m h.1
    | none => t
  else s

/-- A ROUND_CLOSE reaches the speaker from a member. -/
def State.takeManifest (s : State) (m : Nat) (x : Manifest) : State :=
  let top := s.topRound
  let fork := fun (s : State) => (s.enterFork m).noteOther m x
  match s.fed.chain.find? (fun y => y.round == x.round) with
  | some y => if y.digest = x.digest then s else fork s
  | none =>
    if x.round = top + 1 then (if s.digestOf top = some x.parent then s.append x else fork s)
    else if x.round = s.obj Obj.HEAD_ROUND then (if s.dom Obj.HEAD_DIGEST = x.digest then s else fork s)
    else if x.round ≤ top then (if s.obj Obj.FED_STATE = 4 then s.noteOther m x else s)
    else (if s.obj Obj.FED_STATE = 4 then s.noteOther m x else s).askChain m (top + 1)

/-! ### Closing a round (R347 to R350, R354) -/

/-- The round that this member would close or see closed next. -/
def State.toClose (s : State) : Nat := s.memberHead + 1

/-- A member has shown a head round of at least r − 1. -/
def State.shownHead (s : State) (r m : Nat) : Bool :=
  if m = s.selfId then decide (r ≤ s.memberHead + 1)
  else
    let x := s.member m
    (match x.head with | some h => decide (r ≤ h.1 + 1) | none => false) || (match x.contrib with | some o => decide (r ≤ o) | none => false)

/-- The contribution has been named, or omitted for its weight (DEDUCED, log 58). -/
def State.resolved (s : State) (m o : Nat) : Bool :=
  s.fed.chain.any (fun x => x.names m o || (bit x.omitted m && decide (o ≤ x.round)))

/-- Contributions that round r names or omits: member, origin. -/
def State.candidates (s : State) (r : Nat) : List (Nat × Nat) :=
  (List.range 64).filterMap (fun m =>
    match (s.member m).contrib with
    | some o => if o ≤ r ∧ r ≤ o + s.obj Obj.S_MAX ∧ s.resolved m o = false then some (m, o) else none
    | none => none)

/-- Contributions that have just become older than S_MAX unnamed. -/
def State.justStale (s : State) (r : Nat) : Nat :=
  ((List.range 64).filter (fun m =>
    match (s.member m).contrib with
    | some o => decide (r = o + s.obj Obj.S_MAX + 1) && !s.resolved m o
    | none => false)).length

/-- Ramp of a member (R340): 0.25, 0.5, 0.75, then 1.0. -/
def rampOf (n : Nat) : Nat := if n = 1 then 0x3E800000 else if n = 2 then 0x3F000000 else if n = 3 then 0x3F400000 else fOne

/-- LAMBDA multiplied `n` times onto 1.0. -/
def lambdaPow (lambda : Nat) : Nat → Nat
  | 0 => fOne
  | n + 1 => (fmul b32 .rne (lambdaPow lambda n) lambda).1

/-- Weight of a contribution (R349). -/
def State.weightOf (s : State) (m staleness : Nat) : Nat :=
  let base := if m = s.selfId then s.obj Obj.BASE_WEIGHT else (s.member m).weight
  (fmul b32 .rne (fmul b32 .rne base (lambdaPow (s.obj Obj.LAMBDA) staleness)).1 (rampOf (Sparse.get (fun _ => 0) s.fed.ramps m))).1
def goodWeight (w : Nat) : Bool := fFinite w && decide (0 < w) && decide (w < 2 ^ 31)

/-- A member absent from the LIVE_MASK of FORK_HORIZON consecutive manifests (R356). -/
def State.absentLong (s : State) (m : Nat) : Bool :=
  let n := s.obj Obj.FORK_HORIZON
  let xs := s.fed.chain.take n
  xs.length == n && xs.all (fun x => !bit x.live m)

/-- Members that the next manifest marks departed. -/
def State.departing (s : State) : List Nat :=
  s.knownMembers.filter (fun m => !s.fed.joins.contains m && (s.fed.leaves.contains m || s.absentLong m))

/-- Payload of Table 13.9. -/
def State.closePayload (s : State) (r : Nat) (good : List (Nat × Nat × Nat)) (omitted : List Nat) : List Byte :=
  let joined := membersMask s.fed.joins
  let departed := (s.obj Obj.DEPARTED_MASK ||| membersMask s.departing) &&& (2 ^ 64 - 1 - joined)
  let live := (s.obj Obj.LIVE_MASK ||| joined) &&& (2 ^ 64 - 1 - departed)
  let shown := (s.selfId :: s.knownMembers).all (fun m => bit departed m || bit joined m || s.shownHead r m)
  ((s.digestOf (r - 1)).getD (zeros 16)) ++ beBytes 1 s.selfId ++ beBytes 1 good.length ++ zeros 2 ++
    beBytes 4 (if shown then r - 1 else s.obj Obj.FLOOR_ROUND) ++ beBytes 8 live ++ beBytes 8 departed ++ beBytes 8 joined ++
    beBytes 4 (s.obj Obj.ETA_O) ++ beBytes 4 (s.obj Obj.MU_O) ++ beBytes 8 (membersMask omitted) ++
    good.flatMap (fun e => beBytes 1 e.1 ++ zeros 3 ++ beBytes 4 e.2.1 ++ beBytes 4 e.2.2)

/-- ROUND_CLOSE_ISSUE (R349): the manifest of the round is formed and sent. -/
def State.issueClose (s : State) (takeover : Bool) : State :=
  let r := s.toClose
  let cs := (s.candidates r).map (fun q => (q.1, q.2, s.weightOf q.1 (r - q.2)))
  if cs = [] ∨ r ≤ s.topRound then s
  else
    let good := cs.filter (fun q => goodWeight q.2.2)
    let bad := (cs.filter (fun q => !goodWeight q.2.2)).map Prod.fst
    let x := mkManifest r 0x21 (s.closePayload r good bad)
    let dst := s.liveOthers ++ s.fed.joins
    let s1 := s.bump Obj.STALE_DISCARDED (bad.length + s.justStale r) 32
    let s2 := dst.foldl (fun s m => s.sendManifest x (if takeover then 4 else 0) m) s1
    let s3 := if takeover then (s2.inc32 Obj.TAKEOVERS).raiseN Ev.COORD_TAKEOVER (s.selfId + r * 2 ^ 32) else s2
    s3.append x

/-- Every live member has contributed to the round. -/
def State.allContrib (s : State) : Bool :=
  ((List.range 64).filter s.isLiveMember).all (fun m => match (s.member m).contrib with | some o => decide (s.toClose ≤ o) | none => false)
/-- A CONTRIB_DONE of the round to be closed has been received. -/
def State.opened (s : State) : Bool :=
  s.fed.closing || (List.range 64).any (fun m => (s.member m).contrib == some s.toClose)
/-- This member coordinates the round. -/
def State.coordinates (s : State) : Bool := coordIn (s.obj Obj.LIVE_MASK) s.toClose == some s.selfId
/-- A live speaker, outside a fork. -/
def State.speaks (s : State) : Bool := s.isAnchor && decide (s.obj Obj.FED_STATE = 3)

def State.tryClose (s : State) : State := if s.speaks && s.coordinates && s.allContrib then s.issueClose false else s

/-- CONTRIB_DONE of a member is held (R348). -/
def State.noteContrib (s : State) (m o : Nat) : State :=
  let x := s.member m
  let t := s.setMember m { x with contrib := some (match x.contrib with | some c => max c o | none => o) }
  ({ t with fed := { t.fed with closing := t.fed.closing || decide (o = t.toClose) } }).tryClose

/-- Every device of the member has reported its contribution complete: CONTRIB_DONE goes out (R347). -/
def State.speakerDone (s : State) : State :=
  match s.fed.own with
  | some o =>
    let done := (s.chip :: s.otherChips).all (fun c => s.fed.reports.any (fun q => q.1 == c && q.2.1 == 0 && decide (o ≤ q.2.2)))
    if s.isAnchor = true ∧ s.obj Obj.FED_STATE = 3 ∧ done = true ∧ (match (s.member s.selfId).contrib with | some c => decide (c < o) | none => true) = true then
      (s.liveOthers.foldl (fun s m => s.oneTo m 0x20 o (beBytes 4 s.memberHead ++ zeros 4)) s).noteContrib s.selfId o
    else s
  | none => s

/-- This device's transfers of its contribution are complete at every partner of a live member (R347). -/
def State.contribCheck (s : State) : State :=
  match s.fed.own with
  | some o =>
    if s.obj Obj.FED_STATE = 3 ∧ s.fxp.tx.any (fun x => x.ty == 0x10 && x.round == o && s.isLiveMember x.peer.member) = false ∧
        s.fed.reports.contains (s.chip, 0, o) = false then (s.report_ 0 o).speakerDone
    else s
  | none => s

/-- A member leaves the view (R356). -/
def State.loseMember (s : State) (m : Nat) : State :=
  if s.isAnchor && s.isLiveMember m && m != s.selfId then
    let t := ((s.setObj Obj.LIVE_MASK (clrBit (s.obj Obj.LIVE_MASK) m)).dropMemberTx m).raiseN Ev.MEMBER_LOST (m + s.obj Obj.HEAD_ROUND * 2 ^ 32)
    t.tellState.contribCheck.tryClose
  else s

/-! ### The fork's sides (R357, R358) -/

/-- A side while it is put together: members, and its manifests after the common round, newest first. -/
structure Side where
  members : List Nat
  xs : List Manifest
deriving DecidableEq, Repr

/-- Another member's chain as it has shown it, newest first. -/
def State.othersOf (s : State) (m : Nat) : List Manifest :=
  sortBy (fun a b => decide (b.round ≤ a.round)) ((s.fed.others.filter (fun q => q.1 == m)).map Prod.snd)

/-- The member's head stands in this chain. -/
def State.onOwnSide (s : State) (m : Nat) : Bool :=
  m == s.selfId || (match (s.member m).head with | some h => s.digestOf h.1 == some h.2.1 | none => false)

/-- The newest round that the other member's chain and this one both hold. -/
def State.commonWith (s : State) (m : Nat) : Option Nat :=
  ((s.othersOf m).find? (fun x => s.digestOf x.prev == some x.parent)).map Manifest.prev

/-- Live members of other sides whose heads are known. -/
def State.foreigners (s : State) : List Nat := s.liveOthers.filter (fun m => !s.onOwnSide m && (s.member m).head.isSome)

/-- The member's chain is here from its head down to the common round. -/
def State.chainKnown (s : State) (m : Nat) : Bool :=
  (s.commonWith m).isSome && (match (s.member m).head, (s.othersOf m).head? with
    | some h, some x => decide (h.1 ≤ x.round)
    | _, _ => false)

/-- A member joins the side whose manifests hold its head. -/
def State.placeMember (s : State) (c : Nat) (m : Nat) : List Side → List Side
  | [] => [⟨[m], (s.othersOf m).filter (fun x => decide (c < x.round))⟩]
  | d :: ds =>
    let mine := (s.othersOf m).filter (fun x => decide (c < x.round))
    if mine.any (fun x => d.xs.any (fun y => y.digest == x.digest)) then
      ⟨d.members ++ [m], if d.xs.length < mine.length then mine else d.xs⟩ :: ds
    else d :: s.placeMember c m ds

/-- The common round and the sides in order of their lowest member, when every chain is known. -/
def State.forkSides (s : State) : Option (Nat × List Side) :=
  let fs := s.foreigners
  if fs = [] ∨ fs.all s.chainKnown = false then none
  else
    let c := (fs.filterMap s.commonWith).foldl min s.topRound
    let own : Side := ⟨(List.range 64).filter (fun m => (m == s.selfId || s.isLiveMember m) && s.onOwnSide m), s.fed.chain.filter (fun x => decide (c < x.round))⟩
    let sides := fs.foldl (fun ds m => s.placeMember c m ds) []
    some (c, sortBy (fun a b => decide (a.members.headD 64 ≤ b.members.headD 64)) (own :: sides))

def Side.head (d : Side) (c : Nat) : Nat := match d.xs with | x :: _ => x.round | [] => c
/-- Side record of Table 13.10. -/
def State.sideRec (s : State) (c : Nat) (d : Side) : List Byte :=
  beBytes 4 (d.head c) ++ beBytes 8 (membersMask d.members) ++ beBytes 4 ((d.xs.map (fun x => x.entries.length)).foldl (· + ·) 0) ++
    (match d.xs with | x :: _ => x.digest | [] => (s.digestOf c).getD (zeros 16))

/-- Index of the kept side: most members, then lowest member ID; the records stand in that order. -/
def keptOf (recs : List (List Byte)) : Nat :=
  ((List.range recs.length).foldl (fun (b : Nat × Nat) k =>
    let n := (sideMembers (nth [] recs k)).length
    if b.2 < n then (k, n) else b) (0, 0)).1
/-- Index of the side of a member. -/
def sideOf (recs : List (List Byte)) (m : Nat) : Option Nat := (List.range recs.length).find? (fun k => bit (sideMask (nth [] recs k)) m)

/-- Sides in force at this device: the fork close's, or those the coordinator measures. -/
def State.sidesNow (s : State) : List (List Byte) :=
  match s.fed.fork with
  | some x => forkSideRecs x.payload
  | none => s.fed.sideRecs

/-- The anchor of side `k` for a block: this device's own, or the fetched one. -/
def State.sideAnchor (s : State) (k i : Nat) : Option (List Nat) :=
  if sideOf s.sidesNow s.selfId = some k then some (elemsOf 4 4096 (s.mem.read (Rec.anchor (s.record i)) 16384))
  else (s.fed.sides.find? (fun q => q.1 == k && q.2.1 == i)).map (fun q => q.2.2)

/-- Every side's anchor of every federation block is here. -/
def State.anchorsHere (s : State) : Bool :=
  (List.range s.sidesNow.length).all (fun k => s.fedRecs.all (fun i => (s.sideAnchor k i).isSome))

/-- Fetch the anchors of the other sides from their lowest-ID members (R359). -/
def State.askAnchors (s : State) : State :=
  let recs := s.sidesNow
  ((List.range recs.length).filter (fun k => sideOf recs s.selfId != some k)).foldl (fun s k =>
    s.askState (lowestOf s.selfId (nth [] recs k)) 1 ((s.fedRecs.filter (fun i => (s.sideAnchor k i).isNone)).map (fun i => Rec.blockId (s.record i)))) s

/-- Left fold of block sums of squares over the federation blocks in ascending record order. -/
def State.normOver (s : State) (f : Nat → List Nat) : Nat := (foldSums (s.fedRecs.map (fun i => blockSumsq (f i)))).1

/-- This device's squared norms: side, of its anchor less the kept side's, of the floor. -/
def State.sideNorms (s : State) : List (Nat × Nat × Nat) :=
  let recs := s.sidesNow
  let kept := keptOf recs
  let floor := s.normOver (fun i => elemsOf 4 4096 (s.mem.read (s.floorAt i) 16384))
  ((List.range recs.length).filter (· != kept)).map (fun k =>
    (k, s.normOver (fun i => (((s.sideAnchor k i).getD []).zip ((s.sideAnchor kept i).getD [])).map (fun q => (fsub b32 .rne q.1 q.2).1)), floor))

/-- The norms of this device go to the speaker once its anchors are here. -/
def State.measureCheck (s : State) : State :=
  if s.fed.fork = none ∧ s.fed.sideRecs ≠ [] ∧ s.anchorsHere = true ∧ s.fed.norms.any (fun q => q.1 == s.chip) = false then
    let ns := s.sideNorms
    let t := { s with fed := { s.fed with norms := s.fed.norms ++ ns.map (fun n => (s.chip, n)) } }
    if t.isAnchor then t else t.mailTo t.anchorChip (.fedNorm ns)
  else s

/-- A device begins to measure for the coordinator (R358). -/
def State.measure (s : State) (recs : List (List Byte)) : State :=
  ({ s with fed := { s.fed with sideRecs := recs, sides := [], norms := [] } }).askAnchors.measureCheck

/-- Divergence of one side over the member's devices, in device index order. -/
def State.sideRatio (s : State) (k : Nat) : Nat :=
  let of := fun (f : Nat × Nat × Nat × Nat → Nat) =>
    (foldSums ((s.membersOf s.sliceDef).filterMap (fun c => (s.fed.norms.find? (fun q => q.1 == c && q.2.1 == k)).map (fun q => fmC (f q))))).1
  (fdiv b32 .rne (fsqrt b32 .rne (of (fun q => q.2.2.1))).1 (fsqrt b32 .rne (of (fun q => q.2.2.2))).1).1
/-- D (R358). -/
def State.divergence (s : State) : Nat :=
  let recs := s.sidesNow
  ((List.range recs.length).filter (· != keptOf recs)).foldl (fun d k => if fGt (s.sideRatio k) d then s.sideRatio k else d) 0

/-- Floor round of a side: its newest manifest's. -/
def State.sideFloor (s : State) (d : Side) : Nat := match d.xs with | x :: _ => x.floor | [] => s.obj Obj.FLOOR_ROUND

/-- Payload of Table 13.10. -/
def State.forkPayload (s : State) (c : Nat) (ds : List Side) : List Byte :=
  let recs := s.fed.sideRecs
  let d := s.divergence
  let adopt := ds.any (fun x => decide (c + s.obj Obj.FORK_HORIZON < x.head c)) || fGt d (s.obj Obj.DIV_BOUND)
  let kept := keptOf recs
  let floor := if adopt then s.sideFloor (nth ⟨[], []⟩ ds kept) else (ds.map s.sideFloor).foldl min (s.sideFloor (nth ⟨[], []⟩ ds 0))
  ((s.digestOf c).getD (zeros 16)) ++ beBytes 1 s.selfId ++ beBytes 1 (if adopt then 1 else 0) ++ beBytes 1 recs.length ++
    beBytes 1 (if adopt then kept else 0xFF) ++ beBytes 4 c ++ beBytes 4 floor ++ beBytes 4 d ++
    beBytes 8 (recs.foldl (fun v b => v ||| sideMask b) 0) ++ zeros 8 ++ recs.flatten

/-! ### The fork close (R359 to R361) -/

namespace Manifest
def adopts (x : Manifest) : Bool := beAt x.payload 17 1 == 1
def kept (x : Manifest) : Nat := beAt x.payload 19 1
end Manifest

/-- A live member whose floor round is F, to fetch the floor from. -/
def State.floorHolder (s : State) (f : Nat) : Option Nat :=
  s.liveOthers.find? (fun m => match (s.member m).head with | some h => h.2.2.1 == f | none => false)

/-- This device's floor is newer than the fork close's. -/
def State.wantsFloor (s : State) (x : Manifest) : Bool := decide (x.floor < s.obj Obj.FLOOR_ROUND)

/-- Requests of a fork close in merge mode. -/
def State.askFork (s : State) (x : Manifest) : State :=
  let t := if s.wantsFloor x then
      (match s.floorHolder x.floor with
      | some m => s.askState m 4 ((s.fedRecs.filter (fun i => !s.fed.floors.contains i)).map (fun i => Rec.blockId (s.record i)))
      | none => s)
    else s
  t.askAnchors

/-- A fork close reaches a device: what it needs is asked for; a member of a discarded side adopts (R360). -/
def State.beginFork (s : State) (x : Manifest) : State :=
  if s.fed.fork.isSome ∨ x.round ≤ s.obj Obj.HEAD_ROUND then s
  else
    let own := sideOf (forkSideRecs x.payload) s.selfId
    let s1 := { s.setObj Obj.FED_STATE 4 with fed := { s.fed with fork := some x, sides := if s.fed.sideRecs = forkSideRecs x.payload then s.fed.sides else [], floors := [] } }
    if x.adopts = false then s1.askFork x
    else if own = some x.kept then s1
    else
      let s2 := if bit (s1.obj Obj.FED_FLAGS) 2 && !s1.snapping then s1.snapBegin 2 else s1
      let s3 := ((s2.setObj Obj.FED_STATE 5).inc32 Obj.ADOPTIONS).raiseN Ev.FXP_ADOPT (s.selfId + x.round * 2 ^ 32)
      ({ s3 with fed := { s3.fed with donor := none, fetched := [], reports := s3.fed.reports.filter (fun q => q.2.1 != 2) } }).joinFetch

/-- The speaker holds a fork close: it passes it on and begins. -/
def State.takeFork (s : State) (x : Manifest) : State :=
  let c := s.digestOf x.prev
  if s.fed.fork.isSome ∨ x.round ≤ s.obj Obj.HEAD_ROUND ∨ (c.isSome = true ∧ c ≠ some x.parent) ∨
      ¬ (s.obj Obj.FED_STATE = 3 ∨ s.obj Obj.FED_STATE = 4) then s
  else (s.mailAll (.fedManifest x.round x.ty x.payload)).beginFork x

/-- The cores stand at STEP or do not run, and no commit or re-shard is in progress. -/
def State.quiet (s : State) : Bool :=
  !s.committing && !s.moving && s.upd.shadows.isEmpty && (!s.jobRuns || s.jobCores.all (fun c => (s.core c).job.wait == .step)) &&
    !s.fedRecs.any s.heldBySnap

/-- Fetches of a fork close are complete here. -/
def State.forkReady (s : State) (x : Manifest) : Bool :=
  let recs := forkSideRecs x.payload
  match sideOf recs s.selfId with
  | none => x.adopts && s.wholeHere
  | some k =>
    if x.adopts && k != x.kept then s.wholeHere
    else s.obj Obj.HEAD_ROUND == sideHead (nth [] recs k) &&
      (x.adopts || (s.anchorsHere && (!s.wantsFloor x || s.fedRecs.all (fun i => s.fed.floors.contains i))))

/-- acc and W over the sides (R359). -/
def forkSum (floor : List Nat) : List (Nat × List Nat) → List Nat × Nat → List Nat × Nat
  | [], x => x
  | (w, a) :: es, (acc, W) =>
    forkSum floor es ((acc.zip (a.zip floor)).map (fun q =>
      (fadd b32 .rne q.1 (fmul b32 .rne w (fsub b32 .rne q.2.1 q.2.2).1).1).1), (fadd b32 .rne W w).1)

/-- The fork merge of one block; its part of the stream's record. -/
def State.forkBlock (s : State) (x : Manifest) (i : Nat) : List Byte × State :=
  let recs := forkSideRecs x.payload
  let before := s.kind2Parts i
  let f := s.selElems 4 (s.floorAt i) 4096
  let es := (List.range recs.length).map (fun k => ((fmInt (sideRounds (nth [] recs k))).1, (s.sideAnchor k i).getD []))
  let sum := forkSum f.1 es (block0, 0)
  let a := (f.1.zip sum.1).map (fun q => (fadd b32 .rne q.1 (fdiv b32 .rne q.2 sum.2).1).1)
  let t := (f.2.putAnchor i a block0 false).setAcked i x.floor
  (t.kind2Record i before, t)

/-- The fork close becomes the head, and what was open before it is discarded (R361). -/
def State.forkHead (s : State) (x : Manifest) : State :=
  let own := sideOf (forkSideRecs x.payload) s.selfId
  let keepRounds := if x.adopts && own != some x.kept then s.fed.chain.filter (fun y => decide (y.round ≤ beAt x.payload 20 4)) else s.fed.chain
  let s1 := ((((((s.setObj Obj.HEAD_ROUND x.round).setDom Obj.HEAD_DIGEST x.digest).setObj Obj.FLOOR_ROUND x.floor).setObj Obj.LIVE_MASK
    (setBit x.live s.selfId)).setObj Obj.DEPARTED_MASK (s.obj Obj.DEPARTED_MASK &&& (2 ^ 64 - 1 - x.live))).setDom Obj.LAST_MANIFEST x.payload).inc64 Obj.ROUNDS_MERGED
  { s1.setObj Obj.FED_STATE 3 with fed := { s1.fed with
      chain := x :: keepRounds
      queue := []
      own := none
      members := s1.fed.members.map (fun (q : Nat × Member) => (q.1, { q.2 with contrib := none }))
      pool := s1.fed.pool.filter (fun q => decide (x.round < q.origin))
      closing := false
      others := []
      fork := none
      sides := []
      sideRecs := []
      norms := []
      floors := []
      fetched := []
      donor := none } }

/-- Apply a fork close whose fetches are complete. -/
def State.applyFork (s : State) (x : Manifest) : State :=
  if s.forkReady x && s.quiet then
    let t := if x.adopts then s
      else
        let r := s.fedRecs.foldl (fun (a : List Byte × State) i => let q := a.2.forkBlock x i; (a.1 ++ q.1, q.2)) ([], s)
        r.2.streamRecord 2 2 0 r.1
    (((t.forkHead x).report_ 1 x.round).resume).tellState
  else if x.adopts then s.joinFetch
  else s

/-- A STATE_FRAG transfer in FED_STATE 4: anchors of other sides, and floors (R358, R359). -/
def State.takeForkRec (s : State) (m : Nat) (b : List Byte) : State :=
  match s.recOfBlock (beAt b 0 5), sideOf s.sidesNow m with
  | some i, some k =>
    let kinds := beAt b 5 1 % 8
    if kinds = 1 then
      let t := s.selWrite (s.scratchAt i) 4 (stateArr b 0)
      { t with fed := { t.fed with sides := t.fed.sides.filter (fun q => !(q.1 == k && q.2.1 == i)) ++ [(k, i, stateArr b 0)] } }
    else if kinds = 4 then
      (match s.fed.fork with
      | some x =>
        if beAt b 12 4 = x.floor then
          (let t := s.selWrite (s.floorAt i) 4 (stateArr b 0)
           { t with fed := { t.fed with floors := insNat i t.fed.floors } })
        else s
      | none => s)
    else s
  | _, _ => s

/-- A STATE_FRAG transfer arrives whole (R339, R359). -/
def State.onStateFrag (s : State) (m : Nat) (b : List Byte) : State :=
  if s.obj Obj.FED_STATE = 2 ∨ s.obj Obj.FED_STATE = 5 then s.takeState b
  else if s.obj Obj.FED_STATE = 4 then ((stateRecs b.length b).foldl (fun s r => s.takeForkRec m r) s).measureCheck
  else s

/-! ### FORK_DECISION (R358) -/

/-- CHAIN_REQs for what is not known yet of the other sides' chains (DEDUCED, log 58). -/
def State.askOthers (s : State) : State :=
  (s.foreigners.filter (fun m => !s.chainKnown m)).foldl (fun s m =>
    match (s.member m).head, (s.othersOf m).reverse.head? with
    | some h, some x => if h.1 ≤ ((s.othersOf m).headD x).round then s.askChain m x.prev else s.askChain m h.1
    | some h, none => s.askChain m h.1
    | none, _ => s) s

/-- The fork coordinator gathers, measures, and issues FORK_CLOSE; on takeover another live member does. -/
def State.forkDecision (s : State) (takeover : Bool) : State :=
  if s.isAnchor = false ∨ s.obj Obj.FED_STATE ≠ 4 ∨ s.fed.fork.isSome = true then s
  else
    match s.forkSides with
    | none => s.askOthers
    | some (c, ds) =>
      let n := 1 + (ds.map (fun d => d.head c)).foldl max 0
      let mine := coordIn (membersMask (ds.flatMap Side.members)) n == some s.selfId
      let recs := ds.map (s.sideRec c)
      if !mine && !takeover then s
      else if s.fed.sideRecs ≠ recs then
        (s.mailAll (.fedSides (keptOf recs) ((sideOf recs s.selfId).getD 0) recs)).measure recs
      else if (s.membersOf s.sliceDef).all (fun k => s.fed.norms.any (fun q => q.1 == k)) then
        let x := mkManifest n 0x23 (s.forkPayload c ds)
        let s1 := s.liveOthers.foldl (fun s m => s.sendManifest x (if takeover then 4 else 0) m) s
        (if takeover && !mine then (s1.inc32 Obj.TAKEOVERS).raiseN Ev.COORD_TAKEOVER (s.selfId + n * 2 ^ 32) else s1).takeFork x
      else s.askAnchors.measureCheck

end Sys2Proof.Machine
end

