-- ==== Sys2Proof/Machine/Rounds.lean ====
section
/-! DEFINITION. The federation's commands, messages and moments (13): joining, heartbeats, contributions, closing and merging
rounds, forks, state transfer; what devices of one member mail each other; APPLY on 0x4000, 0x4100 and 0x4200. -/

namespace Sys2Proof.Machine

/-! ### FOUND, JOIN and LEAVE (R337, R338) -/

/-- FOUND and JOIN are accepted here and now. -/
def State.mayBegin (s : State) : Bool :=
  decide (s.obj Obj.FED_STATE = 0) && (s.jobState == JOB_LOADED || s.jobState == JOB_RUNNING || s.jobState == JOB_STOPPED)

/-- COMMAND 1 (DEDUCED, log 57). -/
def cmdFound (s : State) : Ans :=
  if !s.mayBegin then s.no St.WRONG_STATE 0
  else if !s.exchOk then s.no St.INCONSISTENT 7
  else
    let t := s.foundHere
    let u := { (t.setDom Obj.HEAD_DIGEST (t.draw 16)).spend.setObj Obj.LIVE_MASK (2 ^ t.selfId) with fxp := { t.fxp with incarn := t.newIncarn } }
    (if u.isAnchor then u.tellState.mailAll (.fedH (u.obj Obj.H_NOW)) else u.mailTo u.anchorChip (.fedOwn (mapBytes u.ownMap))).ok

/-- Federation block IDs of the member, ascending. -/
def State.memberBlocks (s : State) : List Nat :=
  ascending (s.fullMap.flatMap (fun r => rangeFrom r.first r.count))
/-- BLOCKSET. -/
def State.blockSet (s : State) : List Byte := (digest64 (s.memberBlocks.flatMap (beBytes 5))).take 16

/-- JOIN payload (Table 13.5). -/
def State.joinPayload (s : State) : List Byte :=
  s.blockSet ++ beBytes 4 s.memberBlocks.length ++ beBytes 4 (s.obj Obj.BASE_WEIGHT) ++ beBytes 2 (s.obj Obj.K_LIMIT) ++
    beBytes 2 (s.obj Obj.UDP_PORT) ++ beBytes 16 s.ownAddr ++ zeros 20

/-- Endpoints of SEEDS that are not zero (DEDUCED, log 20). -/
def State.seeds (s : State) : List Peer :=
  ((chunksOf 20 8 (s.dom Obj.SEEDS)).filter (fun b => !allZero b)).map (fun b => ⟨0xFF, 0xFFFF, BitVec.ofNat 128 (beAt b 0 16), leAt b 16 2, none⟩)

/-- The joining speaker sends JOIN to the seeds with a fresh incarnation. -/
def State.sendJoin (s : State) : State :=
  let t := { s with fxp := { s.fxp with incarn := s.newIncarn } }
  t.seeds.foldl (fun s p => s.fxpSingle p 0x01 0 0 s.joinPayload) t

/-- COMMAND 2. -/
def cmdFedJoin (s : State) : Ans :=
  if !s.mayBegin then s.no St.WRONG_STATE 0
  else if !s.exchOk then s.no St.INCONSISTENT 7
  else
    let t := { (s.setObj Obj.FED_STATE 1).setObj Obj.JOIN_REASON 0 with fed := { FedSt.reset with announced := s.ownMap } }
    (if t.isAnchor then t.sendJoin.tellState else t.mailTo t.anchorChip (.fedOwn (mapBytes t.ownMap))).ok

/-- COMMAND 3 (DEDUCED, log 57). -/
def cmdFedLeave (s : State) : Ans := if s.obj Obj.FED_STATE = 0 then s.no St.WRONG_STATE 0 else s.fedEnd.ok

/-- JOIN is refused, or goes unanswered: back to FED_STATE 0 (R337). -/
def State.joinRefused (s : State) (reason : Nat) : State :=
  if s.obj Obj.FED_STATE = 1 then
    ((s.fedEndHere.setObj Obj.JOIN_REASON reason).raiseN Ev.FXP_REFUSED s.selfId).tellState
  else s

/-- Reason to refuse a JOIN (R338). -/
def State.refuseReason (s : State) (h : FxpHdr) (b : List Byte) : Option Nat :=
  let m := h.srcMember
  if m = s.selfId ∨ (s.isLiveMember m = true ∧ Sparse.get (fun _ => 0) s.fxp.incarns m ≠ h.incarn + 1) then some 1
  else if b.take 16 ≠ s.blockSet ∨ beAt b 16 4 ≠ s.memberBlocks.length then some 2
  else if beAt b 24 2 ≠ s.obj Obj.K_LIMIT then some 3
  else if s.obj Obj.MAX_MEMBERS ≤ ((s.selfId :: s.knownMembers).filter (· != m)).length then some 4
  else none

/-- A live speaker's record in JOIN_ACCEPT: member, reserved, port, address. -/
def acceptRec (m : Nat) (port addr : Nat) : List Byte := beBytes 1 m ++ zeros 1 ++ beBytes 2 port ++ beBytes 16 addr
def State.acceptPayload (s : State) : List Byte :=
  beBytes 4 s.memberHead ++ s.memberDigest ++ beBytes 4 (s.obj Obj.FLOOR_ROUND) ++ beBytes 8 (s.obj Obj.LIVE_MASK) ++
    beBytes 8 (s.obj Obj.DEPARTED_MASK) ++ acceptRec s.selfId (s.obj Obj.UDP_PORT) s.ownAddr ++
    s.liveOthers.flatMap (fun m => acceptRec m (s.speaker m).port (s.speaker m).addr.toNat)

def State.setIncarn (s : State) (m incarn : Nat) : State :=
  { s with fxp := { s.fxp with incarns := Sparse.put s.fxp.incarns m (incarn + 1) } }

/-- JOIN reaches a live speaker (R338). The one byte of JOIN_REFUSE is the reason (DESIGN CHOICE, log 30; DEDUCED, log 57). -/
def State.onJoin (s : State) (h : FxpHdr) (b : List Byte) : State :=
  if s.speaks && decide (h.srcMember < 64) then
    let p : Peer := ⟨h.srcMember, h.srcChip, BitVec.ofNat 128 (beAt b 28 16), beAt b 26 2, none⟩
    match s.refuseReason h b with
    | some r => s.fxpSingle p 0x03 0 0 (beBytes 1 r ++ zeros 3)
    | none =>
      let t := s.setIncarn h.srcMember h.incarn
      let u := t.setMember h.srcMember { Member.unknown with peer := p, weight := beAt b 20 4 }
      ((({ u with fed := { u.fed with joins := insNat h.srcMember u.fed.joins } }).fxpSend p 0x02 0 u.memberHead u.acceptPayload)).2
  else s

/-- Records of live speakers in JOIN_ACCEPT. -/
def acceptRecs (b : List Byte) : List (Nat × Nat × BitVec 128) :=
  (chunksOf 20 ((b.length - 40) / 20) (b.drop 40)).map (fun r => (beAt r 0 1, beAt r 2 2, BitVec.ofNat 128 (beAt r 4 16)))

/-- A member's base weight that no JOIN has shown here is a free value (DEDUCED, log 57). -/
def State.meetMember (s : State) (p : Peer) : State :=
  let t := s.setMember p.member { Member.unknown with peer := p, weight := s.free % 2 ^ 32 }
  t.spend

/-- JOIN_ACCEPT moves the member to FED_STATE 2 (R337 to R339). -/
def State.onJoinAccept (s : State) (h : FxpHdr) (b : List Byte) : State :=
  if s.isAnchor && decide (s.obj Obj.FED_STATE = 1) then
    let s1 := ((((s.setObj Obj.FED_STATE 2).setObj Obj.HEAD_ROUND (beAt b 0 4)).setDom Obj.HEAD_DIGEST (slice b 4 16)).setObj Obj.FLOOR_ROUND
      (beAt b 20 4)).setObj Obj.LIVE_MASK (beAt b 24 8)
    let s2 := (s1.setObj Obj.DEPARTED_MASK (beAt b 32 8)).setIncarn h.srcMember h.incarn
    let s3 := ((acceptRecs b).filter (fun q => decide (q.1 < 64) && q.1 != s.selfId)).foldl (fun (s : State) (q : Nat × Nat × BitVec 128) =>
      s.meetMember ⟨q.1, if q.1 = h.srcMember then h.srcChip else 0xFFFF, q.2.2, q.2.1, none⟩) s2
    (s3.tellState).liveOthers.foldl State.sendMap s3.tellState
  else s

/-! ### Owner maps (R327) -/

/-- A message from a member's speaker shows its chip. -/
def State.meet (s : State) (h : FxpHdr) : State :=
  let x := s.member h.srcMember
  if x.peer.addr ≠ 0 ∧ x.peer.chip = 0xFFFF ∧ h.srcChip ≠ 0xFFFF then
    let new := { x.peer with member := h.srcMember, chip := h.srcChip }
    (s.setMember h.srcMember { x with peer := new }).learn { x.peer with member := 0xFF } new
  else s

/-- An owner map reaches the speaker: kept, passed to the devices, and answered when it is the first one from a joining
member. A member whose JOIN another speaker accepted is met here (R338). -/
def State.onOwnerMap (s : State) (p : Peer) (h : FxpHdr) (b : List Byte) : State :=
  if s.isAnchor && decide (2 ≤ s.obj Obj.FED_STATE) && decide (h.srcMember < 64) && h.srcMember != s.selfId then
    let s1 := if (s.member h.srcMember).peer.addr = 0 ∨ bit (s.obj Obj.DEPARTED_MASK) h.srcMember = true then
        (let t := s.meetMember p
         { t with fed := { t.fed with joins := insNat h.srcMember t.fed.joins } })
      else s.meet h
    let s2 := if Sparse.get (fun _ => 0) s1.fxp.incarns h.srcMember = 0 then s1.setIncarn h.srcMember h.incarn else s1
    let x := s2.member h.srcMember
    let s3 := (s2.setMember h.srcMember { x with map := mapOf b }).mailAll (.fedMap h.srcMember h.incarn x.peer.chip x.peer.port x.peer.addr b)
    let s4 := if x.map.isEmpty && decide (s.obj Obj.FED_STATE ≠ 2) then s3.sendMap h.srcMember else s3
    s4.joinFetch
  else s

/-! ### HEARTBEAT (R356) -/

def State.heartbeatPayload (s : State) : List Byte :=
  beBytes 4 s.memberHead ++ s.memberDigest ++ beBytes 4 (s.obj Obj.FLOOR_ROUND) ++ beBytes 8 (s.obj Obj.LIVE_MASK) ++
    beBytes 1 (s.obj Obj.FED_STATE) ++ zeros 3

/-- HEARTBEAT_TIMER. -/
def State.sendHeartbeats (s : State) : State :=
  if s.isAnchor && decide (2 ≤ s.obj Obj.FED_STATE) then
    s.knownMembers.foldl (fun s m => s.oneTo m 0x05 s.memberHead s.heartbeatPayload) s
  else s

/-- Manifests that this member issued and that a speaker's heartbeat shows it lacks go out again (R351) (DEDUCED, log 58). -/
def State.resendCloses (s : State) (m head : Nat) : State :=
  (s.fed.chain.reverse.filter (fun x => decide (head < x.round) && x.issuer == s.selfId)).foldl (fun s x => s.sendManifest x 0 m) s

/-- A heartbeat shows a head that this chain contradicts (R357). -/
def State.contradicts (s : State) (round : Nat) (digest : List Byte) : Bool :=
  match s.digestOf round with
  | some d => decide (round ≤ s.topRound) && d != digest
  | none => false

def State.onHeartbeat (s : State) (h : FxpHdr) (b : List Byte) : State :=
  let m := h.srcMember
  if s.isAnchor && decide (2 ≤ s.obj Obj.FED_STATE) && (s.knownMembers.contains m) then
    let s1 := s.meet h
    let head := beAt b 0 4
    let s2 := s1.setMember m { s1.member m with head := some (head, slice b 4 16, beAt b 20 4, beAt b 32 1) }
    let s3 := if s2.isLiveMember m || s2.fed.joins.contains m then s2
      else (s2.setObj Obj.LIVE_MASK (setBit (s2.obj Obj.LIVE_MASK) m)).tellState
    let s4 := s3.resendCloses m head
    let s5 := if s4.contradicts head (slice b 4 16) then s4.enterFork m
      else if s4.topRound < head then s4.askChain m (s4.topRound + 1) else s4
    s5.tryClose
  else s

/-! ### Contributions (R341, R346, R347) -/

/-- Round step 1: the contribution is formed and sent; in FED_STATE 4 it stays unsent (R357). -/
def State.contribute (s : State) : State :=
  let f := s.obj Obj.FED_STATE
  if s.jobRuns = true ∧ (f = 3 ∨ f = 4) ∧ s.fed.inRound = false ∧ s.fed.mark + s.obj Obj.H_NOW ≤ s.obj Obj.COMMITTED ∧
      s.committing = false ∧ s.upd.shadows = [] then
    let s0 := s.flushAccepted
    let o := s0.obj Obj.HEAD_ROUND + 1
    let s1 := s0.announceMap
    let r := State.formAll o s1.fedRecs s1
    let s2 := { r.2 with fed := { r.2.fed with own := some o, inRound := true, stepped := r.2.now } }
    if f = 3 then (s2.sendDeltas o r.1).contribCheck else s2
  else s

/-- A DELTA fragment arrives (R331, R365): pool slots are reserved on the first; without room the SACK says BUSY. -/
def State.onDelta (s : State) (p : Peer) (h : FxpHdr) (raw b : List Byte) : State :=
  if 2 ≤ s.obj Obj.FED_STATE then
    let ready := match s.rxOf h.srcMember h.srcChip h.xfer with
      | some _ => some s
      | none => s.reserve h.srcMember h.round (s.sharedRecs h.srcMember h.srcChip)
    match ready with
    | none => s.fxpSingle p 0x12 0 h.round
        (RxXfer.sack ⟨p, h.srcMember, h.srcChip, h.xfer, h.ty, h.round, h.flags, h.frags, [], [], [], false, false⟩ true)
    | some t =>
      match t.rxData p h raw b with
      | (some bs, u) => u.takeDelta h.srcMember h.round bs
      | (none, u) => u
  else s

/-- DELTA_REQ (R355): the keep ring's records of the blocks, or DELTA_GONE. -/
def State.onDeltaReq (s : State) (p : Peer) (h : FxpHdr) (b : List Byte) : State :=
  let is := s.recsInRun (beAt b 0 5) (beAt b 8 4)
  if 2 ≤ s.obj Obj.FED_STATE then
    if is ≠ [] ∧ is.all (fun i => s.fed.keeps.any (fun q => q.origin == h.round && q.idx == i)) then
      let r := is.foldl (fun (x : List Byte × State) i =>
        match x.2.recordFor x.2.selfId h.round i with
        | some q => (x.1 ++ q.1, q.2)
        | none => x) ([], s)
      ((r.2.fxpSend p 0x10 0 h.round r.1).2).bump Obj.BYTES_SENT r.1.length 64
    else s.fxpSingle p 0x14 0 h.round b
  else s

/-- A CONTRIB_DONE reaches a speaker. -/
def State.onContribDone (s : State) (h : FxpHdr) : State :=
  if s.isAnchor && decide (2 ≤ s.obj Obj.FED_STATE) && s.knownMembers.contains h.srcMember then s.noteContrib h.srcMember h.round else s

/-- ROUND_DEADLINE has passed since the first CONTRIB_DONE of the round (R348). -/
def State.deadline (s : State) : State := if s.speaks && s.coordinates && s.opened then s.issueClose false else s

/-- k × COORD_TIMEOUT has passed since the close condition held here, or since the fork was found (R350, R358). -/
def State.takeover (s : State) : State :=
  if s.obj Obj.FED_STATE = 4 then s.forkDecision true
  else if s.speaks && s.isLiveMember s.selfId && !s.coordinates && (s.opened || s.allContrib) then s.issueClose true
  else s

/-- ROUND_CLOSE or FORK_CLOSE of another member. -/
def State.onClose (s : State) (m round ty : Nat) (b : List Byte) : State :=
  if s.isAnchor && decide (2 ≤ s.obj Obj.FED_STATE) then
    let x := mkManifest round ty b
    if ty = 0x21 then s.takeManifest m x
    else
      (match s.fed.chain.find? (fun y => y.round == round) with
      | some y => if y.digest = x.digest then s else (s.enterFork m).noteOther m x
      | none => s.takeFork x)
  else s

/-- CHAIN_REQ: the manifest asked for, from this chain (R351). -/
def State.onChainReq (s : State) (m round : Nat) : State :=
  if s.isAnchor && s.knownMembers.contains m then
    (match s.fed.chain.find? (fun x => x.round == round) with
    | some x => s.sendManifest x 0 m
    | none => s)
  else s

/-! ### MANIFEST_MERGE (R346, R352) -/

/-- A round's manifest may be merged now: outside inner steps, while state that was fetched is brought up to date, or up to the
member's side of a fork. -/
def State.mergeOk (s : State) (x : Manifest) : Bool :=
  s.mayMerge || ((!s.committing && !s.moving) &&
    ((s.wholeHere && (s.obj Obj.FED_STATE == 2 || s.obj Obj.FED_STATE == 5)) ||
      (match s.fed.fork with
      | some f => (match sideOf (forkSideRecs f.payload) s.selfId with
        | some k => s.obj Obj.FED_STATE == 4 && decide (x.round ≤ sideHead (nth [] (forkSideRecs f.payload) k))
        | none => false)
      | none => false)))

/-- Merge the next queued manifest. -/
def State.mergeNext (s : State) : State :=
  match s.fed.queue.find? (fun x => x.round == s.obj Obj.HEAD_ROUND + 1) with
  | none => s
  | some x =>
    if s.mergeOk x then
      let ls := s.lacking x
      if ls ≠ [] then s.askDeltas ls
      else if x.count ≠ 0 && s.fedRecs.any s.heldBySnap then s.inc32 Obj.SNAP_HOLDS
      else
        let t := (((s.mergeClose x).trimChain).report_ 1 x.round).resume
        t.liveCheck.tryClose
    else s

/-- The device's next work for the federation: a fork close whose fetches are complete, a state fetch, or a manifest. -/
def State.mergeStep (s : State) : State :=
  match s.fed.fork with
  | some x => if s.forkReady x then s.applyFork x else if s.obj Obj.FED_STATE = 5 then s.joinFetch else s.mergeNext
  | none =>
    if (s.obj Obj.FED_STATE = 2 ∨ s.obj Obj.FED_STATE = 5) ∧ s.fed.donor = none then s.joinFetch else s.mergeNext.liveCheck

/-! ### Mail within a member (R326) -/

/-- The speaker's state reaches a device. -/
def State.onFedState (s : State) (state incarn head floor : Nat) (digest : List Byte) (live : Nat) : State :=
  let own := s.obj Obj.FED_STATE
  let gone := s.liveOthers.filter (fun m => !bit live m)
  let s1 := { s.setObj Obj.LIVE_MASK live with fxp := { s.fxp with incarn := incarn } }
  let s2 := gone.foldl State.dropMemberTx s1
  let head' := fun (s : State) => ((s.setObj Obj.HEAD_ROUND head).setDom Obj.HEAD_DIGEST digest).setObj Obj.FLOOR_ROUND floor
  let tellMap := fun (s : State) => s.mailTo s.anchorChip (.fedOwn (mapBytes s.ownMap))
  if state = 0 then (if own = 0 then s else s.fedEndHere)
  else if own = 0 ∧ state = 3 then
    (let t := s2.foundHere
     tellMap (((t.setDom Obj.HEAD_DIGEST digest).setObj Obj.LIVE_MASK live)))
  else if own = 0 then tellMap { head' (s2.setObj Obj.FED_STATE state) with fed := { FedSt.reset with announced := s2.ownMap } }
  else if own = 1 ∧ state = 2 then (head' (s2.setObj Obj.FED_STATE 2)).joinFetch
  else if (own = 2 ∨ own = 5) ∧ state = 3 ∧ s2.fed.fork = none then s2.goLiveHere
  else if own = 3 ∧ state = 5 then s2.adoptHere
  else if own = 3 ∧ state = 4 ∧ ¬ ((s2.fed.chain.head?.map Manifest.ty) = some 0x23 ∧ head < s2.obj Obj.HEAD_ROUND) then s2.setObj Obj.FED_STATE 4
  else s2.contribCheck

/-- A device's report reaches the speaker. -/
def State.onFedReport (s : State) (chip kind round : Nat) : State :=
  if s.isAnchor then
    if kind = 3 then s.adopt else ((s.addReport chip kind round).speakerDone).liveCheck.tryClose
  else s

/-- A device's own part of the owner map reaches the speaker; a change is announced to every live speaker (R327). -/
def State.onFedOwn (s : State) (chip : Nat) (b : List Byte) : State :=
  if s.isAnchor then
    let x := s.member ownKey
    let rest := x.map.filter (fun r => r.chip != chip)
    let t := s.setMember ownKey { x with map := rest ++ mapOf b }
    if t.obj Obj.FED_STATE = 3 ∧ x.map ≠ (t.member ownKey).map then t.liveOthers.foldl State.sendMap t else t
  else s

/-- Mail of the federation from a device of the same member. -/
def State.onFedMail (s : State) (chip : Nat) (m : Mail) : State :=
  match m with
  | .fedManifest round ty payload =>
    let x := mkManifest round ty payload
    if s.obj Obj.FED_STATE < 2 then s
    else if ty = 0x23 then s.beginFork x
    else if s.obj Obj.HEAD_ROUND < round ∧ s.fed.queue.any (fun y => y.round == round) = false then { s with fed := { s.fed with queue := s.fed.queue ++ [x] } }
    else s
  | .fedState state incarn head floor digest live port addr =>
    let t := s.onFedState state incarn head floor digest live
    if t.obj Obj.FED_STATE = 0 then t else t.setMember ownKey { t.member ownKey with peer := ⟨t.selfId, chip, addr, port, none⟩ }
  | .fedMap m incarn mc port addr map =>
    (((s.setIncarn m incarn).setMember m { s.member m with map := mapOf map, peer := ⟨m, mc, addr, port, none⟩ })).joinFetch
  | .fedOwn map => s.onFedOwn chip map
  | .fedReport kind round => s.onFedReport chip kind round
  | .fedH h => s.setObj Obj.H_NOW h
  | .fedSides _ _ sides => s.measure sides
  | .fedNorm ns => { s with fed := { s.fed with norms := s.fed.norms.filter (fun q => q.1 != chip) ++ ns.map (fun n => (chip, n)) } }
  | _ => s

/-! ### Transfers -/

/-- A fragmented message of the federation has arrived whole. -/
def State.gotTransfer (s : State) (p : Peer) (h : FxpHdr) (ty : Nat) (b : List Byte) : State :=
  if ty = 0x10 then s.takeDelta h.srcMember h.round b
  else if ty = 0x02 then s.onJoinAccept h b
  else if ty = 0x04 then s.onOwnerMap p h b
  else if ty = 0x21 ∨ ty = 0x23 then s.onClose h.srcMember h.round ty b
  else if ty = 0x31 then s.onStateFrag h.srcMember b
  else s

/-- A data fragment of a fragmented message of one type. -/
def State.onFragment (s : State) (d : Dgram) (ty : Nat) : State :=
  s.onDatagram d ty (fun h b t =>
    match t.rxData (stationOf d h) h (d.bytes.drop 40) b with
    | (some bs, u) => u.gotTransfer (stationOf d h) h ty bs
    | (none, u) => u)

/-- A peer that 64 resends have not reached is silent (R335, R356) (DEDUCED, log 60). -/
def State.silentPeer (s : State) (member : Nat) : State := (if member < 64 then s.loseMember member else s).contribCheck

/-- A SACK arrives (R334). -/
def State.takeSack (s : State) (d : Dgram) (h : FxpHdr) (b : List Byte) : State :=
  let s1 := if h.srcChip = 0xFFFF then s else s.meet h
  let r := s1.onSack (stationOf d h).key b
  if r.1.silent then r.2.silentPeer h.srcMember
  else if r.1.ended.isSome then r.2.contribCheck
  else r.2

/-- RTO has passed since a fragment was last sent (R335). -/
def State.rto (s : State) (p : Peer) (num frag : Nat) : State :=
  match s.txOf p.key num with
  | some x =>
    if x.out.contains (2 * frag) then
      (let r := s.resendFrag x frag
       if r.1 then r.2.silentPeer p.member else r.2)
    else s
  | none => s

/-- 200 µs have passed since a fragment arrived that no SACK covers (R333). -/
def State.sackTimer (s : State) (member chip num : Nat) : State :=
  match s.rxOf member chip num with
  | some x => if x.fresh then s.sendSack x.peer x false else s
  | none => s

/-! ### APPLY (R367 to R369) -/

/-- Value of 0x4000 in force or accepted for the next round step 1. -/
def State.accepted (s : State) (k : Nat) : Nat := Sparse.get (fun k => s.obj k) s.fed.accepted k
def State.candF (s : State) (slot k : Nat) : Nat :=
  match (s.session slot).stagedAt k with
  | some b => ofBe b
  | none => s.accepted k

def fedFixed : List Nat := [Obj.FED_ID, Obj.MEMBER_ID, Obj.UDP_PORT, Obj.BASE_WEIGHT, Obj.MAX_MEMBERS, Obj.KEEP, Obj.POOL_SLOTS, Obj.K_LIMIT,
  Obj.FRAG_PAYLOAD]
def fedTimers : List Nat := [Obj.HB_INTERVAL, Obj.MEMBER_TIMEOUT, Obj.ROUND_DEADLINE, Obj.COORD_TIMEOUT, Obj.FORK_HORIZON, Obj.DIV_BOUND,
  Obj.WINDOW, Obj.FED_FLAGS, Obj.LINK_SHARE, Obj.H_MIN, Obj.H_MAX]

def applyFederation (s : State) (slot : Nat) : Ans :=
  let fixedChange := fedFixed.any (fun k => s.cand slot k != s.obj k) || [Obj.SEEDS, Obj.EXCH_AREA].any (fun k => s.candB slot k != s.dom k)
  if s.candF slot Obj.H_MAX < s.candF slot Obj.H_MIN then s.no St.INCONSISTENT 0x15
  else if s.obj Obj.FED_STATE ≠ 0 ∧ fixedChange then s.no St.WRONG_STATE 0
  else if s.obj Obj.FED_STATE = 0 then ((s.take slot (fedFixed ++ fedTimers)).takeB slot [Obj.SEEDS, Obj.EXCH_AREA]).ok
  else ({ s with fed := { s.fed with accepted := fedTimers.foldl (fun m k => Sparse.put m k (s.candF slot k)) s.fed.accepted } }).ok

def applyCompression (s : State) (slot : Nat) : Ans :=
  if s.obj Obj.K_LIMIT < s.cand slot Obj.TOPK then s.no St.INCONSISTENT 2
  else (s.take slot [Obj.FORM, Obj.TOPK, Obj.EF_ENABLE]).ok

def applyOuterRule (s : State) (slot : Nat) : Ans := (s.take slot [Obj.ETA_O, Obj.MU_O, Obj.LAMBDA, Obj.S_MAX]).ok

/-! ### Commands -/

def execJoinResend (s : State) : Out := .next (if s.up && s.isAnchor && decide (s.obj Obj.FED_STATE = 1) then s.sendJoin else s)
def execJoinTimeout (s : State) : Out := .next (if s.up && s.isAnchor then s.joinRefused 5 else s)
def execJoin (d : Dgram) (s : State) : Out := .next (s.onDatagram d 0x01 (fun h b t => t.onJoin h b))
def execJoinAccept (d : Dgram) (s : State) : Out := .next (s.onFragment d 0x02)
/-- DESIGN CHOICE, log 30. -/
def execJoinRefuse (d : Dgram) (s : State) : Out :=
  .next (s.onDatagram d 0x03 (fun _ b t => if t.isAnchor then t.joinRefused (beAt b 0 1) else t))
def execOwnerMap (d : Dgram) (s : State) : Out := .next (s.onFragment d 0x04)
/-- DEDUCED, log 19. -/
def execHeartbeatTimer (s : State) : Out := .next (if s.up then s.sendHeartbeats else s)
def execHeartbeat (d : Dgram) (s : State) : Out := .next (s.onDatagram d 0x05 (fun h b t => t.onHeartbeat h b))
def execMemberTimeout (member : Fin 64) (s : State) : Out := .next (if s.up then s.loseMember member.val else s)
def execLeave (d : Dgram) (s : State) : Out :=
  .next (s.onDatagram d 0x06 (fun h _ t =>
    if t.isAnchor && t.knownMembers.contains h.srcMember then { t with fed := { t.fed with leaves := insNat h.srcMember t.fed.leaves } } else t))
def execContribution (s : State) : Out := .next s.contribute
def execDelta (d : Dgram) (s : State) : Out :=
  .next (s.onDatagram d 0x10 (fun h b t => t.onDelta (stationOf d h) h (d.bytes.drop 40) b))
def execParity (d : Dgram) (s : State) : Out :=
  .next (s.onDatagram d 0x11 (fun h b t =>
    match t.rxParity (stationOf d h) h b with
    | (some x, u) => u.gotTransfer (stationOf d h) h x.1.ty x.2
    | (none, u) => u))
def execSack (d : Dgram) (s : State) : Out := .next (s.onDatagram d 0x12 (fun h b t => t.takeSack d h b))
def execSackTimer (member : Byte) (chip : BitVec 16) (num : BitVec 32) (s : State) : Out :=
  .next (if s.up then s.sackTimer member.toNat chip.toNat num.toNat else s)
/-- DEDUCED, log 19. -/
def execRtoExpiry (member : Byte) (chip : BitVec 16) (peer : BitVec 128) (peerPort : BitVec 16) (num frag : BitVec 32) (s : State) : Out :=
  .next (if s.up then s.rto ⟨member.toNat, chip.toNat, peer, peerPort.toNat, none⟩ num.toNat frag.toNat else s)
def execDeltaReq (d : Dgram) (s : State) : Out := .next (s.onDatagram d 0x13 (fun h b t => t.onDeltaReq (stationOf d h) h b))
def execDeltaGone (d : Dgram) (s : State) : Out :=
  .next (s.onDatagram d 0x14 (fun _ _ t => if t.obj Obj.FED_STATE = 3 then t.adopt else t))
def execContribDone (d : Dgram) (s : State) : Out := .next (s.onDatagram d 0x20 (fun h _ t => t.onContribDone h))
def execRoundDeadline (s : State) : Out := .next (if s.up then s.deadline else s)
def execCoordTakeover (s : State) : Out := .next (if s.up then s.takeover else s)
def execRoundClose (d : Dgram) (s : State) : Out := .next (s.onFragment d 0x21)
def execManifestMerge (s : State) : Out := .next (if s.up then s.mergeStep else s)
def execChainReq (d : Dgram) (s : State) : Out := .next (s.onDatagram d 0x22 (fun h _ t => t.onChainReq h.srcMember h.round))
def execForkDecision (s : State) : Out := .next (if s.up then s.forkDecision false else s)
def execForkClose (d : Dgram) (s : State) : Out := .next (s.onFragment d 0x23)
def execStateReq (d : Dgram) (s : State) : Out := .next (s.onDatagram d 0x30 (fun h b t => t.onStateReq (stationOf d h) b))
def execStateFrag (d : Dgram) (s : State) : Out := .next (s.onFragment d 0x31)

end Sys2Proof.Machine
end

