-- ==== Sys2Proof/Machine/Job.lean ====
section
/-! DEFINITION. The commands of the job: LOAD, START, STOP, ABORT, UNLOAD, and the messages that carry them over the slice
(R149, R183 to R188, R235). -/

namespace Sys2Proof.Machine

/-! ### LOAD (R183 to R185, R235, R432, R461) -/

/-- A snapshot that runs, or is agreed, ends with the image (DEDUCED, log 60). -/
def State.dropSnap (s : State) : State :=
  { (if s.snapping then s.setObj Obj.SNAP_STATE 5 else s) with snap := SnapSt.reset }

/-- What LOAD and UNLOAD do to the image in force. -/
def State.removeImage (s : State) : State := (s.dropSnap.fedEnd.discardImage).setObj Obj.DEBUG_GRANT 0

/-- COMMAND LOAD. -/
def cmdLoad (s : State) : Ans :=
  let j := s.jobState
  if s.flash.lc ≠ 2 ∧ s.flash.lc ≠ 3 then s.no St.ACCESS_DENIED 0
  else if ¬ (j = JOB_EMPTY ∨ j = JOB_LOADED ∨ j = JOB_STOPPED ∨ j = JOB_REFUSED) then s.no St.WRONG_STATE 0
  else if s.obj Obj.DEGRADED = 1 then s.no St.WRONG_STATE 0
  else if s.sliceState ≠ SLICE_CREATED ∧ s.sliceState ≠ SLICE_OPEN then s.no St.WRONG_STATE 0
  else
    let t := s.removeImage.tenClear
    ({ t with ev := { t.ev with prio := [], targets := [] } }.setJob JOB_CHECKING).ok

/-- The image is in force: its stream begins with a KIND 4 record (R406). -/
def State.loaded (s : State) (img : List Byte) : State :=
  let s1 := ((s.placeImage img).setObj Obj.STREAM_OFFSET 0).setObj Obj.STREAM_DURABLE 0
  let s2 := { s1 with stream := StreamSt.reset, gauge := { s1.gauge with passed := false } }
  ((s2.streamRecord 4 0 0 (s2.dom Obj.DIGEST)).setJob JOB_LOADED).raiseN Ev.JOB_LOADED 0

/-- LOAD_CHECK_DONE: the checks of the received image end. -/
def execLoadCheckDone (s : State) : Out :=
  if s.jobState = JOB_CHECKING then
    let img := s.dom Obj.IMAGE
    let s1 := s.setDom Obj.DIGEST (imgDigest img)
    match s1.checkImage img with
    | none => .next (s1.loaded img)
    | some r => .next (((s1.setDom Obj.REFUSAL r.bytes).setJob JOB_REFUSED).raiseN Ev.JOB_REFUSED r.code)
  else .next s

/-! ### START (R186) -/

/-- A job context begins at ENTRY. -/
def Ctx.begin (y : Ctx) (r : Regs) (attempt : Nat) : Ctx :=
  { y.drop with pc := y.entry, regs := r, attempt := attempt, phase := 0, broken := false }

/-- A core at START: after an ABORT the job context has its registers of the last STEP, and the Filler starts afresh (DESIGN CHOICE, log 36). -/
def CoreSt.begin (x : CoreSt) (aborted : Bool) (attempt : Nat) : CoreSt :=
  { x with
    job := x.job.begin (if aborted then x.job.atStep else x.job.regs) attempt
    filler := if aborted then { x.filler.begin x.filler.atLoad attempt with ended := false } else x.filler.begin x.filler.regs attempt
    running := .job }

/-- The device enters RUNNING (DESIGN CHOICE, log 36). -/
def State.startRun (s : State) : State :=
  let a := s.obj Obj.ABORTED == 1
  let s1 := { s with
    cores := s.cores.map (fun (q : Nat × CoreSt) => (q.1, q.2.begin a s.attempt))
    poisonHere := false
    job := { s.job with starts := [], stopMark := false, stopAt := none }
    coll := { s.coll with rootDone := [] }
    upd := { s.upd with settled := s.obj Obj.ATTEMPTS }
    fed := { s.fed with resumed := s.now } }
  ((s1.setObj Obj.ABORTED 0).setJob JOB_RUNNING).tenStart

/-- The start is refused: the state before START, and refusal code 0x2C (DEDUCED, log 64). -/
def State.startRefuse (s : State) : State :=
  { ((s.setDom Obj.REFUSAL (hdrAt.no 0x2C 0 0).bytes).setJob s.job.prior) with job := { s.job with starts := [] } }

/-- Own answer to START_DIGESTs held: a difference refuses the start; every device equal begins it. A message older than
10 s belongs to a start that has been refused (DEDUCED, log 37). -/
def State.startCheck (s : State) : State :=
  if s.jobState = JOB_STARTING then
    let held := s.job.starts.filter (fun (q : Nat × List Byte × Nat × Nat) => decide (s.now < q.2.2.2 + 10000000000))
    let own := (s.dom Obj.DIGEST, s.obj Obj.COMMITTED)
    if held.any (fun q => decide ((q.2.1, q.2.2.1) ≠ own)) then s.startRefuse
    else if ((s.membersOf s.sliceDef).filter (· != s.chip)).all (fun c => held.any (fun q => q.1 == c)) then s.startRun
    else s
  else s

/-- COMMAND START. -/
def cmdStart (s : State) : Ans :=
  let j := s.jobState
  if ¬ (j = JOB_LOADED ∨ (j = JOB_STOPPED ∧ s.obj Obj.TRAPPED = 0)) then s.no St.WRONG_STATE 0
  else if s.isOpen = false then s.no St.WRONG_STATE 0
  else
    let s1 := { s.setJob JOB_STARTING with job := { s.job with prior := j } }
    (s1.mgmtAll s.sliceDef (.startDigest (s.dom Obj.DIGEST) (s.obj Obj.COMMITTED))).startCheck.ok

/-- START_DIGEST from a device of the slice (DEDUCED, log 37). -/
def execStartDigest (src : ChipId) (digest : List Byte) (committed : BitVec 64) (s : State) : Out :=
  if digest.length ≠ 64 then .fault .illFormed
  else
    let s1 := s.takeMgmt src.toNat 0x10
    if s.inSlice src.toNat then .next { s1 with job := { s1.job with
      starts := (s1.job.starts.filter (fun (q : Nat × List Byte × Nat × Nat) => q.1 != src.toNat)) ++
        [(src.toNat, digest, committed.toNat, s.now)] } }.startCheck
    else .next s1

/-- START_TIMEOUT: 10 s after START some device of the slice is not STARTING (DEDUCED, log 19). -/
def execStartTimeout (s : State) : Out := .next (if s.jobState = JOB_STARTING then s.startRefuse else s)

/-! ### STOP, ABORT, UNLOAD (R187, R188, R185) -/

/-- The next verdict that the norm-anchor device broadcasts carries the mark. -/
def State.markStop (s : State) : State := if s.isAnchor && s.jobRuns then { s with job := { s.job with stopMark := true } } else s

/-- DEDUCED, log 61 and log 65. -/
def State.stopJob (s : State) : State :=
  let s1 := s.setJob JOB_STOPPING
  if s.isAnchor then s1.markStop else s1.mgmt s.anchorChip 0 .stop

/-- COMMAND STOP. -/
def cmdStop (s : State) : Ans := if s.jobState = JOB_RUNNING then s.stopJob.ok else s.no St.WRONG_STATE 0

/-- STOP arrives at the norm-anchor device. -/
def execStopMessage (src : ChipId) (s : State) : Out :=
  let t := s.takeMgmt src.toNat 0x11
  .next (if s.inSlice src.toNat then t.markStop else t)

def State.abortJob (s : State) : State := (s.mgmtAll s.sliceDef .abort).doAbort

/-- COMMAND ABORT. -/
def cmdAbort (s : State) : Ans :=
  let j := s.jobState
  if j = JOB_STARTING ∨ j = JOB_RUNNING ∨ j = JOB_STOPPING then s.abortJob.ok else s.no St.WRONG_STATE 0

/-- ABORT arrives from a device of the slice. -/
def execAbortMessage (src : ChipId) (s : State) : Out :=
  let t := s.takeMgmt src.toNat 0x12
  .next (if s.inSlice src.toNat then t.doAbort else t)

def State.unloadJob (s : State) : State := s.removeImage.setJob JOB_EMPTY

/-- COMMAND UNLOAD. -/
def cmdUnload (s : State) : Ans :=
  let j := s.jobState
  if j = JOB_LOADED ∨ j = JOB_STOPPED ∨ j = JOB_REFUSED then s.unloadJob.ok else s.no St.WRONG_STATE 0

/-! ### The debug read of a vector buffer (R149) -/

/-- APPLY on 0xC020 (DEDUCED, log 31). -/
def applyVbRead (s : State) (slot : Nat) : Ans :=
  let c := s.cand slot
  if 12288 ≤ c Obj.VBR_CORE then s.no St.OUT_OF_RANGE 1
  else if 16384 < c Obj.VBR_FIRST + c Obj.VBR_COUNT then s.no St.OUT_OF_RANGE 4
  else
    let t := s.take slot [Obj.VBR_CORE, Obj.VBR_BUF, Obj.VBR_FIRST, Obj.VBR_COUNT]
    let x := t.core (c Obj.VBR_CORE)
    let regs := leBytes 4 x.job.regs.rctl.toNat ++ leBytes 4 x.filler.regs.rctl.toNat ++ leBytes 8 x.job.regs.rstat.toNat ++
      leBytes 8 x.filler.regs.rstat.toNat
    (((t.setDom Obj.VBR_DATA (t.mem.read (vbAddr (c Obj.VBR_CORE) (c Obj.VBR_BUF) (c Obj.VBR_FIRST)) (c Obj.VBR_COUNT))).setDom
      Obj.VBR_REGS regs).setObj Obj.VBR_STATUS (if x.job.stopped then 3 else 1)).ok

end Sys2Proof.Machine
end

