-- ==== Sys2Proof/Machine/Power.lean ====
section
/-! DEFINITION. The operating-point table, the row counters and the power loop (03: R47 to R56, R63), with the hold of a
hot junction (R477). -/

namespace Sys2Proof.Machine

/-! ### Guaranteed rates -/

/-- Fabric rates of Table 3.2 from 620 mV in steps of 20 mV, in units of 0.01 G cycles/s. -/
def opRates : List Nat := [105, 113, 120, 127, 134, 140, 146, 151, 157, 162]

/-- Guaranteed rate at 70 °C and a voltage in mV, in units of 1/2000 G cycles/s (R48). -/
def rate70 (mv : Nat) : Nat :=
  let x := min mv 800 - 620
  let i := x / 20
  opRates.getD i 162 * (20 - x % 20) + opRates.getD (i + 1) 162 * (x % 20)

/-- Derating factor of a junction temperature, as numerator and denominator (R48). -/
def derate (tj : Nat) : Nat × Nat :=
  match b32.dec tj with
  | .fin false m e =>
    let k := (-e).toNat
    let t := m * 2 ^ e.toNat
    if t ≤ 70 * 2 ^ k then (1, 1) else (2070 * 2 ^ k - t, 2000 * 2 ^ k)
  | _ => (1, 1)

/-- The guaranteed rate of R48 in binary32, rounded up. -/
def guaranteed (mv tj : Nat) : Nat :=
  let d := derate tj
  let q := quot (rate70 mv * d.1) (2000 * d.2) 30
  (encF b32 .rup false q.1 (-(q.2 : Int))).1

/-- What a row counter reports for a measured rate: at least the guaranteed one (R52) (DESIGN CHOICE, log 63). -/
def rowReport (mv tj measured : Nat) : Nat :=
  let g := guaranteed mv tj
  if f32IsNaN measured || decide (f32Key measured < f32Key g) then g else measured

/-- The smaller of two rates. -/
def minRate (a b : Nat) : Nat := if f32Key a ≤ f32Key b then a else b

/-- ROW_COUNTER_PERIOD: each panel's counter reports its averaged rate (R52); the operands are the measured rates (DEDUCED, log 26). -/
def execRowCounterPeriod (r0 r1 r2 r3 : Word32) (s : State) : Out :=
  if s.up then
    let f := fun (i : Nat) (r : Word32) => rowReport s.pwr.railMv (s.obj (Obj.PANEL_TJ + i)) r.toNat
    let a := f 0 r0
    let b := f 1 r1
    let c := f 2 r2
    let d := f 3 r3
    .next (((((s.setObj Obj.PANEL_RATE a).setObj (Obj.PANEL_RATE + 1) b).setObj (Obj.PANEL_RATE + 2) c).setObj
      (Obj.PANEL_RATE + 3) d).setObj Obj.FABRIC_RATE (minRate (minRate a b) (minRate c d)))
  else .next s

/-! ### The power loop -/

/-- P_avg: the mean of the samples held, truncated (R53). -/
def meanOf (xs : List Nat) : Nat := if xs = [] then 0 else xs.foldl (· + ·) 0 / xs.length

/-- The target after the table of R53: target, limits, cap, sample, P_avg. -/
def vTarget (t vmin vmax cap p avg : Nat) : Nat :=
  if 2400 < p then 620
  else if t < vmin then (if cap < p then t else min vmin (t + 5))
  else if 105 * cap < 100 * p then max vmin (t - 20)
  else if cap < p then max vmin (t - 10)
  else if 100 * avg ≤ 97 * cap then min vmax (t + 5)
  else t

/-- The bar hold at the start of a period (R55): sample, cap, and whether the target stands at or below VCORE_MIN. -/
def PwrSt.bar (w : PwrSt) (p cap : Nat) (low : Bool) : PwrSt :=
  if p ≤ cap then { w with hold := false, heldNow := false, heldMisses := 0, holdJob := false, armed := false }
  else if w.hold then
    let m := if w.heldNow then w.heldMisses + 1 else w.heldMisses
    { w with heldNow := !w.heldNow, heldMisses := m, holdJob := w.holdJob || (!w.heldNow && decide (2 ≤ m)) }
  else if w.armed then { w with hold := true, heldNow := true, heldMisses := 0, holdJob := false, armed := false }
  else { w with armed := low }

/-- Sensors of the period (R62, R473): the samples that DAP and I²C show. -/
def State.sense (s : State) (x : PowerSample) : State :=
  ((((((({ s with board := { s.board with iin := x.iin.toNat } }.setObj Obj.VIN x.vin.toNat).setObj
    Obj.PANEL_TJ x.tj0.toNat).setObj (Obj.PANEL_TJ + 1) x.tj1.toNat).setObj (Obj.PANEL_TJ + 2) x.tj2.toNat).setObj
    (Obj.PANEL_TJ + 3) x.tj3.toNat).setObj Obj.COLLAR_TJ x.collar.toNat).setObj Obj.TPLATE x.plate.toNat)

/-- Settings of 0x2003 that act from the period that begins (R479). -/
def State.latchBoard (s : State) : State :=
  { s with board := { s.board with
      eventEn := s.obj Obj.EVENT_EN == 1, eventLevel := s.obj Obj.EVENT_LEVEL, ppsOutEn := s.obj Obj.PPS_OUT_EN == 1 } }

/-- The decision of one period on a sample of `p` W (R53 to R56, R63, R477) (DESIGN CHOICE, log 63). -/
def State.powerStep (s : State) (p : Nat) : State :=
  let cap := s.obj Obj.PCAP
  let vmin := s.obj Obj.VCORE_MIN
  let vmax := s.obj Obj.VCORE_MAX
  let t0 := min (s.obj Obj.VCORE_NOW) vmax
  let avg := s.obj Obj.P_AVG
  let t1 := vTarget t0 vmin vmax cap p avg
  let t2 := if s.pwr.thermHold then min t1 vmin else t1
  let w := s.pwr.bar p cap (decide (t0 ≤ vmin))
  let trip := decide (2400 < p) || (s.pwr.trip && decide (cap < p))
  let s1 := { s with pwr := { w with trip := trip } }.setObj Obj.VCORE_NOW t2
  let s2 := if t1 < t0 then s1.inc32 Obj.CAP_PERIODS else s1
  let s3 := if w.heldNow then s2.inc32 Obj.HOLD_PERIODS else s2
  let s4 := s3.setObj Obj.CAP_STATE (if trip then 3 else if w.hold then 2
    else if cap < p ∨ (97 * cap < 100 * avg ∧ vmin ≤ t0) then 1 else 0)
  let s5 := if 2400 < p then (s4.inc32 Obj.PEAK_TRIPS).raiseN Ev.POWER_PEAK p else s4
  if w.hold != s.pwr.hold then s5.raiseN Ev.POWER_FLOOR p else s5

/-- POWER_LOOP_PERIOD: a 50 µs period begins (R53). During a Gauge run the loop leaves the rails alone (R457) (DEDUCED, log 26). -/
def execPowerLoopPeriod (x : PowerSample) (s : State) : Out :=
  if s.up then
    let p := min 3000 (x.mw.toNat / 1000)
    let l := (p :: s.pwr.samples).take 20
    let s1 := ((s.raise Ev.TICK (BitVec.ofNat 64 s.now)).latchBoard).sense x
    let s2 := (({ s1 with pwr := { s1.pwr with samples := l } }.setObj Obj.P_SAMPLE p).setObj Obj.P_AVG
      (meanOf l)).setObj Obj.P_PEAK (max (s1.obj Obj.P_PEAK) p)
    .next (if s.gauge.run.isSome then s2 else s2.powerStep p)
  else .next s

/-- VCORE_SETTLED: the panel rails stand at the target (R51, R54). -/
def execVcoreSettled (s : State) : Out :=
  .next { s with pwr := { s.pwr with railMv := s.obj Obj.VCORE_NOW } }

/-- APPLY on 0x2000 (R63). -/
def applyVoltage (s : State) (slot : Nat) : Ans :=
  let vmax := s.cand slot Obj.VCORE_MAX
  let vmin := s.cand slot Obj.VCORE_MIN
  if vmax < vmin ∨ vmax % 5 ≠ 0 then s.no St.INCONSISTENT 2
  else if vmin % 5 ≠ 0 then s.no St.INCONSISTENT 3
  else (s.take slot [Obj.VCORE_MAX, Obj.VCORE_MIN, Obj.PCAP]).ok

end Sys2Proof.Machine
end

