-- ==== Sys2Proof/Machine/Torus.lean ====
section
/-! DEFINITION. The torus ports: training, identity, flits, credits, retraining; packets at the Purl router; the receive queue of
management messages; the shape of the jersey (R215 to R230, R234, R236). -/

namespace Sys2Proof.Machine

/-! ### Ports (R215, R216, R218, R461) -/

/-- Event detail of a port (Table 17.1). -/
def State.portDetail (s : State) (p : Nat) : Nat :=
  let x := s.port p
  p + x.st * 2 ^ 8 + (if x.peer = 0xFFFFFFFF then 0xFFF else x.peer / 2 ^ 16 % 4096) * 2 ^ 16

/-- A degraded device holds a port disabled that has a failed lane (R461): a fail entry of the record names it. -/
def State.portBarred (s : State) (p : Nat) : Bool :=
  let r := s.gauge.failed
  s.obj Obj.DEGRADED == 1 && (List.range (leAt r 7 1)).any (fun i =>
    leAt r (224 + 16 * i) 1 == 4 && leAt r (225 + 16 * i) 1 == 5 && leAt r (226 + 16 * i) 2 == p)

/-- What a port that goes down loses (R218): its replay buffer, packets not wholly received, and the rest of packets begun (DEDUCED, log 38). -/
def PortSt.cut (x : PortSt) : PortSt :=
  { x with replay := [], resend := none, part := [], nak := false, naks := [], signal := false, ident := false
           outq := x.outq.filter (fun (f : Flit) => x.outq.any (fun g => g.vc == f.vc && g.first) && (f.first ||
             (((x.outq.filter (fun g => g.vc == f.vc)).head?).map Flit.first).getD false)) }

/-- Credits, sequence numbers and totals at a successful training (R221). -/
def PortSt.fresh (x : PortSt) : PortSt :=
  { x with txSeq := 0, rxSeq := 0, replay := [], resend := none, nak := false, naks := [], credits := [], held := [], freed := [],
           totalTx := [], totalRx := [], part := [] }

/-- The slice loses a port it uses (R234) (DEDUCED, log 38). -/
def State.lostPort (s : State) (p : Nat) (was : Nat) : State :=
  if (was = 2 ∨ was = 5) ∧ (s.slicePorts s.sliceDef).contains p ∧ SLICE_CREATED ≤ s.sliceState then s.faultSlice p else s

/-- A port enters state 4. EV_LINK_DOWN is raised unless a retry has failed again (R215). -/
def State.portDown (s : State) (p : Nat) : State :=
  let x := s.port p
  let quiet := x.retry || x.st == 4
  let y := { x.cut with st := 4, trying := false, retry := true, downs := if x.st = 2 ∨ x.st = 5 then x.downs + 1 else x.downs }
  let s1 := s.setPort p y
  let s2 := if quiet then s1 else s1.raiseN Ev.LINK_DOWN (s1.portDetail p)
  s2.lostPort p x.st

/-- A port begins training (Table 9.1, step 1). -/
def State.portStart (s : State) (p : Nat) : State :=
  s.setPort p { s.port p with st := 1, trying := true, retry := false, signal := false, ident := false }

/-- A port is disabled. -/
def State.portOff (s : State) (p : Nat) : State :=
  let x := s.port p
  (s.setPort p { x.cut with st := 0, trying := false, retry := false }).lostPort p x.st

/-- A write of PORT_ENABLE. -/
def State.enablePorts (s : State) (v : Nat) : State :=
  (List.range 6).foldl (fun (s : State) p =>
    if bit v p && !s.portBarred p then (if (s.port p).st = 0 ∧ (s.port p).trying = false then s.portStart p else s)
    else if (s.port p).st ≠ 0 ∨ (s.port p).trying then s.portOff p else s) (s.setObj Obj.PORT_ENABLE v)

/-- The port is enabled and waits for signal. -/
def PortSt.waits (x : PortSt) : Bool := x.trying && !x.signal

def execSignalDetected (p : PortId) (s : State) : Out :=
  let x := s.port p.val
  .next (if x.waits then s.setPort p.val { x with signal := true, st := 1 } else s)

/-- SIGNAL_TIMEOUT: no signal on all 16 lanes within 10 ms of step 1. -/
def execSignalTimeout (p : PortId) (s : State) : Out := .next (if (s.port p.val).waits then s.portDown p.val else s)

/-- LINK_RETRY: 1 s after entering state 4. The port stays in state 4 until there is signal. -/
def execLinkRetry (p : PortId) (s : State) : Out :=
  let x := s.port p.val
  .next (if x.st = 4 ∧ x.trying = false ∧ s.tb.onOsc = false then s.setPort p.val { x with trying := true, signal := false, ident := false } else s)

/-- Logical position of the peer that a port expects, none where it expects no peer (R216). -/
def State.expectedPeer (s : State) (code : Nat) : Option Nat :=
  let a := (code - 1) / 2
  let c := nib (s.posOfChip s.chip) a
  let edge := if (code - 1) % 2 = 0 then decide (c + 1 = s.jlen a) else decide (c = 0)
  if edge && !s.jwrap a then none else some (s.hop (s.posOfChip s.chip) code)

/-- The role opposite to a port code. -/
def oppositeRole (code : Nat) : Nat := if code % 2 = 1 then code + 1 else code - 1

/-- IDENTITY_EXCHANGE: the peer's chip number, logical position and logical role. -/
def execIdentityExchange (p : PortId) (chip pos : BitVec 12) (role : Fin 8) (s : State) : Out :=
  let x := s.port p.val
  if x.signal || x.st == 2 || x.st == 3 then
    let code := s.roleOf p.val
    let ok := s.expectedPeer code == some pos.toNat && role.val == oppositeRole code
    let y := { x with peer := chip.toNat * 2 ^ 16 + role.val }
    if ok then .next (s.setPort p.val { y with ident := true, signal := true, st := if x.st = 3 then 1 else x.st, trying := x.st ≠ 2 })
    else
      let s1 := s.setPort p.val { y.cut with st := 3, trying := false }
      .next ((s1.raiseN Ev.LINK_MISCABLED (s1.portDetail p.val)).lostPort p.val x.st)
  else .next s

/-- QUALIFICATION_COMPLETE: 10 ms of test flits have passed. -/
def execQualificationComplete (p : PortId) (ok : Bool) (s : State) : Out :=
  let x := s.port p.val
  if x.st = 1 ∧ x.ident then
    if ok then
      let s1 := s.setPort p.val { x.fresh with st := 2, trying := false, retry := false }
      .next (s1.raiseN Ev.LINK_UP (s1.portDetail p.val)).maybeReady
    else .next (s.portDown p.val)
  else .next s

/-- A port retrains. -/
def State.retrain (s : State) (p : Nat) : State :=
  let x := s.port p
  if x.st = 2 then s.setPort p { x with st := 5, retrains := x.retrains + 1, naks := [] } else s

def execFlitLockLost (p : PortId) (s : State) : Out := .next (s.retrain p.val)
/-- RETRAIN_COMPLETE: sequence numbers, replay buffer and credits stay. -/
def execRetrainComplete (p : PortId) (s : State) : Out :=
  .next (if (s.port p.val).st = 5 then s.setPort p.val { s.port p.val with st := 2 } else s)
def execRetrainTimeout (p : PortId) (s : State) : Out := .next (if (s.port p.val).st = 5 then s.portDown p.val else s)

/-! ### Flits and credits (R217, R219, R221, R222) -/

/-- Channel number of a virtual channel and dateline class. -/
def chanNo (vc cls : Nat) : Nat := 2 * vc + cls
def Flit.chan (f : Flit) : Nat := chanNo f.vc f.cls

def PortSt.credit (x : PortSt) (k : Nat) : Nat := Sparse.get creditsFull x.credits k
def PortSt.setCredit (x : PortSt) (k v : Nat) : PortSt := { x with credits := Sparse.set creditsFull x.credits k v }
/-- A number kept by channel. -/
def chan0 : Nat → Nat := fun _ => 0
def addAt (m : Sparse Nat) (k n : Nat) : Sparse Nat := Sparse.set chan0 m k (Sparse.get chan0 m k + n)
def subAt (m : Sparse Nat) (k n : Nat) : Sparse Nat := Sparse.set chan0 m k (Sparse.get chan0 m k - n)

/-- Header word of a flit (Table 9.2). -/
def flitHead (vc cls : Nat) (first last idle nak : Bool) (seq ack : Nat) : Nat :=
  vc * 2 ^ 62 + cls * 2 ^ 61 + first.toNat * 2 ^ 60 + last.toNat * 2 ^ 59 + idle.toNat * 2 ^ 58 + nak.toNat * 2 ^ 57 +
    seq % 4096 * 2 ^ 45 + ack % 4096 * 2 ^ 33

/-- A flit's 272 bytes (Tables 9.2 and 9.3). -/
def flitBytes (head : Nat) (payload : List Byte) (chan total : Nat) : List Byte :=
  let a := beBytes 8 head ++ padTo 256 payload
  let t := beBytes 4 (chan * 2 ^ 29 + total % 2 ^ 16)
  a ++ beBytes 4 (crc32c (a ++ t)) ++ t

/-- The virtual channel that may send next: management first, then 0 to 2 in turn; it has a waiting flit and a credit (DEDUCED, log 38). -/
def PortSt.pick (x : PortSt) : Option Flit :=
  let head := fun (vc : Nat) => (x.outq.find? (fun (f : Flit) => f.vc == vc)).filter (fun f => decide (0 < x.credit f.chan))
  if 2048 ≤ x.replay.length then none
  else [3, (x.turn + 1) % 3, (x.turn + 2) % 3, x.turn % 3].findSome? head

/-- FLIT_SENT: a port sends a flit that is to be sent again, the next waiting flit, or an idle flit (DEDUCED, log 38). -/
def State.sendFlit (s : State) (p : Nat) : State :=
  let x := s.port p
  let tot := Sparse.get chan0 x.totalTx x.rot + Sparse.get chan0 x.freed x.rot
  let naks := if x.nak then (x.naks ++ [s.now]).filter (fun t => decide (s.now < t + 10000)) else x.naks
  let y := { x with totalTx := Sparse.set chan0 x.totalTx x.rot (tot % 2 ^ 16), freed := Sparse.set chan0 x.freed x.rot 0
                    rot := (x.rot + 1) % 8, nak := false, naks := naks }
  let out := fun (z : PortSt) (f : Option (Flit × Nat)) (s : State) =>
    let m := match f with
      | some (f, seq) => Msg.flit p (flitBytes (flitHead f.vc f.cls f.first f.last false x.nak seq x.rxSeq) f.payload x.rot tot) f.marks
      | none => Msg.flit p (flitBytes (flitHead 0 0 false false true x.nak 0 x.rxSeq) [] x.rot tot) []
    (s.setPort p z).emit m
  let oldest := (x.txSeq + 4096 - x.replay.length % 4096) % 4096
  let s1 :=
    match x.resend with
    | some i =>
      match x.replay[i]? with
      | some f => out { y with resends := x.resends + 1, resend := if i + 1 < x.replay.length then some (i + 1) else none } (some (f, oldest + i)) s
      | none => out { y with resend := none } none s
    | none =>
      match x.pick with
      | some f =>
        out ({ y with outq := x.outq.erase f, replay := x.replay ++ [f], txSeq := (x.txSeq + 1) % 4096, sent := x.sent + 1
                      turn := if f.vc = 3 then x.turn else f.vc }.setCredit f.chan (x.credit f.chan - 1)) (some (f, x.txSeq)) s
      | none => out y none s
  if 32 ≤ naks.length then s1.retrain p else s1

def execFlitSent (p : PortId) (s : State) : Out := .next (if (s.port p.val).st = 2 then s.sendFlit p.val else s)

/-- ACK and NAK of a received header, and the credit total of its trailer. -/
def PortSt.takeAck (x : PortSt) (head trail : Nat) : PortSt :=
  let oldest := (x.txSeq + 4096 - x.replay.length % 4096) % 4096
  let n := (bits head 44 33 + 4096 - oldest) % 4096
  let n := if n ≤ x.replay.length then n else 0
  let k := bits trail 31 29
  let t := bits trail 15 0
  let back := (t + 65536 - Sparse.get chan0 x.totalRx k % 65536) % 65536
  { x with
    replay := x.replay.drop n
    resend := if bit head 57 && decide (n < x.replay.length) then some 0
      else match x.resend with
        | some i => if i - n < x.replay.length - n then some (i - n) else none
        | none => none
    credits := Sparse.set creditsFull x.credits k (min (creditsFull k) (x.credit k + back))
    totalRx := Sparse.set chan0 x.totalRx k t }

/-- A flit in sequence joins its packet. -/
def PortSt.takeFlit (x : PortSt) (f : Flit) : PortSt :=
  let k := f.chan
  let got := (if f.first then [] else Sparse.get (fun _ => []) x.part k) ++ [f]
  let y := { x with rxSeq := (x.rxSeq + 1) % 4096, rcvd := x.rcvd + 1, held := addAt x.held k 1 }
  if f.last then { y with part := Sparse.set (fun _ => []) x.part k [], inbox := x.inbox ++ [got] }
  else { y with part := Sparse.set (fun _ => []) x.part k got }

/-- FLIT_RECEIVED: CRC, then ACK, NAK and credits, then the sequence number. -/
def State.recvFlit (s : State) (p : Nat) (bs : List Byte) (marks : List Nat) : State :=
  let x := s.port p
  let head := beAt bs 0 8
  if crc32c (bs.take 264 ++ slice bs 268 4) ≠ beAt bs 264 4 then s.setPort p { x with crcFails := x.crcFails + 1, nak := true }
  else
    let y := x.takeAck head (beAt bs 268 4)
    if bit head 58 then s.setPort p y
    else if bits head 56 45 ≠ x.rxSeq then s.setPort p { y with nak := true }
    else s.setPort p (y.takeFlit ⟨bits head 63 62, bits head 61 61, bit head 60, bit head 59, slice bs 8 256, marks⟩)

def execFlitReceived (p : PortId) (bytes : List Byte) (marks : List Nat) (s : State) : Out :=
  if bytes.length ≠ 272 then .fault .illFormed
  else .next (if (s.port p.val).st = 2 then s.recvFlit p.val bytes marks else s)

/-! ### Packets at the Purl router (R226, R227, R229) -/

/-- The buffers of a packet are free. -/
def State.freeFlits (s : State) (p chan n : Nat) : State :=
  let x := s.port p
  s.setPort p { x with held := subAt x.held chan n, freed := addAt x.freed chan n }

/-- Header as LAST_MISS holds it (R238). -/
def PktHdr.stored (h : PktHdr) : List Byte :=
  leBytes 2 h.dest ++ leBytes 2 h.src ++ leBytes 2 h.sliceId ++ leBytes 1 h.kind ++ leBytes 1 h.ty ++ leBytes 2 h.length ++
    leBytes 2 h.master ++ padTo 20 h.rest

/-- A packet is discarded: counted, its header kept, the event raised. -/
def State.missPacket (s : State) (p : Nat) (h : PktHdr) : State :=
  ((s.inc32 Obj.ROUTE_MISS).setDom Obj.LAST_MISS h.stored).raiseN Ev.ROUTE_MISS (s.portDetail p)

/-- The definition that a proposal-box packet carries after its slice identifier (DEDUCED, log 12). -/
def PktHdr.boxDef (h : PktHdr) : SliceDef :=
  ⟨BitVec.ofNat 16 h.sliceId, BitVec.ofNat 16 (beAt h.rest 0 2), BitVec.ofNat 16 (beAt h.rest 2 2), BitVec.ofNat 8 (beAt h.rest 4 1),
    BitVec.ofNat 8 (beAt h.rest 5 1)⟩

/-- The packet comes from this device's slice. -/
def State.ofSlice (s : State) (h : PktHdr) : Bool :=
  decide (SLICE_CREATED ≤ s.sliceState) && h.sliceId == s.obj Obj.SLICE_ID && s.inSlice h.src

/-- Checks of a packet on its way (R229). -/
def State.admits (s : State) (h : PktHdr) (vc : Nat) : Bool :=
  match h.kind with
  | 0 => s.ofSlice h && (vc == 3 || s.isOpen) && (s.unicast h.dest).isSome
  | 1 => s.ofSlice h && s.isOpen &&
      (match s.plan (collOf h.rest).entry.toNat with | some q => (s.tree (s.chipOfIndex q.root)).isSome | none => false)
  | 2 => !s.isOpen
  | 3 => decide (SLICE_CREATED ≤ s.sliceState) && h.sliceId == s.obj Obj.SLICE_ID
  | 4 => inBox h.boxDef (s.posOfChip s.chip) &&
      (s.sliceState == SLICE_NONE || ((s.sliceState == SLICE_PROPOSED || s.sliceState == SLICE_CREATED) && h.boxDef == s.sliceDef))
  | _ => false

/-- Output port code, and whether the link is a wrap link, of a packet that goes on (R227). -/
def State.onward (s : State) (h : PktHdr) : Nat × Bool :=
  let dst := s.posOfChip h.dest
  match h.kind with
  | 2 => s.routeJersey (s.posOfChip s.chip) dst
  | 4 => s.routeIn h.boxDef (s.posOfChip s.chip) dst
  | _ => s.routeIn s.sliceDef (s.posOfChip s.chip) dst

/-- The packet leaves by the port on its route, its class following the dateline (R227). -/
def State.forward (s : State) (p : Nat) (h : PktHdr) (fs : List Flit) : State :=
  let r := s.onward h
  let same := (s.roleOf p - 1) / 2 == (r.1 - 1) / 2
  s.queueFlits (s.physOf r.1) (fs.map (fun f => { f with cls := if r.2 || (same && f.cls == 1) then 1 else 0 }))

/-- A management message waits for room in the receive queue, and holds its buffers (R236). -/
def State.mgmtArrive (s : State) (p chan n : Nat) (h : PktHdr) : State :=
  { s with torus := { s.torus with mgmtWait := s.torus.mgmtWait ++ [(⟨h.src, h.ty, p, chan, n⟩ : MgmtIn)] } }

/-- A collective packet acts on the selvedge and skein of this device (Table 10.6). -/
def State.collPacket (s : State) (p : Nat) (h : PktHdr) (fs : List Flit) : State :=
  let c := collOf h.rest
  let data := (fs.drop 1).flatMap Flit.payload
  let marks := ((List.range fs.length).zip (fs.drop 1)).flatMap (fun (q : Nat × Flit) => q.2.marks.map (fun u => 8 * q.1 + u))
  if h.ty = T_CHUNK then s.onChunk p c data marks
  else if h.ty = T_CREQ then s.onCreq p c
  else if h.ty = T_CGNT then s.onCgnt p c
  else if h.ty = T_CACK then s.onCack p c
  else if h.ty = T_CNAK then s.onCnak p c
  else if h.ty = T_CRED then s.onCred p c
  else s

/-- A kind 0 packet at the device that its DEST_CHIP names (R229). A memory request and a reply go on to their engines. -/
def State.arriveHere (s : State) (p chan n vc : Nat) (h : PktHdr) : State :=
  if vc = 0 then s.freeFlits p chan n
  else if vc = 3 then (if s.ofSlice h then s.mgmtArrive p chan n h else (s.freeFlits p chan n).missPacket p h)
  else
    let t := s.freeFlits p chan n
    let c := collOf h.rest
    if s.ofSlice h && s.isOpen && vc == 1 && h.ty == T_RETRACT then t.onRetract h.src c
    else if s.ofSlice h && s.isOpen && vc == 1 && h.ty == T_RESOLVE then t.onResolve h.src c
    else t.missPacket p h

/-- The Purl router takes the oldest packet that a port holds. -/
def State.routePacket (s : State) (p : Nat) (fs : List Flit) : State :=
  match fs with
  | [] => s
  | f :: _ =>
    let h := PktHdr.of f.payload
    let n := fs.length
    if h.kind = 0 ∧ h.dest = s.chip then s.arriveHere p f.chan n f.vc h
    else if s.admits h f.vc then
      if h.kind = 1 then (s.freeFlits p f.chan n).collPacket p h fs
      else if h.kind = 3 ∨ h.dest = s.chip then s.mgmtArrive p f.chan n h
      else (s.freeFlits p f.chan n).forward p h fs
    else (s.freeFlits p f.chan n).missPacket p h

/-- PACKET_ARRIVAL. -/
def execPacketArrival (p : PortId) (s : State) : Out :=
  let x := s.port p.val
  match x.inbox with
  | fs :: rest => .next ((s.setPort p.val { x with inbox := rest }).routePacket p.val fs)
  | [] => .next s

/-- MGMT_QUEUE: the oldest waiting message enters the queue of 64; its buffers are free from then on. -/
def execMgmtQueue (s : State) : Out :=
  match s.torus.mgmtWait with
  | m :: ms =>
    if s.torus.mgmtQ.length < 64 then
      let s1 := { s with torus := { s.torus with mgmtWait := ms, mgmtQ := s.torus.mgmtQ ++ [m] } }
      .next ((s1.freeFlits m.port m.chan m.flits).raiseN Ev.MGMT_RX s1.torus.mgmtQ.length)
    else .next s
  | [] => .next s

/-! ### The shape of the jersey (R224, R225) -/

/-- APPLY on 0x2100 (DEDUCED, log 39). -/
def applyTorus (s : State) (slot : Nat) : Ans :=
  let c := s.cand slot
  let m := c Obj.AXIS_MAP
  let ls := [c Obj.JERSEY_X, c Obj.JERSEY_Y, c Obj.JERSEY_Z]
  let pair := fun (a : Nat) => bits m (3 * a + 1) (3 * a)
  let coord := fun (a : Nat) => if bit m (3 * a + 2) then ((nth 0 ls a : Nat) : Int) - 1 - (nib s.chip (pair a) : Int) else (nib s.chip (pair a) : Int)
  if s.sliceState ≠ SLICE_NONE then s.no St.WRONG_STATE 0
  else if 2048 < nth 0 ls 0 * nth 0 ls 1 * nth 0 ls 2 then s.no St.INCONSISTENT 1
  else if pair 0 = 3 ∨ pair 1 = 3 ∨ pair 2 = 3 ∨ pair 0 = pair 1 ∨ pair 0 = pair 2 ∨ pair 1 = pair 2 ∨ 512 ≤ m then s.no St.INCONSISTENT 5
  else if [0, 1, 2].any (fun a => decide (coord a < 0) || decide (((nth 0 ls a : Nat) : Int) ≤ coord a)) then s.no St.INCONSISTENT 1
  else if [0, 1, 2].any (fun a => bit (c Obj.JERSEY_WRAP) a && decide (nth 0 ls a < 3)) then s.no St.INCONSISTENT 4
  else (s.take slot [Obj.JERSEY_X, Obj.JERSEY_Y, Obj.JERSEY_Z, Obj.JERSEY_WRAP, Obj.AXIS_MAP]).ok

/-! ### The collar's memory of what a port shows -/

/-- PORT_COUNTS and the port's part of CREDITS (Table 9.10). -/
def PortSt.counts (x : PortSt) : List Byte := [x.sent, x.rcvd, x.crcFails, x.resends, x.retrains, x.downs].flatMap (leBytes 8)
def PortSt.creditBytes (x : PortSt) : List Byte :=
  (List.range 8).flatMap (fun k => leBytes 2 (x.credit k) ++ leBytes 2 (Sparse.get chan0 x.held k) ++ leBytes 2 (Sparse.get chan0 x.freed k))

end Sys2Proof.Machine
end

