-- ==== Sys2Proof/Machine/Boot.lean ====
section
/-! DEFINITION. Reset, boot from flash and over Ethernet, the module flash, lifecycle transitions, Gauge, the shutdown, firmware
staging (18), and what the board's power, temperature and pins do to them (19). -/

namespace Sys2Proof.Machine

/-! ### Firmware images (R445, R446) -/

/-- Root key of a role that an ID names and that is not revoked. -/
def rootNamed (role : Nat) (id : List Byte) : Option Nat :=
  (List.range 4).find? (fun n => Config.rootKeyState n == 1 && Config.rootKeyRole n == role && keyIdOf (Config.rootKey n) == id)

/-- FW_REASON of an image, 0 for a valid one; `gauge` asks for a Gauge programme. Reserved flags are ignored (R11) (DEDUCED, log 41). -/
def State.fwReason (s : State) (gauge : Bool) (b : List Byte) : Nat :=
  let n := leAt b 20 4
  if leAt b 0 4 ≠ 0x48574657 ∨ leAt b 4 2 ≠ 1 ∨ bit (leAt b 6 2) 0 ≠ gauge ∨ b.length ≠ 64 + n + 114 ∨ 16777216 < b.length then 1
  else if leAt b 8 8 ≠ s.obj Obj.ID_REV then 2
  else if leAt b 16 4 < s.flash.floorSecver then 5
  else
    match rootNamed 1 (slice b 24 8) with
    | none => 3
    | some k => if ed448phVerify (Config.rootKey k) (digest64 (b.take (64 + n))) (b.drop (64 + n)) then 0 else 4

/-- A flash bank's bytes. -/
def State.bankBytes (s : State) (n : Nat) : List Byte := Sparse.get Config.bank s.flash.banks n

/-- Banks in the order that the mask ROM tries them. -/
def FlashSt.order (f : FlashSt) : List Nat :=
  (match f.pending with | some p => [p] | none => []) ++ [f.active, 1 - f.active]

/-! ### Lifecycle (R450, R451) -/

/-- Session class admitted in a lifecycle state (R396). -/
def lcAdmits (lc cls : Nat) : Bool :=
  match cls with
  | 4 => lc == 3
  | 5 => lc == 0
  | _ => lc != 0 && lc != 4

/-- A session ends: its staging, transfers, subscriptions and reports go with it (R394). -/
def State.endSession (s : State) (i : Nat) : State := s.setSession i Session.free

/-- Effects that every transition has. -/
def State.lcEnter (s : State) (new : Nat) (zero : Bool) : State :=
  let old := s.flash.lc
  let s1 := { s with
    flash := { s.flash with lc := new }
    cipher := { s.cipher with slots := [] }
    service := none
    mem := if zero then s.mem.zeroed else s.mem }
  let s2 := (((s1.setObj Obj.DEBUG_EN 0).setObj Obj.DEBUG_GRANT 0).setObj Obj.DIRECT_EN 0).setObj Obj.LC_NONCE (ofBe (s1.draw 8))
  let s3 := s2.spend.raiseN Ev.LC_CHANGED (old + new * 2 ^ 8)
  (List.range 8).foldl (fun (s : State) i => if (s.session i).live && !lcAdmits new (s.session i).cls then s.endSession i else s) s3

/-- SERVICE_EXPIRY: VALID_S seconds have passed (R451) (DEDUCED, log 42). -/
def execServiceExpiry (s : State) : Out := .next (if s.service.isSome && s.flash.lc == 3 then s.lcEnter 2 true else s)

/-! ### Reset and release (R440, R442, R443) -/

/-- Everything that is not in flash, on the board or in the sender's hands takes its reset value; ports are idle (DEDUCED, log 43). -/
def State.enterReset (s : State) : State :=
  { State.reset with
    pending := s.pending
    freeCtr := s.freeCtr
    outbox := s.outbox
    objs := [(Obj.VCORE_NOW, 720)]
    board := { s.board with eventEn := true, eventLevel := 24, ppsOutEn := false, ppsOut := false, thermAlert := false, i2cPtr := 0 }
    boot := { BootSt.reset with stage := .held, straps := s.boot.straps }
    gauge := { GaugeSt.reset with passed := s.gauge.passed }
    flash := s.flash
    mem := ⟨[], s.mem.gen + 1, 0, [], [], [], [], [], []⟩
    torus := { TorusSt.reset with ports := (List.range 6).map (fun p => (p, { PortSt.reset with trying := false })) } }

/-- The banks partition is on the pins while both are low (R472). -/
def BoardSt.pins (b : BoardSt) : BoardSt := { b with flashPins := !b.resetN && !b.flProgN }

/-- Nothing holds the module in reset any more: boot begins at step 2 of Table 18.3. A reserved BOOT_SEL stops it at step 3. -/
def State.tryRelease (s : State) (straps : BitVec 16) : State :=
  let b := s.board
  if s.boot.stage = .held ∧ b.resetN ∧ b.flProgN ∧ b.inputOk ∧ b.regsOn ∧ b.regsOk ∧ b.tripped = false then
    let st := straps.toNat % 2 ^ 15
    let s1 := (s.setObj Obj.TB_STATE 1).setObj Obj.CHIP (st % 4096)
    { s1 with
      boot := { s1.boot with stage := if bits st 13 12 = 3 then .failed else .rom, straps := BitVec.ofNat 16 st }
      torus := { s1.torus with ports := [] } }
  else s

/-- RESET: RESET_N goes low (`pin`), or the regulators leave regulation. A trip ends with a low RESET_N (R477). -/
def execReset (pin : Bool) (s : State) : Out :=
  let t := s.enterReset
  let b := t.board
  .next { t with board :=
    (if pin then { b with resetN := false, tripped := false, regsOn := b.regsOn || (b.tripped && b.inputOk && !b.overvolt) }
     else { b with regsOk := false }).pins }

def execResetRelease (straps : BitVec 16) (s : State) : Out :=
  .next ({ s with board := { s.board with resetN := true }.pins }.tryRelease straps)

/-- REGULATORS_IN_REGULATION: the module stops holding itself in reset. -/
def execRegulatorsInRegulation (straps : BitVec 16) (s : State) : Out :=
  .next (if s.board.regsOn then { s with board := { s.board with regsOk := true } }.tryRelease straps else s)

/-- FL_PROG_N changes (R472). -/
def execFlProgN (level : Bool) (straps : BitVec 16) (s : State) : Out :=
  .next ({ s with board := { s.board with flProgN := level }.pins }.tryRelease straps)

/-- The regulators stop; the module is in reset. -/
def State.powerOff (s : State) (f : BoardSt → BoardSt) : State :=
  let t := s.enterReset
  { t with board := { f t.board with regsOn := false, regsOk := false } }

def execInputPowerGood (s : State) : Out :=
  .next (if s.board.inputOk then s
    else { s with board := { s.board with inputOk := true, tripped := false, regsOn := !s.board.overvolt } })
def execInputUndervoltage (s : State) : Out :=
  let t := s.powerOff (fun b => { b with inputOk := false, tripped := false })
  .next { t with gauge := { t.gauge with passed := false } }
def execInputOvervoltage (s : State) : Out := .next (s.powerOff (fun b => { b with overvolt := true }))
def execInputOvervoltageCleared (s : State) : Out :=
  .next (if s.board.overvolt then
      { s with board := { s.board with overvolt := false, regsOn := s.board.inputOk && !s.board.tripped } } else s)

/-- THERMAL_TRIP: the detector outside the fabric (R477). -/
def execThermalTrip (s : State) : Out :=
  .next (if s.board.regsOn then
    let t := s.powerOff (fun b => { b with tripped := true, tripUnread := true })
    { t with flash := { t.flash with thermTrips := Sys2Proof.Machine.counted Obj.THERM_TRIPS 32 (t.flash.thermTrips + 1), forceFull := true } }
    else s)

/-! ### Temperature (R477) -/

/-- Hottest junction, as a sort key of binary32 encodings. -/
def State.hottest (s : State) : Int :=
  (List.range 4).foldl (fun m p => max m (f32Key (s.obj (Obj.PANEL_TJ + p)))) (f32Key (s.obj Obj.COLLAR_TJ))

/-- Sort keys of 57, 60, 92, 95, 97 and 100 °C. -/
def c57 : Int := 0x42640000
def c60 : Int := 0x42700000
def c92 : Int := 0x42B80000
def c95 : Int := 0x42BE0000
def c97 : Int := 0x42C20000
def c100 : Int := 0x42C80000

/-- THERM_STATE follows the two conditions. -/
def State.thermState (s : State) : State :=
  s.setObj Obj.THERM_STATE (if s.pwr.thermHold then 2 else if s.board.thermAlert then 1 else 0)

/-- THERM_ALERT: the pin follows the newest samples. -/
def execThermAlert (s : State) : Out :=
  let plate := f32Key (s.obj Obj.TPLATE)
  let on := if c95 ≤ s.hottest ∨ c60 ≤ plate then true
    else if s.hottest < c92 ∧ plate < c57 then false else s.board.thermAlert
  .next (if s.up then { s with board := { s.board with thermAlert := on } }.thermState else s)

/-- THERMAL_HOLD: the power loop holds the target from its next period, or no longer does. -/
def execThermalHold (s : State) : Out :=
  let on := if c100 ≤ s.hottest then true else if s.hottest < c97 then false else s.pwr.thermHold
  .next (if s.up then { s with pwr := { s.pwr with thermHold := on } }.thermState else s)

/-! ### Boot (R446 to R448, R454) -/

/-- The firmware runs (step 5): from bank 0 or 1, or over Ethernet (2). A reset in SERVICE ends in FIELD (R451) (DEDUCED, log 40). -/
def State.startFw (s : State) (source : Nat) (img : List Byte) : State :=
  let back := decide (source ≠ s.flash.active)
  let f := if source = 2 then s.flash
    else if s.flash.pending = some source then { s.flash with active := source, pending := none } else s.flash
  let s1 := { s with flash := f, boot := { s.boot with stage := .firmware, offer := none, segs := [], fwDigest := digest64 img } }
  let s2 := ((s1.setObj Obj.BOOT_SOURCE source).setObj Obj.BOOT_FALLBACK (back && decide (source ≠ 2)).toNat).setObj Obj.RUNNING_SECVER
    (leAt img 16 4)
  let s3 : State := { s2.setObj Obj.LC_NONCE (ofBe (s2.draw 8)) with freeCtr := s2.freeCtr + 1 }
  let s4 := if s3.flash.lc = 3 then s3.lcEnter 2 true else s3
  if back && decide (source ≠ 2) then s4.raiseN Ev.BOOT_FALLBACK source else s4

def State.bootSel (s : State) : Nat := bits s.boot.straps.toNat 13 12

/-- The mask ROM tries the banks; without a valid one it goes on to Ethernet, or stops. -/
def State.verifyFlash (s : State) : State :=
  match s.flash.order.find? (fun n => s.fwReason false (s.bankBytes n) == 0) with
  | some n => s.startFw n (s.bankBytes n)
  | none => { s with boot := { s.boot with stage := if s.bootSel = 1 then .ethBoot else .failed } }

def execFirmwareVerify (s : State) : Out :=
  .next (if s.boot.stage = .rom then
    (if s.bootSel = 2 then { s with boot := { s.boot with stage := .ethBoot } } else s.verifyFlash) else s)

/-- BOOT_RETRY: every 10 s with BOOT_SEL 0b00 and no valid bank. -/
def execBootRetry (s : State) : Out :=
  .next (if s.boot.stage = .failed ∧ s.bootSel = 0 then { s with boot := { s.boot with stage := .rom } } else s)

def bootMagic (kind : Nat) : List Byte := beBytes 2 0x4254 ++ beBytes 1 kind ++ zeros 1
def withCrc (b : List Byte) : List Byte := b ++ beBytes 4 (crc32c b)

/-- Body of an Ethernet boot message of a kind, when its form and CRC are right (Table 18.5a); its reserved byte is ignored (R11). -/
def bootBody (kind : Nat) (b : List Byte) : Option (List Byte) :=
  let n := b.length - 4
  if 8 ≤ b.length ∧ b.take 3 = (bootMagic kind).take 3 ∧ crc32c (b.take n) = beAt b n 4 then some ((b.take n).drop 4) else none

/-- The link-scope group ff02::48ad. -/
def bootGroup : BitVec 128 := BitVec.ofNat 128 (0xff02 * 2 ^ 112 + 0x48ad)

def State.bootSend (s : State) (peer : BitVec 128) (port : Nat) (b : List Byte) : State := s.emit (.udp 0 peer port 47212 (withCrc b))

/-- BOOT_REQ: every 1 s while no offer is taken. -/
def State.bootReq (s : State) : State :=
  s.bootSend bootGroup 47212 (bootMagic 1 ++ beBytes 8 (s.obj Obj.ID_REV) ++ padTo 32 Config.serial ++ beBytes 4 s.flash.floorSecver)

def execBootReq (s : State) : Out :=
  .next (if s.boot.stage = .ethBoot ∧ s.boot.offer = none then s.bootReq else s)

/-- BOOT_OFFER: the first offer with SECVER at least the floor is taken. -/
def execBootOffer (d : Dgram) (s : State) : Out :=
  match bootBody 2 d.bytes with
  | some b =>
    let s := s.frameIn d.port.val
    .next (if s.boot.stage = .ethBoot ∧ s.boot.offer = none ∧ d.port.val = 0 ∧ b.length = 8 ∧ s.flash.floorSecver ≤ beAt b 4 4 then
      { s with boot := { s.boot with offer := some ⟨d.peer, d.peerPort.toNat, beAt b 0 4⟩, segs := [] } } else s)
  | none => .next s

/-- BOOT_SEG: a segment of the offered image (DEDUCED, log 41). -/
def execBootSeg (d : Dgram) (s : State) : Out :=
  match bootBody 3 d.bytes, s.boot.offer with
  | some b, some o =>
    let s := s.frameIn d.port.val
    .next (if s.boot.stage = .ethBoot ∧ d.port.val = 0 ∧ d.peer = o.peer ∧ 5 ≤ b.length ∧ b.length ≤ 4 + 8192 ∧ beAt b 0 4 + (b.length - 4) ≤ o.total then
      { s with boot := { s.boot with segs := s.boot.segs ++ [(beAt b 0 4, b.drop 4)] } } else s)
  | _, _ => .next s

/-- Ranges of 0 to total − 1 that no segment covers, from `at_` on, as offset and count (DEDUCED, log 41). -/
def missing (segs : List (Nat × List Byte)) (total : Nat) : Nat → Nat → List (Nat × Nat)
  | 0, _ => []
  | f + 1, at_ =>
    if total ≤ at_ then []
    else
      match segs.find? (fun q => decide (q.1 ≤ at_) && decide (at_ < q.1 + q.2.length)) with
      | some q => missing segs total f (q.1 + q.2.length)
      | none =>
        let next := segs.foldl (fun m q => if at_ < q.1 ∧ q.1 < m then q.1 else m) total
        (at_, next - at_) :: missing segs total f next

/-- Bytes that the segments spell, later ones over earlier ones. -/
def assemble (segs : List (Nat × List Byte)) (total : Nat) : List Byte :=
  (segs.foldl (fun (b : List Byte) q => (b.take q.1 ++ q.2 ++ b.drop (q.1 + q.2.length))) (zeros total)).take total

/-- The offer is dropped and BOOT_REQ is sent anew. -/
def State.bootAnew (s : State) : State := { s with boot := { s.boot with offer := none, segs := [] } }

/-- BOOT_MISS_TIMER: 100 ms after the last segment. -/
def execBootMissTimer (s : State) : Out :=
  match s.boot.offer with
  | some o =>
    if s.boot.stage = .ethBoot then
      match missing s.boot.segs o.total (2 * s.boot.segs.length + 2) 0 with
      | [] =>
        let img := assemble s.boot.segs o.total
        .next (if s.fwReason false img = 0 then s.startFw 2 img else s.bootAnew)
      | ms => .next (ms.foldl (fun (s : State) m => s.bootSend o.peer o.peerPort (bootMagic 4 ++ beBytes 4 m.1 ++ beBytes 4 m.2)) s)
    else .next s
  | none => .next s

/-- ETHERNET_BOOT_TIMEOUT: no valid image within 60 s. -/
def execEthernetBootTimeout (s : State) : Out :=
  .next (if s.boot.stage = .ethBoot then
    (if s.bootSel = 1 then
      let t := s.bootAnew.verifyFlash
      if t.boot.stage = .ethBoot then t.bootReq else t
     else s.bootAnew.bootReq) else s)

/-! ### Gauge (R456 to R461) -/

/-- Bytes of a record (Table 18.7). -/
def State.gaugeRecord (s : State) (r : GaugeRun) (result dramSlice : Nat) : List Byte :=
  leBytes 4 0x47415547 ++ leBytes 1 r.trigger ++ leBytes 1 result ++ leBytes 1 r.dies.length ++ leBytes 1 r.fails.length ++
    leBytes 8 r.start ++ leBytes 4 s.flash.age ++ leBytes 4 ((s.now - r.start) / 1000000) ++ leBytes 4 (s.obj Obj.RUNNING_SECVER) ++
    leBytes 1 dramSlice ++ zeros 3 ++ (padTo 64 s.boot.fwDigest).take 16 ++ zeros 16 ++ padTo 160 r.dies.flatten ++ r.fails.flatten

/-- A record is stored before the others, with its digest. -/
def State.storeRecord (s : State) (b : List Byte) (anew : Bool) : State :=
  { s with flash := { s.flash with records := ((b, digest64 b) :: (if anew then s.flash.records else s.flash.records.drop 1)).take 2 } }

/-- DRAM_SLICE of the run in progress: it advances at each run. -/
def State.gaugeSlice (s : State) : Nat := (s.flash.dramSlice + 15) % 16

/-- A Gauge run begins: its record is written as interrupted (R457, R458) (DEDUCED, log 42). -/
def State.gaugeBegin (s : State) (trigger : Nat) (custom : Bool) : State :=
  let r : GaugeRun := ⟨trigger, custom, s.now, 0, [], []⟩
  let s1 := (s.storeRecord (s.gaugeRecord r 2 s.flash.dramSlice) true)
  let s2 := { s1 with
    gauge := { s1.gauge with run := some r }
    flash := { s1.flash with runs := Sys2Proof.Machine.counted Obj.RUNS 32 (s1.flash.runs + 1), dramSlice := (s1.flash.dramSlice + 1) % 16 } }
  (((s2.setObj Obj.GAUGE_STATE 2).setObj Obj.GAUGE_DIE 0).raiseN Ev.GAUGE_START trigger)

/-- PCAP keeps a run from starting (R458). -/
def State.pcapLow (s : State) : Bool := decide (s.obj Obj.PCAP < 1500)

/-- A run that PCAP keeps from starting: its record holds RESULT 3. -/
def State.gaugeSkipped (s : State) (trigger : Nat) : State :=
  s.storeRecord (s.gaugeRecord ⟨trigger, false, s.now, 0, [], []⟩ 3 s.flash.dramSlice) true

/-- The record with RESULT 1 that no later run has answered: interrupted and skipped runs leave it in force (R461) (DEDUCED, log 42). -/
def FlashSt.failing (f : FlashSt) : List Byte :=
  match f.records.find? (fun q => decide (leAt q.1 5 1 ≤ 1)) with
  | some (r, d) => if leAt r 5 1 = 1 ∧ digest64 r = d then r else []
  | none => []

/-- DEGRADED and its record. -/
def State.markDegraded (s : State) (r : List Byte) : State :=
  { s.setObj Obj.DEGRADED (!r.isEmpty).toNat with gauge := { s.gauge with failed := r } }

/-- A run's record decides: a degraded device disables the ports with failed lanes; ports that it names no more train again (R461). -/
def State.judgeDegraded (s : State) (r : List Byte) : State :=
  (List.range 6).foldl (fun (t : State) p =>
    if t.portBarred p then (if s.portBarred p then t else t.portOff p)
    else if s.portBarred p && bit (s.obj Obj.PORT_ENABLE) p then t.portStart p else t) (s.markDegraded r)

/-- Step 7: a record that stands makes the device degraded from the start; its barred ports do not train (DEDUCED, log 42). -/
def State.startDegraded (s : State) : State :=
  if s.flash.failing.isEmpty then s
  else
    let t := s.markDegraded s.flash.failing
    (List.range 6).foldl (fun (s : State) p => if t.portBarred p then s.setPort p { s.port p with st := 0, trying := false } else s) t

/-- EV_DEGRADED with bytes 0 to 7 of the first fail entry. -/
def State.raiseDegraded (s : State) : State :=
  s.raiseN Ev.DEGRADED (match s.flash.records with | r :: _ => leAt r.1 224 8 | [] => 0)

/-- What follows a run: a full start goes on, a shutdown is complete, a test leaves Gauge idle. -/
def State.gaugeAfter (s : State) (trigger : Nat) : State :=
  let s1 := { s with gauge := { s.gauge with run := none }, boot := { s.boot with stage := if trigger = 4 then .memory else s.boot.stage } }
  (s1.setObj Obj.GAUGE_STATE (if s1.gauge.shut then 3 else 0)).setObj Obj.GAUGE_DIE 0xFF

/-- Step 6 of Table 18.8: the shutdown's Gauge run, or none below 1,500 W. -/
def State.gaugeShut (s : State) : State :=
  if s.pcapLow then (s.gaugeSkipped s.gauge.trig).setObj Obj.GAUGE_STATE 3 else s.gaugeBegin s.gauge.trig false

/-- After the record: a failed run raises EV_DEGRADED, a full start's one at step 10 unless it serves a shutdown (R461, Table 18.9).
A shutdown that waits for a test that is interrupted goes on to its own run (R463). -/
def State.gaugeNext (s : State) (trigger result : Nat) : State :=
  let t := (if result == 1 && (trigger != 4 || s.gauge.shut) then s.raiseDegraded else s).gaugeAfter trigger
  if result == 2 && (trigger == 3 || trigger == 5) && t.gauge.shut then t.gaugeShut else t

/-- A run ends: RESULT 0, 1 or 2; every byte of memory is open (R457) (DEDUCED, log 26; DEDUCED, log 42). -/
def State.gaugeEnd (s : State) (r : GaugeRun) (result : Nat) : State :=
  let b := s.gaugeRecord r result s.gaugeSlice
  let s1 := s.storeRecord b false
  let s2 := { s1 with
    mem := s1.mem.opened s1.mem.gen
    gauge := { s1.gauge with passed := s1.gauge.passed || decide (result ≤ 1) } }
  let s3 := s2.raiseN Ev.GAUGE_DONE (result + r.fails.length * 2 ^ 8)
  (if result = 2 then s3 else s3.judgeDegraded (if result = 1 then b else [])).gaugeNext r.trigger result

/-- Entry of a die in DIES; fail entries of the die. -/
def dieEntry (d : DieResult) (die : Nat) : List Byte :=
  leBytes 1 die ++ leBytes 1 (if d.fails = [] then 0 else 1) ++ zeros 2 ++ leBytes 2 d.stuckAt.toNat ++ leBytes 2 d.transition.toNat ++
    leBytes 2 d.sram.toNat ++ leBytes 2 d.dram.toNat ++ leBytes 2 d.lanes.toNat ++ zeros 2 ++ leBytes 4 d.duration.toNat ++
    leBytes 2 d.tjMax.toNat ++ leBytes 2 d.peakW.toNat ++ zeros 8
def dieFails (d : DieResult) (die : Nat) : List (List Byte) :=
  d.fails.map (fun f => leBytes 1 die ++ leBytes 1 f.1.toNat ++ leBytes 2 f.2.1.toNat ++ leBytes 4 f.2.2.toNat ++ zeros 8)

/-- GAUGE_DIE_DONE: the next die starts, or the record is rewritten. -/
def execGaugeDieDone (d : DieResult) (s : State) : Out :=
  match s.gauge.run with
  | none => .next s
  | some r =>
    let r1 := { r with dies := r.dies ++ [dieEntry d r.die], fails := (r.fails ++ dieFails d r.die).take 32, die := r.die + 1 }
    let s1 := if r.custom && s.obj Obj.DIRECT_EN == 1 then s.setDom Obj.CUSTOM_RESULT ((s.dom Obj.CUSTOM_RESULT ++ d.raw).take 16777216) else s
    if r1.die < 5 then .next ({ s1 with gauge := { s1.gauge with run := some r1 } }.setObj Obj.GAUGE_DIE r1.die)
    else .next (s1.gaugeEnd r1 (if r1.fails = [] then 0 else 1))

/-- GAUGE_TEMPERATURE_STOP: a junction of 100 °C ends the run at once. -/
def execGaugeTemperatureStop (s : State) : Out :=
  match s.gauge.run with
  | some r => .next (s.gaugeEnd r 2)
  | none => .next s

/-- Gauge may run (R456). -/
def State.gaugeFree (s : State) : Bool := s.jobIdle && s.sliceState == SLICE_NONE && s.gauge.run.isNone

/-- GAUGE_COMMAND TEST. -/
def cmdGaugeTest (s : State) : Ans :=
  if s.gaugeFree = false then s.no St.WRONG_STATE 0
  else if s.pcapLow then (s.gaugeSkipped 3).no St.INCONSISTENT 0
  else (s.gaugeBegin 3 false).ok

/-- GAUGE_COMMAND RUN_CUSTOM (R460). -/
def cmdRunCustom (s : State) : Ans :=
  if s.flash.lc ≠ 0 ∧ s.flash.lc ≠ 3 then s.no St.ACCESS_DENIED 0
  else if s.gaugeFree = false then s.no St.WRONG_STATE 0
  else if s.fwReason true (s.dom Obj.CUSTOM_PROG) ≠ 0 then s.no St.INCONSISTENT (s.fwReason true (s.dom Obj.CUSTOM_PROG))
  else if s.pcapLow then (s.gaugeSkipped 5).no St.INCONSISTENT 0
  else ((s.setDom Obj.CUSTOM_RESULT []).gaugeBegin 5 true).ok

/-! ### Start (R443, R455) -/

/-- START_KIND (R455): 0 for a quick start, else the first condition that fails. -/
def State.startKind (s : State) : Nat :=
  match s.flash.records with
  | [] => 1
  | (r, d) :: _ =>
    if digest64 r ≠ d then 7
    else if leAt r 5 1 = 1 then 2
    else if leAt r 5 1 ≠ 0 then 3
    else if s.flash.ageLost ∨ 168 * 3600 ≤ s.flash.age - leAt r 16 4 then 4
    else if slice r 32 16 ≠ (padTo 64 s.boot.fwDigest).take 16 then 5
    else if s.flash.forceFull then 6
    else 0

/-- DRAM_TRAINED: memory is zero, and the record decides how the start goes on (steps 6 and 7). -/
def execDramTrained (s : State) : Out :=
  if s.boot.stage = .firmware then
    let k := s.startKind
    let s1 := (({ s with mem := s.mem.zeroed }).setObj Obj.START_KIND k).startDegraded
    if k = 0 then .next { s1 with boot := { s1.boot with stage := .memory } }
    else
      let s2 := { s1 with flash := { s1.flash with forceFull := false } }
      if s2.pcapLow then .next { s2.gaugeSkipped 4 with boot := { s2.boot with stage := .memory } }
      else .next ({ s2 with boot := { s2.boot with stage := .fullStart } }.gaugeBegin 4 false)
  else .next s

/-! ### The shutdown (R462, R463) -/

/-- Step 5 and 6 of Table 18.8: image, slice, then Gauge unless a run of this power cycle serves, or PCAP is too low. -/
def State.shutFinish (s : State) : State :=
  let j := s.jobState
  let s1 := if j = JOB_LOADED ∨ j = JOB_STOPPED ∨ j = JOB_REFUSED then s.unloadJob else s
  let s2 := if s1.sliceState = SLICE_OPENING ∨ s1.sliceState = SLICE_OPEN then (s1.flood .close).leaveOpen none else s1
  let s3 := if s2.sliceState = SLICE_NONE then s2 else s2.dissolve
  if s3.gauge.passed then s3.setObj Obj.GAUGE_STATE 3
  else s3.gaugeShut

/-- Steps 3 and 4: the job has ended, and the stream is durable or the grace has ended. -/
def State.shutProgress (s : State) : State :=
  let j := s.jobState
  let ended := decide (j ≠ JOB_STARTING ∧ j ≠ JOB_RUNNING ∧ j ≠ JOB_STOPPING ∧ j ≠ JOB_CHECKING)
  if s.gauge.shut && s.obj Obj.GAUGE_STATE == 1 && ended &&
      (!s.gauge.grace || s.obj Obj.STREAM_MODE == 0 || decide (s.obj Obj.STREAM_OFFSET ≤ s.obj Obj.STREAM_DURABLE)) then
    s.shutFinish
  else s

/-- Steps 1 and 2. -/
def State.shutBegin (s : State) (trig : Nat) : State :=
  let s1 := { s.setObj Obj.GAUGE_STATE 1 with gauge := { s.gauge with shut := true, grace := true, trig := trig } }.raiseN Ev.SHUTDOWN_REQ 0
  (if s1.jobState = JOB_RUNNING then s1.stopJob else s1).shutProgress

/-- A shutdown is asked for (R462, Table 18.9): during a start it begins at step 10; it waits for a run in progress, which
serves for it, a full start's run always (DEDUCED, log 42; DEDUCED, log 43). -/
def State.shutAsk (s : State) (trig : Nat) : State :=
  if s.gauge.shut ∨ s.boot.shutAtReady then s
  else if s.boot.stage = .fullStart ∨ (s.boot.stage = .ready ∧ s.gauge.run.isSome) then
    { s with gauge := { s.gauge with shut := true, trig := trig } }.raiseN Ev.SHUTDOWN_REQ 0
  else if s.boot.stage = .ready then s.shutBegin trig
  else { s with boot := { s.boot with shutAtReady := true }, gauge := { s.gauge with trig := trig } }

/-- SHUTDOWN_REQ_N changes; low starts the shutdown. -/
def execShutdownReqN (level : Bool) (s : State) : Out :=
  let t := { s with board := { s.board with shutdownReqN := level } }
  .next (if level = false ∧ s.boot.stage ≠ .held then t.shutAsk 1 else t)

/-- GAUGE_COMMAND SHUTDOWN. -/
def cmdGaugeShutdown (s : State) : Ans := (s.shutAsk 2).ok

/-- SHUTDOWN_GRACE: the grace has ended; a job still running is aborted (DEDUCED, log 19). -/
def execShutdownGrace (s : State) : Out :=
  if s.gauge.shut ∧ s.gauge.grace ∧ s.obj Obj.GAUGE_STATE = 1 then
    let t := { s with gauge := { s.gauge with grace := false } }
    let j := t.jobState
    .next (if j = JOB_STARTING ∨ j = JOB_RUNNING ∨ j = JOB_STOPPING then t.abortJob else t).shutProgress
  else .next s

/-- READY: step 10. A shutdown asked for during the start, or by a pin that is still low, begins; one that a full start's run
has served is complete (DEDUCED, log 42). -/
def execReady (s : State) : Out :=
  if s.boot.stage = .memory ∧ s.gauge.run = none ∧ s.obj Obj.GAUGE_STATE ≠ 3 then
    let s1 := ({ s with boot := { s.boot with stage := .ready } }.setObj Obj.BOOT_TIME (s.now / 1000000)).raiseN Ev.READY (s.obj Obj.START_KIND)
    let s2 := if s1.obj Obj.DEGRADED = 1 then s1.raiseDegraded else s1
    .next (if s2.boot.shutAtReady then { s2 with boot := { s2.boot with shutAtReady := false } }.shutAsk s2.gauge.trig
      else if s2.board.shutdownReqN then s2 else s2.shutAsk 1)
  else .next s

/-! ### Firmware commands (R449) -/

/-- DEDUCED, log 41. -/
def cmdFwStage (s : State) : Ans :=
  let img := s.dom Obj.FW_IMAGE
  let r := s.fwReason false img
  if r ≠ 0 then (((s.setObj Obj.FW_STATE 4).setObj Obj.FW_REASON r).raiseN Ev.FW_REFUSED r).ok
  else
    let n := 1 - s.flash.active
    let s1 := { s with flash := { s.flash with banks := Sparse.set Config.bank s.flash.banks n img, pending := some n } }
    ((s1.setObj Obj.FW_STATE 3).raiseN Ev.FW_STAGED (leAt img 16 4)).ok

def cmdFwCommit (s : State) : Ans :=
  if s.flash.pending.isSome then s.no St.WRONG_STATE 0
  else ({ s with flash := { s.flash with floorSecver := max s.flash.floorSecver (s.obj Obj.RUNNING_SECVER) } }).ok

def cmdFwCancel (s : State) : Ans :=
  ({ s with flash := { s.flash with pending := none } }.setObj Obj.FW_STATE 0).ok

/-! ### Pins and I²C (R441, R468, R470, R473, R479) -/

/-- STATUS[2:0] (Table 18.2). -/
def State.statusPins (s : State) : Nat :=
  match s.boot.stage with
  | .held => 7
  | .failed => 0
  | st =>
    if s.obj Obj.GAUGE_STATE = 3 then 2
    else if s.gauge.shut then 3
    else if s.obj Obj.DEGRADED = 1 then 1
    else if st ≠ .ready then 6
    else if s.jobIdle then 5 else 4

/-- EVENT_N is driven low (R479). -/
def State.eventLow (s : State) : Bool :=
  s.up && s.board.eventEn && (List.range 4).any (fun c =>
    let p := s.ev.cp c
    p.pend.any (fun q => decide (0x10 ≤ q.src) && decide (s.board.eventLevel ≤ s.ev.prioOf q.src)) ||
      p.active.any (fun a => decide (0x10 ≤ a.1) && decide (s.board.eventLevel ≤ a.2))) ||
  (s.up && s.board.eventEn && s.ev.held.any (fun q => decide (0x10 ≤ q.src) && decide (s.board.eventLevel ≤ s.ev.prioOf q.src)))

/-- A temperature as I16 in units of 0.1 °C (DEDUCED, log 43). -/
def tenths (c : Nat) : Nat := (fToI32 .rne (fmul b32 .rne c 0x41200000).1).1 % 65536

/-- An I²C register (Table 19.5). -/
def State.i2cReg (s : State) (p : Nat) : Nat :=
  match p with
  | 0 => 0x5C04
  | 1 => s.statusPins + 8 * s.obj Obj.DEGRADED + 16 * s.board.thermAlert.toNat + 32 * s.board.tripUnread.toNat
  | 2 => s.obj Obj.VIN
  | 3 => s.board.iin % 65536
  | 4 => s.obj Obj.P_AVG
  | 5 => tenths ((List.range 4).foldl (fun m i => if f32Key m < f32Key (s.obj (Obj.PANEL_TJ + i)) then s.obj (Obj.PANEL_TJ + i) else m)
      (s.obj Obj.PANEL_TJ))
  | 6 => tenths (s.obj Obj.COLLAR_TJ)
  | 7 => tenths (s.obj Obj.TPLATE)
  | 8 => s.obj Obj.PCAP
  | _ => 0

/-- I2C_POINTER_WRITE: one byte sets the pointer. -/
def execI2cPointerWrite (pointer : Byte) (s : State) : Out :=
  .next (if s.up then { s with board := { s.board with i2cPtr := pointer.toNat } }.raiseN Ev.I2C 0 else s)

/-- I2C_READ: two bytes of the register, and the pointer advances (DEDUCED, log 43). -/
def execI2cRead (s : State) : Out :=
  .next (if s.up then { s.emit (.i2c (s.i2cReg s.board.i2cPtr)) with board := { s.board with i2cPtr := (s.board.i2cPtr + 1) % 256 } } else s)

/-- PPS_OUT_PULSE: a whole second of the timebase. -/
def execPpsOutPulse (s : State) : Out :=
  .next (if s.up ∧ s.board.ppsOutEn ∧ 1 ≤ s.obj Obj.TB_STATE ∧ s.obj Obj.TB_STATE ≤ 4 then { s with board := { s.board with ppsOut := true } } else s)

/-- APPLY on 0x2003: it acts from the next period (R479). -/
def applyBoard (s : State) (slot : Nat) : Ans := (s.take slot [Obj.EVENT_EN, Obj.EVENT_LEVEL, Obj.PPS_OUT_EN]).ok

end Sys2Proof.Machine
end

