-- ==== Sys2Proof/Machine/Events.lean ====
section
/-! DEFINITION. What the control processors do at the event controller: EVACK, EVDONE, EVCP, sleep; APPLY on 0x2400 (R425 to R432).
An occurrence itself is `State.raise` of Ops. -/

namespace Sys2Proof.Machine

/-- Held occurrences are routed, oldest first; one that still finds no candidate stays held (R425) (DEDUCED, log 40). -/
def EvSt.routeHeld (e : EvSt) : EvSt :=
  e.held.foldl (fun (e : EvSt) (q : Pend) => (e.route q.src q.detail).1) { e with held := [] }

/-- A pending source is deliverable at a CP (R426). -/
def EvSt.deliverable (e : EvSt) (p : CpSt) (q : Pend) : Bool :=
  !p.mask && decide (p.cppri ≤ e.prioOf q.src) && !p.active.any (fun a => a.1 == q.src)

/-- The deliverable source of highest priority, the lowest number among equals. -/
def EvSt.best (e : EvSt) (p : CpSt) : Option Pend :=
  (p.pend.filter (e.deliverable p)).foldl (fun (b : Option Pend) q =>
    match b with
    | none => some q
    | some x =>
      let a := e.prioOf q.src
      let c := e.prioOf x.src
      if c < a ∨ (c = a ∧ q.src < x.src) then some q else some x) none

/-- The value that EVACK returns for a delivery (Table 17.3). -/
def ackValue (prio src count : Nat) : Nat := 2 ^ 63 + prio % 32 * 2 ^ 58 + src % 512 * 2 ^ 48 + count % 65536

/-- A read of EVACK at a CP. -/
def EvSt.ack (e : EvSt) (c : Nat) : EvSt :=
  let p := e.cp c
  match e.best p with
  | some q =>
    let a := e.prioOf q.src
    e.setCp c { p with
      pend := p.pend.filter (fun (x : Pend) => x.src != q.src)
      delivered := p.delivered + q.count
      evdet := q.detail
      active := p.active ++ [(q.src, a)]
      lastSrc := q.src
      ackRead := BitVec.ofNat 64 (ackValue a q.src q.count) }
  | none => e.setCp c { p with ackRead := 0 }

/-- The control processor runs. -/
def State.cpRuns (s : State) (c : Nat) : Bool := s.up && !(s.ev.cp c).sleeping

def execEvack (cp : CpId) (s : State) : Out := .next (if s.cpRuns cp.val then { s with ev := s.ev.ack cp.val } else s)

/-- EVDONE: bits 8:0 name the source completed (R427, R429) (DEDUCED, log 40). -/
def EvSt.finish (e : EvSt) (c src : Nat) : EvSt :=
  let p := e.cp c
  if p.active.any (fun a => a.1 == src) then
    e.setCp c { p with completions := p.completions + 1, active := p.active.filter (fun a => a.1 != src) }
  else e.setCp c { p with completions := p.completions + 1, spurious := p.spurious + 1 }

def execEvdone (cp : CpId) (value : Word64) (s : State) : Out :=
  .next (if s.cpRuns cp.val then { s with ev := s.ev.finish cp.val (value.toNat % 512) } else s)

/-- A write of EVCP: FLOOR, ONLINE, MASK. A reserved FLOOR leaves FLOOR as it was (R426). -/
def EvSt.writeCp (e : EvSt) (c v : Nat) : EvSt :=
  let p := e.cp c
  let e1 := e.setCp c { p with floor := if bits v 13 8 ≤ 32 then bits v 13 8 else p.floor, online := bit v 1, mask := bit v 0 }
  if bit v 1 && !p.online then e1.routeHeld else e1

def execEvcpWrite (cp : CpId) (value : Word64) (s : State) : Out :=
  .next (if s.cpRuns cp.val then { s with ev := s.ev.writeCp cp.val value.toNat } else s)

/-- EVCP as it reads (Table 17.2). -/
def CpSt.evcp (p : CpSt) : Nat :=
  p.lastSrc * 2 ^ 32 + p.cppri * 2 ^ 16 + p.floor * 2 ^ 8 + p.sleeping.toNat * 4 + p.online.toNat * 2 + p.mask.toNat

/-- SLEEP: it returns at once while any occurrence is pending (R428). -/
def execSleep (cp : CpId) (s : State) : Out :=
  let p := s.ev.cp cp.val
  .next (if s.cpRuns cp.val ∧ p.pend = [] then { s with ev := s.ev.setCp cp.val { p with sleeping := true } } else s)

/-- APPLY on 0x2400 (R432). -/
def applyEventSource (s : State) (slot : Nat) : Ans :=
  let c := s.cand slot
  let src := c Obj.EVT_SRC
  if Ev.listed src = false ∨ src < 0x40 then s.no St.INCONSISTENT 0x10
  else
    let t := s.take slot [Obj.EVT_SRC, Obj.EVT_PRIORITY, Obj.EVT_TARGETS]
    ({ t with ev := { t.ev with
      prio := Sparse.set Ev.defaultPrio t.ev.prio src (c Obj.EVT_PRIORITY)
      targets := Sparse.set Ev.defaultTargets t.ev.targets src (c Obj.EVT_TARGETS) } }).ok

/-- SOURCES (Table 17.6). -/
def State.sourcesBytes (s : State) : List Byte :=
  (List.range 512).flatMap (fun k =>
    let act := (List.range 4).foldl (fun v c => if (s.ev.cp c).active.any (fun a => a.1 == k) then v + 2 ^ c else v) 0
    let at_ := s.ev.pendingAt k
    let n := match at_ with | some c => (match (s.ev.cp c).pendOf k with | some q => q.count | none => 0) | none => 0
    leBytes 1 ((if Ev.listed k then 1 else 0) + (if k < 0x40 then 2 else 0)) ++ leBytes 1 (s.ev.prioOf k) ++ leBytes 1 (s.ev.targetsOf k) ++
      zeros 1 ++ leBytes 4 (Sparse.get (fun _ => 0) s.ev.occ k) ++ leBytes 2 n ++ leBytes 2 (s.ev.heldOf k) ++ leBytes 1 act ++
      leBytes 1 (at_.getD 0xFF) ++ zeros 2)

/-- CPS (Table 17.6). -/
def State.cpsBytes (s : State) : List Byte :=
  (List.range 4).flatMap (fun c =>
    let p := s.ev.cp c
    leBytes 4 p.evcp ++ leBytes 8 p.raised ++ leBytes 8 p.delivered ++ leBytes 4 (p.pend.foldl (fun n q => n + q.count) 0) ++
      leBytes 8 p.completions ++ leBytes 4 p.spurious ++ zeros 4)

end Sys2Proof.Machine
end

