-- ==== Sys2Proof/Machine/SiteTime.lean ====
section
/-! DEFINITION. The timebase and its discipline (R58 to R61): REFCLK, PPS_IN, satellite time, two-way time transfer, suspect
offsets and round-trip estimators (14). -/

namespace Sys2Proof.Machine

/-! ### The increment (R58 to R61) -/

/-- INC at −200 ppm and at +200 ppm of nominal, and 200 ppm of nominal. -/
def minInc : Nat := 27482293136
def maxInc : Nat := 27493288252
def ppm200 : Nat := 5497558

/-- REFCLK increment in force: INC, moved while an offset is slewed away (R60). -/
def TbSt.refInc (t : TbSt) : Nat :=
  if 0 < t.slew then max minInc (t.inc.toNat - t.slewBy)
  else if t.slew < 0 then min maxInc (t.inc.toNat + t.slewBy)
  else t.inc.toNat

/-- Increment that the timebase adds now. -/
def TbSt.present (t : TbSt) : Nat := if t.onOsc then Config.oscInc.toNat else t.refInc

/-- TB_ADJ: deviation of the REFCLK increment from nominal, parts per 10^9, truncated. -/
def TbSt.adj (t : TbSt) : Int := Int.tdiv (((t.refInc : Int) - (incNominal.toNat : Int)) * 1000000000) incNominal.toNat

/-- One cycle of the timebase. What the cycle moves toward an offset's removal leaves the offset. -/
def TbSt.cycle (t : TbSt) : TbSt :=
  let moved : Int := if t.onOsc then 0 else (t.inc.toNat : Int) - t.refInc
  let rest := t.slew - moved
  { t with
    acc := t.acc + BitVec.ofNat 96 t.present
    slew := if (0 < t.slew ∧ rest < 0) ∨ (t.slew < 0 ∧ 0 < rest) then 0 else rest }

/-- One REFCLK cycle of the device (DESIGN CHOICE, log 18): the timebase, the age counter, PPS_OUT, the charge of time to phases, and the
shutdown's wait. -/
def State.tick (s : State) : State :=
  if s.boot.stage = .held then s
  else
    let t := { s with tb := s.tb.cycle }
    let secs := t.now / 1000000000 - s.now / 1000000000
    let t1 := { t with
      flash := { t.flash with age := t.flash.age + secs }
      board := { t.board with ppsOut := t.board.ppsOut && decide (t.now % 1000000000 < 10000000) } }
    (t1.chargeCores (t.now - s.now)).shutProgress

/-! ### States, log, corrections -/

/-- A free integer (DESIGN CHOICE, log 44). -/
def freeInt (n : Nat) : Int := if n % 2 = 0 then (n / 2 : Nat) else -((n / 2 : Nat) : Int)

/-- TB_STATE changes; it reads 4 while the on-collar oscillator counts. -/
def State.tbState (s : State) (v : Nat) : State := if s.tb.onOsc then s else s.setObj Obj.TB_STATE v
def State.timeState (s : State) (v : Nat) : State := s.setObj Obj.TIME_STATE v

/-- Prediction of the offset: what the last accepted sample left, and what is still to be slewed (R376). -/
def TbSt.prediction (t : TbSt) : Int := t.predict + Int.tdiv t.slew (2 ^ 32)

/-- A record enters TIME_LOG (Table 14.5). -/
def State.timeLog (s : State) (kind applied : Nat) (rtt pred meas : Int) : State :=
  let r := leBytes 8 s.now ++ leBytes 1 kind ++ leBytes 1 (s.obj Obj.REF_MEMBER) ++ leBytes 1 applied ++ zeros 1 ++
    leBytes 4 (unsigned 32 rtt) ++ leBytes 8 (unsigned 64 pred) ++ leBytes 8 (unsigned 64 meas)
  { s with tb := { s.tb with log := (r :: s.tb.log).take 16 } }

/-- EV_TIME_*: MEASURED − PREDICTED. -/
def State.timeEvent (s : State) (src : Nat) (pred meas : Int) : State := s.raiseN src (unsigned 64 (meas - pred))

/-- The slew that removes an offset: the device is ahead by `off` (DESIGN CHOICE, log 44). -/
def State.slewOff (s : State) (off : Int) : State :=
  { s with tb := { s.tb with slew := off * 2 ^ 32, slewBy := 1 + s.free % ppm200 }, freeCtr := s.freeCtr + 1 }

/-- A forward step in whole nanoseconds. -/
def State.stepTime (s : State) (ns : Nat) : State :=
  { s with tb := { s.tb with acc := s.tb.acc + BitVec.ofNat 96 (ns * 2 ^ 32), slew := 0 } }

/-- An accepted offset is applied: a step when the device is behind by `least` ns or more, else a slew (R371, R377). The
answer is APPLIED of the log. -/
def State.correct (s : State) (least : Int) (off : Int) : Nat × State :=
  if off < 0 ∧ off ≤ -least then (2, s.stepTime (-off).toNat) else if off = 0 then (0, s) else (1, s.slewOff off)

/-- Suspicion ends. -/
def State.clearSuspect (s : State) : State :=
  { s.setObj Obj.TIME_FLAGS (clrBit (s.obj Obj.TIME_FLAGS) 0) with tb := { s.tb with suspects := [], clearRun := 0, asymNew := false } }

/-- A sample moves INC within its bounds; the manual gives neither the filter nor the control law, so INC, OFFSET and the
measured drift are free. `base` is the offset that the sample leaves (DESIGN CHOICE, log 44). -/
def State.discipline (s : State) (base : Int) : State :=
  let f := fun i => Config.freeNat (s.freeCtr + i)
  let off := unsigned 64 (freeInt (f 1))
  let s1 := { s with
    tb := { s.tb with inc := BitVec.ofNat 40 (minInc + f 0 % (maxInc - minInc + 1)), predict := base + freeInt (f 2) }
    freeCtr := s.freeCtr + 3 }
  let s2 := (s1.setObj Obj.OFFSET off).tbState 2
  if s.tb.mode = 0 then s2 else s2.timeState (if (signed 64 off).natAbs ≤ 100 then 2 else 1)

/-- The first offset since reset or the last change of mode (R371) (DESIGN CHOICE, log 44). -/
def State.firstOffset (s : State) (rtt off : Int) : State :=
  if 1000000000 < off then
    let p := s.tb.prediction
    ((s.timeState 5).timeLog 7 0 rtt p off).timeEvent Ev.TIME_REFUSED p off
  else
    let t := (s.correct 1 off).2
    { t with tb := { t.tb with accepted := true } }.discipline 0

/-! ### REFCLK (R61) -/

/-- A discipline source is enabled (R59) (DEDUCED, log 45). -/
def State.sourceOn (s : State) : Bool := s.obj Obj.PPS_ENABLE == 1 || s.tb.mode != 0

/-- An Ethernet port goes to LINK_STATE 0 (DEDUCED, log 47). -/
def State.ethDown (s : State) (e : Nat) : State :=
  if s.obj (Obj.LINK_STATE + 256 * e) = 0 then s
  else (s.setObj (Obj.LINK_STATE + 256 * e) 0).inc32 (Obj.LINK_DOWNS + 256 * e)

/-- REFCLK_LOST: 2 µs without an edge. -/
def execRefclkLost (s : State) : Out :=
  if s.boot.stage = .held ∨ s.tb.onOsc = true then .next s
  else
    let s1 := (s.setObj Obj.TB_STATE 4).setObj Obj.TB_FLAGS (setBit (s.obj Obj.TB_FLAGS) 0)
    let s2 : State := { s1 with tb := { s1.tb with onOsc := true } }
    let s3 := s2.raiseN Ev.REFCLK_LOST (s2.obj Obj.P_SAMPLE)
    let s4 := (List.range 6).foldl (fun (s : State) p => if (s.port p).st ≠ 0 ∨ (s.port p).trying then s.portDown p else s) s3
    .next ((s4.ethDown 0).ethDown 1)

/-- REFCLK_RETURN: after 1 ms of steady edges. -/
def execRefclkReturn (s : State) : Out :=
  if s.tb.onOsc = true then
    let s1 : State := { s with tb := { s.tb with onOsc := false } }
    let s2 := s1.setObj Obj.TB_STATE (if s1.sourceOn then 3 else 1)
    .next ((List.range 6).foldl (fun (s : State) p => if (s.port p).st = 4 ∧ bit (s.obj Obj.PORT_ENABLE) p then s.portStart p else s) s2)
  else .next s

/-! ### PPS_IN and satellite time (R59, R372) -/

/-- Nanoseconds of a TB_FULL value. -/
def nsOf (t : BitVec 80) : Nat := t.toNat / 2 ^ 16

/-- Whole seconds between two times, rounded. -/
def secsBetween (a b : Nat) : Nat := (b - a + 500000000) / 1000000000

/-- A labelled edge in SAT mode: the offset is the edge's time less its second (DEDUCED, log 45). -/
def State.satSample (s : State) (edge sec : Nat) : State :=
  let off : Int := (edge : Int) - sec * 1000000000
  if s.tb.accepted then ((s.correct 1000 off).2).discipline 0 else s.firstOffset 0 off

/-- The second of the edge that arrives now (R372): TOD_NEXT's, else as many seconds after the last edge's as have passed (DEDUCED, log 45). -/
def State.edgeSecond (s : State) (edge : Nat) : Option Nat :=
  match s.tb.tod with
  | some (sec, t) => if s.obj Obj.TOD_SRC = 1 ∧ t + 10000000 ≤ edge then some sec else s.tb.label.map (· + secsBetween (nsOf s.tb.lastPps) edge)
  | none => s.tb.label.map (· + secsBetween (nsOf s.tb.lastPps) edge)

/-- TOD_NEXT has labelled its edge. -/
def State.todDue (s : State) (edge : Nat) : Bool :=
  match s.tb.tod with
  | some (_, t) => s.obj Obj.TOD_SRC == 1 && decide (t + 10000000 ≤ edge)
  | none => false

/-- An edge of PPS_IN at a timebase value. -/
def State.ppsEdge (s : State) (at_ : BitVec 80) : State :=
  let edge := nsOf at_
  let sec := s.edgeSecond edge
  let s1 := { s with tb := { s.tb with lastPps := at_, label := sec, tod := if s.todDue edge then none else s.tb.tod } }
  if s.obj Obj.PPS_ENABLE = 1 then
    let back := s1.tb.ppsLost && decide (s1.tb.mode = 1)
    let s2 := { s1 with tb := { s1.tb with ppsLive := true, ppsLost := false } }
    let s3 := if back then s2.timeLog 5 0 0 s2.tb.prediction s2.tb.prediction else s2
    if s3.tb.mode = 1 then
      match sec with
      | some n => s3.satSample edge n
      | none => (s3.discipline 0).timeState 1
    else s3.discipline 0
  else s1

/-- PPS_EDGE: so many eighths of a REFCLK cycle, 0.8 ns each, after the last REFCLK edge. Without REFCLK the input is not
sampled (Table 3.4) (DEDUCED, log 45). -/
def execPpsEdge (eighth : Fin 8) (s : State) : Out :=
  .next (if s.boot.stage = .held ∨ s.tb.onOsc = true then s
    else s.ppsEdge (((s.tb.acc + BitVec.ofNat 96 (s.tb.present * eighth.val / 8)) >>> 16).setWidth 80))

/-- PPS_LOST: 1.5 s without an expected edge. -/
def execPpsLost (s : State) : Out :=
  if s.boot.stage ≠ .held ∧ s.obj Obj.PPS_ENABLE = 1 ∧ s.tb.ppsLost = false then
    let s1 := { s with tb := { s.tb with ppsLive := false, ppsLost := true } }
    let s2 := ((s1.setObj Obj.TB_FLAGS (setBit (s1.obj Obj.TB_FLAGS) 1)).tbState 3).raiseN Ev.PPS_LOST (s1.obj Obj.P_SAMPLE)
    .next (if s2.tb.mode = 1 then (s2.timeState 4).timeLog 4 0 0 s2.tb.prediction s2.tb.prediction else s2)
  else .next s

/-- A write of PPS_ENABLE. Without a source, INC stays and the timebase holds over (R59). -/
def State.enablePps (s : State) (v : Nat) : State :=
  let t := s.setObj Obj.PPS_ENABLE v
  let u := { t with tb := { t.tb with ppsLive := false, ppsLost := false } }
  if v = 0 ∧ s.tb.ppsLive = true ∧ u.obj Obj.TB_STATE = 2 then u.tbState 3 else u

/-- A write of TOD_NEXT. -/
def cmdTodNext (s : State) (sec : Nat) : Ans := ({ s with tb := { s.tb with tod := some (sec, s.now) } }).ok

/-- PTP_MESSAGE: an exchange with a time transmitter gives its time at this moment; the newest edge takes its second
(R372) (DEDUCED, log 47). -/
def execPtpMessage (port : EthId) (domain : Byte) (gm time : BitVec 64) (s : State) : Out :=
  let id := beBytes 8 gm.toNat
  let want := s.dom Obj.PTP_GM_ID
  let follow := if allZero want then (match s.tb.gm with | none => true | some g => g == id) else want == id
  if s.up ∧ s.obj (Obj.PTP_EN + 256 * port.val) = 1 then
    let s0 := s.frameIn port.val
    if s.tb.mode = 1 ∧ s.obj Obj.TOD_SRC = 0 ∧ domain.toNat = s.obj Obj.PTP_DOMAIN ∧ follow = true then
      let s1 := { s0 with tb := { s0.tb with gm := some id } }
      let edge := nsOf s.tb.lastPps
      let at_ : Int := (time.toNat : Int) - (s.now - edge : Nat)
      let sec := ((at_ + 500000000) / 1000000000).toNat
      if s.tb.ppsLive = true ∧ (at_ - (sec : Int) * 1000000000).natAbs ≤ 100000 then
        let s2 := { s1 with tb := { s1.tb with label := some sec } }
        .next (if s.tb.label = none then s2.satSample edge sec else s2)
      else .next s1
    else .next s0
  else .next s

/-! ### Two-way time transfer (R373 to R378) -/

/-- Lowest live member. -/
def State.refMember (s : State) : Option Nat := (List.range 64).find? s.isLiveMember

/-- The reference's station; none when this device is the reference, or when the station is not known. -/
def State.refPeer (s : State) (m : Nat) : Option Peer :=
  let p := if m = s.selfId then (s.member ownKey).peer else s.speaker m
  if (m = s.selfId ∧ s.isAnchor) ∨ p.addr = 0 then none else some p

/-- Send a TIME_PROBE that leaves `later` ns from now; unanswered probes older than 1 s are forgotten. -/
def State.sendProbe (s : State) (p : Peer) (purpose later : Nat) : State :=
  let n := Sparse.get (fun _ => 0) s.tb.probeSeq p.key
  let t1 := s.now + later
  let live := s.tb.probes.filter (fun q => decide (s.now ≤ q.2.2.2 + 1000000000))
  let s1 := { s with tb := { s.tb with
    probeSeq := Sparse.set (fun _ => 0) s.tb.probeSeq p.key ((n + 1) % 2 ^ 32)
    probes := live ++ [(p.key, n, purpose, t1)] } }
  s1.fxpSingle p 0x40 0 0 (beBytes 4 n ++ beBytes 1 purpose ++ zeros 3 ++ beBytes 8 t1 ++ zeros 8)

/-- ASYM of a reference member, ns. -/
def asymOf (b : List Byte) (m : Nat) : Int := if m < 64 then signed 32 (leAt b (4 * m) 4) else 0

/-- Median, as the mean of the two middle ones where the count is even. -/
def insInt (x : Int) : List Int → List Int
  | [] => [x]
  | y :: ys => if x ≤ y then x :: y :: ys else y :: insInt x ys
/-- DEDUCED, log 46. -/
def median (xs : List Int) : Int :=
  let ys := xs.foldr insInt []
  let n := ys.length
  if n % 2 = 1 then nth 0 ys (n / 2) else Int.tdiv (nth 0 ys (n / 2 - 1) + nth 0 ys (n / 2)) 2

/-- An interval sample is suspect (R376). -/
def State.suspect (s : State) (rtt off : Int) : State :=
  let p := s.tb.prediction
  let s1 := (((s.setObj Obj.TIME_FLAGS (setBit (s.obj Obj.TIME_FLAGS) 0)).tbState 3).timeState 3).inc32 Obj.SUSPECTS
  let s2 := { s1 with tb := { s1.tb with suspects := [(s1.now, off)], clearRun := 0 } }
  (s2.timeLog 1 0 rtt p off).timeEvent Ev.TIME_SUSPECT p off

/-- An offset is accepted under the correction rule and logged with a kind. -/
def State.acceptOffset (s : State) (kind : Nat) (rtt off : Int) : State :=
  let p := s.tb.prediction
  let r := s.clearSuspect.correct 1000 off
  (r.2.discipline 0).timeLog kind r.1 rtt p off

/-- A sample that arrives while TIME_SUSPECT is set (R377). -/
def State.suspectSample (s : State) (rtt off : Int) : State :=
  let p := s.tb.prediction
  let run := if (off - p).natAbs ≤ 2000 then s.tb.clearRun + 1 else 0
  let all := s.tb.suspects ++ [(s.now, off)]
  let m := median (all.map Prod.snd)
  let first := match all with | q :: _ => q.1 | [] => s.now
  let s1 := fun (w : List (Nat × Int)) => { s with tb := { s.tb with suspects := w, clearRun := run } }
  if s.tb.asymNew then s.acceptOffset 3 rtt off
  else if 8 ≤ run then (s.clearSuspect.discipline off).timeLog 3 0 rtt p off
  else if all.any (fun q => decide (500 < (q.2 - m).natAbs)) then s1 [(s.now, off)]
  else if first + 64000000000 ≤ s.now then
    (if 58 ≤ all.length then ((s.acceptOffset 2 rtt m).timeEvent Ev.TIME_ACCEPTED p m).inc32 Obj.ACCEPTS else s1 [(s.now, off)])
  else s1 all

/-- An interval sample is judged. PPS_IN is preferred while its edges discipline the timebase (R59); INC is held while
REFCLK is lost (R61) (DEDUCED, log 46). -/
def State.judge (s : State) (rtt off : Int) : State :=
  let s1 := if s.obj Obj.TIME_STATE = 4 then (s.timeState (if bit (s.obj Obj.TIME_FLAGS) 0 then 3 else 1)).timeLog 5 0 rtt s.tb.prediction off else s
  if (s1.obj Obj.PPS_ENABLE = 1 ∧ s1.tb.ppsLive = true) ∨ s1.tb.onOsc = true then s1
  else if s1.tb.accepted = false then s1.firstOffset rtt off
  else if bit (s1.obj Obj.TIME_FLAGS) 0 then s1.suspectSample rtt off
  else if 2000 < (off - s1.tb.prediction).natAbs then s1.suspect rtt off
  else s1.discipline off

/-- The interval's sample: the one with the smallest round trip (R373) (DEDUCED, log 46). -/
def bestSample (xs : List (Int × Int)) : Option (Int × Int) :=
  xs.foldl (fun b x => match b with | none => some x | some y => if x.1 < y.1 then some x else some y) none

/-- The burst of an interval is judged. -/
def State.closeBurst (s : State) : State :=
  match bestSample s.tb.burst with
  | some (rtt, off) => { s with tb := { s.tb with burst := [] } }.judge rtt off
  | none => s

/-- A mode begins to act (R371, R382). Without a source the timebase holds over (R59). -/
def State.enterMode (s : State) (m : Nat) : State :=
  let t := { s.clearSuspect with tb := { s.clearSuspect.tb with
    mode := m, accepted := false, predict := 0, label := none, gm := none, silent := 0, heard := false, burst := [] } }
  let u := if t.obj Obj.TB_STATE = 2 ∧ t.tb.ppsLive = false then t.tbState 3 else t
  (u.timeState (if m = 0 then 0 else 1)).setObj Obj.REF_MEMBER 0xFF

/-- TWTT_INTERVAL has passed (DEDUCED, log 46). -/
def State.twttInterval (s : State) : State :=
  let s1 := if s.tb.mode = s.obj Obj.TIME_MODE then s else s.enterMode (s.obj Obj.TIME_MODE)
  if s1.tb.mode = 2 ∧ s1.obj Obj.FED_STATE ≠ 0 then
    let s2 := s1.closeBurst
    match s2.refMember with
    | none => s2
    | some m =>
      let old := s2.obj Obj.REF_MEMBER
      let s3 := if old = m then { s2 with tb := { s2.tb with silent := if s2.tb.heard then 0 else s2.tb.silent + 1, heard := false } }
        else
          let t := { s2.setObj Obj.REF_MEMBER m with tb := { s2.tb with silent := 0, heard := false } }
          if old = 0xFF then t else t.timeLog 6 0 0 t.tb.prediction t.tb.prediction
      match s3.refPeer m with
      | some p => (List.range 4).foldl (fun (s : State) i => s.sendProbe p 1 (i * 1000000)) s3
      | none => { s3 with tb := { s3.tb with silent := 0 } }
  else s1

def execTwttInterval (s : State) : Out := .next (if s.up then s.twttInterval else s)

/-- REFERENCE_SILENT: ten intervals without a reply (R378). -/
def execReferenceSilent (s : State) : Out :=
  .next (if s.up ∧ s.tb.mode = 2 ∧ 10 ≤ s.tb.silent ∧ s.obj Obj.TIME_STATE ≠ 4 then
    ((s.tbState 3).timeState 4).timeLog 4 0 0 s.tb.prediction s.tb.prediction else s)

/-! ### Round trips (R374, R379, R380) -/

/-- TIME_PROBE is answered at once: it is received and its reply leaves at this moment. -/
def execTimeProbe (d : Dgram) (s : State) : Out :=
  .next (s.onDatagram d 0x40 (fun h b t =>
    if b.length = 24 then
      t.fxpSingle (stationOf d h) 0x41 0 0 (slice b 0 5 ++ beBytes 1 (t.obj Obj.TB_STATE) ++ zeros 2 ++ slice b 8 8 ++
        beBytes 8 t.now ++ beBytes 8 t.now ++ zeros 8)
    else t))

/-- One sample enters an estimator; the answer's second part is the stretch of a restart. -/
def Rtt.sample (e : Rtt) (r : Int) : Rtt × Int :=
  let sigma := max e.rttvar 10000
  if ((r - e.srtt).natAbs : Int) ≤ 4 * sigma then
    ({ e with rttvar := Int.tdiv (3 * e.rttvar) 4 + Int.tdiv (e.srtt - r).natAbs 4
              srtt := Int.tdiv (7 * e.srtt) 8 + Int.tdiv r 8, held := [] }, 0)
  else
    let same := e.held.all (fun x => decide (e.srtt < x) == decide (e.srtt < r))
    let held := if same then e.held ++ [r] else [r]
    if 3 ≤ held.length then
      let m := median held
      ({ e with srtt := m, rttvar := Int.tdiv m 2, restarts := e.restarts + 1, held := [] }, m - e.srtt)
    else ({ e with held := held }, 0)

/-- A round trip of a peer (DEDUCED, log 46). -/
def State.roundTrip (s : State) (p : Peer) (r : Int) : State :=
  match Sparse.get (fun _ => none) s.fxp.rtt p.key with
  | none => { s with fxp := { s.fxp with rtt := Sparse.set (fun _ => none) s.fxp.rtt p.key (some ⟨p.member, p.chip, r, Int.tdiv r 2, 0, []⟩) } }
  | some e =>
    let x := e.sample r
    let t := { s with fxp := { s.fxp with rtt := Sparse.set (fun _ => none) s.fxp.rtt p.key (some x.1) } }
    if 0 < x.2 then t.setObj Obj.STRETCH (x.2.toNat % 2 ^ 32) else t

/-- Differences of 64-bit times. -/
def diff64 (a b : Nat) : Int := signed 64 (unsigned 64 ((a : Int) - b))

/-- A reply to a probe that still counts: round trip, and for a TWTT probe the interval's samples (R374, R375). -/
def State.onTimeReply (s : State) (p : Peer) (b : List Byte) : State :=
  let seq := beAt b 0 4
  let purpose := beAt b 4 1
  let t1 := beAt b 8 8
  let t2 := beAt b 16 8
  let t3 := beAt b 24 8
  let t4 := s.now
  if b.length = 40 ∧ s.tb.probes.contains (p.key, seq, purpose, t1) = true ∧ t4 ≤ t1 + 1000000000 then
    let s1 := { s with tb := { s.tb with probes := s.tb.probes.filter (· ≠ (p.key, seq, purpose, t1)) } }
    let rtt := diff64 t4 t1 - diff64 t3 t2
    let s2 := s1.roundTrip p rtt
    if purpose = 1 ∧ s2.tb.mode = 2 ∧ p.member = s2.obj Obj.REF_MEMBER then
      let a := asymOf (s2.dom Obj.ASYM) p.member
      let off := Int.tdiv (a - (diff64 t2 t1 - diff64 t4 t3)) 2
      let s3 := { s2 with tb := { s2.tb with heard := true, silent := 0, burst := s2.tb.burst ++ [(rtt, off)] } }
      if 4 ≤ s3.tb.burst.length then s3.closeBurst else s3
    else s2
  else s

def execTimeReply (d : Dgram) (s : State) : Out :=
  .next (s.onDatagram d 0x41 (fun h b t => t.onTimeReply (stationOf d h) b))

/-- Stations that the device probes: peers of transfers, the other speakers for a speaker, data servers with an outstanding
request (R379). -/
def State.probed (s : State) : List Peer :=
  let tx := (s.fxp.tx.map (fun x => x.peer)).filter (fun p => p.chip != 0xFFFF)
  let speakers := if s.isAnchor && s.obj Obj.FED_STATE != 0 then (s.liveOthers.map s.speaker).filter (fun p => p.addr != 0) else []
  let servers := s.feed.reqs.map (fun q => endpointOf (s.dom (Obj.ENDPOINT + q.ep)))
  (tx ++ speakers ++ servers).eraseDups

def execProbeInterval (s : State) : Out :=
  .next (if s.up then s.probed.foldl (fun (s : State) p => s.sendProbe p 0 0) s else s)

/-! ### Objects (R382) -/

/-- TIME_LOG. -/
def State.timeLogObj (s : State) : List Byte := padTo 512 s.tb.log.flatten

/-- RTT. -/
def State.rttObj (s : State) : List Byte :=
  s.fxp.rtt.flatMap (fun q => match q.2 with
    | some e => leBytes 2 e.chip ++ leBytes 1 e.member ++ zeros 1 ++ leBytes 4 (unsigned 32 e.srtt) ++ leBytes 4 (unsigned 32 e.rttvar) ++
        leBytes 4 e.restarts
    | none => [])

/-- APPLY on 0x1300. -/
def applySiteTime (s : State) (slot : Nat) : Ans :=
  let mode := s.cand slot Obj.TIME_MODE
  if mode = 1 ∧ s.obj Obj.PPS_ENABLE = 0 then s.no St.INCONSISTENT 0x10
  else if mode = 2 ∧ s.obj Obj.FED_STATE = 0 then s.no St.INCONSISTENT 0x10
  else
    let ref := s.obj Obj.REF_MEMBER
    let moved := asymOf (s.dom Obj.ASYM) ref != asymOf (s.candB slot Obj.ASYM) ref
    let t := (s.take slot [Obj.TIME_MODE, Obj.TOD_SRC, Obj.PTP_DOMAIN, Obj.TWTT_INTERVAL, Obj.PROBE_INTERVAL]).takeB slot [Obj.PTP_GM_ID, Obj.ASYM]
    ({ t with tb := { t.tb with asymNew := t.tb.asymNew || (moved && bit (t.obj Obj.TIME_FLAGS) 0) } }).ok

end Sys2Proof.Machine
end

