-- ==== Sys2Proof/Machine/Ethernet.lean ====
section
/-! DEFINITION. The Ethernet ports (R385 to R388): addresses, what they answer and discard, links, APPLY on 0x1200 and
0x1201. An object of port e has the key of port 0's plus 256 * e. -/

namespace Sys2Proof.Machine

/-- Key of a port's object. -/
def ethKey (k e : Nat) : Nat := k + 256 * (e % 2)

/-- The link-local address (R387): fe80::/64 with the modified EUI-64 of the MAC address. -/
def linkLocal (mac : Nat) : List Byte :=
  beBytes 2 0xfe80 ++ zeros 6 ++ beBytes 3 ((mac / 2 ^ 24 ^^^ 0x020000) % 2 ^ 24) ++ beBytes 2 0xfffe ++ beBytes 3 (mac % 2 ^ 24)

/-- MAC address of a port. -/
def macOf (e : EthId) : Nat := Config.mac e % 2 ^ 48

/-- FRAMES. -/
def State.framesObj (s : State) (e : Nat) : List Byte :=
  let x := s.ethSt e
  leBytes 8 x.sent ++ leBytes 8 x.rcvd ++ leBytes 8 x.fcs ++ leBytes 8 x.dropped

/-- The port's link-local or configured IPv6 address. -/
def State.holdsV6 (s : State) (e : EthId) (a : BitVec 128) : Bool :=
  decide (a.toNat = ofBe (linkLocal (macOf e))) ||
    (decide (a ≠ 0) && decide (a.toNat = ofBe (padTo 16 (s.dom (ethKey Obj.IPV6_ADDR e.val)))))
/-- Its configured IPv4 address. -/
def State.holdsV4 (s : State) (e : EthId) (a : BitVec 32) : Bool := decide (a ≠ 0) && decide (a.toNat = s.obj (ethKey Obj.IPV4_ADDR e.val))
/-- Either, an IPv4 address as its IPv4-mapped one. -/
def State.holdsAddr (s : State) (e : EthId) (a : BitVec 128) : Bool :=
  s.holdsV6 e a || (decide (a >>> 32 = 0xffff) && s.holdsV4 e (a.setWidth 32))

/-- A frame is discarded. -/
def State.frameDrop (s : State) (e : EthId) : State := s.setEth e.val { s.ethSt e.val with dropped := (s.ethSt e.val).dropped + 1 }

/-- A frame of the port's own traffic is answered, or discarded when it does not concern the port. -/
def State.answer (s : State) (e : EthId) (mine : Bool) (m : Msg) : State :=
  let t := s.frameIn e.val
  if mine then t.emit m else t.frameDrop e

/-- DEDUCED, log 47. -/
def execArpRequest (port : EthId) (addr : BitVec 32) (s : State) : Out :=
  .next (if s.boot.stage = .held then s else s.answer port (s.holdsV4 port addr) (.arp port.val addr (macOf port)))
def execNeighbourSolicitation (port : EthId) (addr : BitVec 128) (s : State) : Out :=
  .next (if s.boot.stage = .held then s else s.answer port (s.holdsV6 port addr) (.neighbour port.val addr (macOf port)))
def execEchoRequest (port : EthId) (peer addr : BitVec 128) (data : List Byte) (s : State) : Out :=
  .next (if s.boot.stage = .held then s else s.answer port (s.holdsAddr port addr) (.echo port.val peer addr data))

/-- FRAME_DISCARD: any other frame or packet, or one whose FCS fails. -/
def execFrameDiscard (port : EthId) (fcs : Bool) (s : State) : Out :=
  let t := s.frameIn port.val
  .next (if s.boot.stage = .held then s
    else if fcs then t.setEth port.val { t.ethSt port.val with fcs := (t.ethSt port.val).fcs + 1 } else t.frameDrop port)

/-- ETHERNET_LINK_UP at 400G, 200G or 100G: with a SPEED of Table 15.2 at that one, with auto-negotiation at any. -/
def execEthernetLinkUp (port : EthId) (mode : Fin 3) (s : State) : Out :=
  let sp := s.obj (ethKey Obj.SPEED port.val)
  .next (if s.boot.stage ≠ .held ∧ s.tb.onOsc = false ∧ s.obj (ethKey Obj.LINK_STATE port.val) < 2 ∧ (sp = 0 ∨ sp = mode.val + 1) then
    s.setObj (ethKey Obj.LINK_STATE port.val) (mode.val + 2) else s)

def execEthernetLinkDown (port : EthId) (s : State) : Out := .next (s.ethDown port.val)

/-- A gateway lies in its address's prefix. -/
def inPrefix (width len addr gw : Nat) : Bool := decide (gw / 2 ^ (width - len) = addr / 2 ^ (width - len))

/-- Numeric and DOMAIN fields of the group. -/
def ethNums (e : Nat) : List Nat :=
  [Obj.MEDIA, Obj.SPEED, Obj.MAX_FRAME, Obj.VLAN, Obj.PCP, Obj.IPV6_PREFIX, Obj.IPV4_ADDR, Obj.IPV4_MASK, Obj.IPV4_GW, Obj.DAP_EN, Obj.PTP_EN].map
    (ethKey · e)
def ethDoms (e : Nat) : List Nat := [Obj.IPV6_ADDR, Obj.IPV6_GW].map (ethKey · e)

/-- APPLY on 0x1200 or 0x1201. The response leaves first (R388) (DEDUCED, log 47). -/
def applyEthernetPort (e : EthId) (s : State) (slot : Nat) : Ans :=
  let c := fun k => s.cand slot (ethKey k e.val)
  let a6 := ofBe (padTo 16 (s.candB slot (ethKey Obj.IPV6_ADDR e.val)))
  let g6 := ofBe (padTo 16 (s.candB slot (ethKey Obj.IPV6_GW e.val)))
  if c Obj.SPEED = 0 ∧ c Obj.MEDIA = 1 then s.no St.INCONSISTENT 0x02
  else if a6 ≠ 0 ∧ (c Obj.IPV6_PREFIX = 0 ∨ 128 < c Obj.IPV6_PREFIX) then s.no St.INCONSISTENT 0x07
  else if c Obj.IPV4_ADDR ≠ 0 ∧ (c Obj.IPV4_MASK = 0 ∨ 32 < c Obj.IPV4_MASK) then s.no St.INCONSISTENT 0x0A
  else if g6 ≠ 0 ∧ inPrefix 128 (c Obj.IPV6_PREFIX) a6 g6 = false then s.no St.INCONSISTENT 0x08
  else if c Obj.IPV4_GW ≠ 0 ∧ inPrefix 32 (c Obj.IPV4_MASK) (c Obj.IPV4_ADDR) (c Obj.IPV4_GW) = false then s.no St.INCONSISTENT 0x0B
  else if c Obj.MAX_FRAME < s.obj Obj.FRAG_PAYLOAD + 110 then s.no St.INCONSISTENT 0x03
  else if c Obj.PTP_EN = 1 ∧ s.obj (ethKey Obj.PTP_EN (1 - e.val)) = 1 then s.no St.INCONSISTENT 0x0D
  else
    let retrain := c Obj.MEDIA != s.obj (ethKey Obj.MEDIA e.val) || c Obj.SPEED != s.obj (ethKey Obj.SPEED e.val)
    let t := (s.take slot (ethNums e.val)).takeB slot (ethDoms e.val)
    (if retrain && s.tb.onOsc == false then t.setObj (ethKey Obj.LINK_STATE e.val) 1 else t).ok

end Sys2Proof.Machine
end

