-- ==== Sys2Proof/Machine/Lifecycle.lean ====
section
/-! DEFINITION. Enrolled keys, lifecycle transitions and their tokens, attestation (R404, R450 to R454). -/

namespace Sys2Proof.Machine

/-! ### Enrolled keys (R404) -/

/-- An empty slot: role 0 and 57 zero bytes. -/
def KeySlot.empty : KeySlot := ⟨0, zeros 57⟩
def FlashSt.keyAt (f : FlashSt) (i : Nat) : KeySlot := Sparse.get (fun _ => KeySlot.empty) f.keys i
def FlashSt.setKey (f : FlashSt) (i : Nat) (x : KeySlot) : FlashSt := { f with keys := Sparse.set (fun _ => KeySlot.empty) f.keys i x }

/-- A slot other than `but` holds a key with a role. -/
def FlashSt.hasRole (f : FlashSt) (role but : Nat) : Bool := (List.range 16).any (fun i => i != but && (f.keyAt i).role == role)

/-- Role under which a key is enrolled. -/
def FlashSt.roleOf (f : FlashSt) (pub : List Byte) : Option Nat :=
  ((List.range 16).find? (fun i => (f.keyAt i).role != 0 && (f.keyAt i).key == pub)).map (fun i => (f.keyAt i).role)

/-- KEYS. -/
def State.keysObj (s : State) : List Byte :=
  (List.range 16).flatMap (fun i =>
    let x := s.flash.keyAt i
    leBytes 1 x.role ++ zeros 7 ++ (if x.role = 0 then zeros 8 else keyIdOf x.key) ++ padTo 57 x.key ++ zeros 7)

/-- Sessions of a key end. -/
def State.endKey (s : State) (id : List Byte) : State :=
  (List.range 8).foldl (fun (s : State) i => if (s.session i).live && (s.session i).keyId == id then s.endSession i else s) s

/-- OWNER_KEY_ID of the image in force names the key. -/
def State.ownsImage (s : State) (x : KeySlot) : Bool :=
  match s.job.image with
  | some im => x.role == 2 && im.ownerKey == keyIdOf x.key
  | none => false

/-- APPLY on 0x1002 (DEDUCED, log 49; DEDUCED, log 51). -/
def applyKeys (s : State) (slot : Nat) : Ans :=
  let i := s.cand slot Obj.KEY_SLOT
  let role := s.cand slot Obj.KEY_ROLE
  let pub := padTo 57 (s.candB slot Obj.KEY_PUB)
  let old := s.flash.keyAt i
  let new : KeySlot := if role = 0 then KeySlot.empty else ⟨role, pub⟩
  if old ≠ new ∧ s.ownsImage old = true then s.no St.WRONG_STATE 1
  else if s.flash.lc ≠ 0 ∧ role ≠ 1 ∧ s.flash.hasRole 1 i = false then s.no St.INCONSISTENT 1
  else if role ≠ 0 ∧ (ed448Valid pub = false ∨ (List.range 16).any (fun j => j != i && (s.flash.keyAt j).role != 0 && (s.flash.keyAt j).key == pub) = true) then
    s.no St.INCONSISTENT 3
  else
    let t := (s.take slot [Obj.KEY_SLOT, Obj.KEY_ROLE]).takeB slot [Obj.KEY_PUB]
    let u := { t with flash := t.flash.setKey i new }
    (if old ≠ new ∧ old.role ≠ 0 then u.endKey (keyIdOf old.key) else u).ok

/-! ### Lifecycle transitions (R450 to R452) -/

/-- LC_NONCE as its eight bytes. -/
def State.nonce (s : State) : List Byte := beBytes 8 (s.obj Obj.LC_NONCE)

/-- LC_NONCE is renewed. -/
def State.renewNonce (s : State) : State := { s.setObj Obj.LC_NONCE (ofBe (s.draw 8)) with freeCtr := s.freeCtr + 1 }

/-- The service token: VALID_S and SVC_KEY of a token that matches the device. -/
def State.serviceToken (s : State) (b : List Byte) : Option (Nat × List Byte) :=
  if b.length = 203 ∧ beAt b 0 4 = 0x53564354 ∧ slice b 4 8 = deviceKeyId ∧ slice b 12 8 = s.nonce then
    match rootNamed 2 (slice b 81 8) with
    | some k => if ed448Verify (Config.rootKey k) (ascii "SGN4-SVC" ++ b.take 89) (b.drop 89) then some (beAt b 20 4, slice b 24 57) else none
    | none => none
  else none

/-- The retirement token, signed by the requesting session's key. -/
def State.retireToken (s : State) (slot : Nat) (b : List Byte) : Bool :=
  decide (b.length = 114) && ed448Verify (s.session slot).pub (ascii "SGN4-RETIRE" ++ deviceKeyId ++ s.nonce) b

/-- Classes that may ask for a transition; none when it is not listed (Table 18.5). -/
def lcAskers (old new : Nat) : Option (List Nat) :=
  if new = 4 ∧ old ≠ 4 then some [5, 2, 4]
  else if old = 0 ∧ new = 1 then some [5]
  else if old = 1 ∧ new = 2 then some [2]
  else if old = 2 ∧ new = 1 then some [2]
  else if old = 2 ∧ new = 3 then some [2]
  else if old = 3 ∧ new = 2 then some [2, 4]
  else none

/-- Its condition holds. -/
def State.lcReady (s : State) (new : Nat) : Bool :=
  if s.flash.lc = 0 ∧ new = 1 then s.flash.hasRole 1 16
  else if s.flash.lc = 1 ∧ new = 2 then s.flash.hasRole 2 16
  else if s.flash.lc = 2 ∧ new = 3 then !bit s.boot.straps.toNat 14
  else true

/-- Its token passes. -/
def State.lcTokenOk (s : State) (slot new : Nat) (b : List Byte) : Bool :=
  if new = 4 then s.retireToken slot b
  else if new = 3 then (s.serviceToken b).isSome
  else b.isEmpty

/-- The transition with its effect besides the state. -/
def State.lcGo (s : State) (new : Nat) (token : List Byte) : State :=
  let old := s.flash.lc
  if new = 4 then
    { s with flash := { s.flash with keys := [], wrapGen := none, identityGone := true } }.lcEnter 4 true
  else if old = 0 then { s with flash := { s.flash with wrapGen := some 0 } }.lcEnter 1 false
  else if old = 2 ∧ new = 1 then
    let owners := (List.range 16).filter (fun i => (s.flash.keyAt i).role == 2)
    let t := owners.foldl (fun (s : State) i => s.endKey (keyIdOf (s.flash.keyAt i).key)) s
    { t with flash := owners.foldl (fun f i => f.setKey i KeySlot.empty) t.flash }.lcEnter 1 false
  else if new = 3 then
    let t := s.lcEnter 3 true
    { t with service := (s.serviceToken token).map (fun q => ⟨q.2, t.now / 1000000000 + q.1⟩) }
  else s.lcEnter new (old == 3)

/-- APPLY on 0x1001 (DEDUCED, log 49). -/
def applyLifecycle (s : State) (slot : Nat) : Ans :=
  let new := s.cand slot Obj.LC_TARGET
  let token := s.candB slot Obj.LC_TOKEN
  match lcAskers s.flash.lc new with
  | none => s.no St.WRONG_STATE 0
  | some cs =>
    if cs.contains (s.session slot).cls = false then s.no St.ACCESS_DENIED 0
    else if s.lcReady new = false then s.no St.WRONG_STATE 2
    else if s.jobState ≠ JOB_EMPTY ∧ s.jobState ≠ JOB_REFUSED then s.no St.WRONG_STATE 0
    else if s.lcTokenOk slot new token = false then s.renewNonce.no St.ACCESS_DENIED 0
    else (((s.take slot [Obj.LC_TARGET]).takeB slot [Obj.LC_TOKEN]).lcGo new token).ok

/-! ### Attestation (R454) -/

/-- DEVICE_CERT. -/
def certObj : List Byte := padTo 219 Config.deviceCert

/-- ATT_REPORT as a session reads it. -/
def State.attReport (s : State) (slot : Nat) : List Byte :=
  let flags := s.obj Obj.DEGRADED + 2 * s.obj Obj.DEBUG_EN + 4 * s.obj Obj.DEBUG_GRANT + (if bit s.boot.straps.toNat 14 then 0 else 8) +
    (if s.obj Obj.BOOT_SOURCE = 2 then 16 else 0)
  let bank := if s.obj Obj.BOOT_SOURCE = 2 then 0xFF else s.obj Obj.BOOT_SOURCE
  let gauge := match s.flash.records with | (r, _) :: _ => (digest64 r).take 16 | [] => zeros 16
  let body := beBytes 4 0x41545354 ++ beBytes 8 (s.obj Obj.ID_REV) ++ deviceKeyId ++ beBytes 1 s.flash.lc ++ beBytes 1 flags ++
    beBytes 1 bank ++ zeros 1 ++ beBytes 4 (s.obj Obj.RUNNING_SECVER) ++ beBytes 4 s.flash.floorSecver ++ padTo 64 s.boot.fwDigest ++
    (if s.job.image.isSome then padTo 64 (s.dom Obj.DIGEST) else zeros 64) ++ gauge ++ beBytes 8 s.now ++
    (padTo 64 (s.session slot).agreeH).take 32 ++ zeros 8
  body ++ ed448Sign Config.identitySecret (ascii "SGN4-ATTEST" ++ body)

end Sys2Proof.Machine
end

