-- ==== Sys2Proof/Machine/Mail.lean ====
section
/-! DEFINITION. CP_MAIL (R237): what the control processors of a slice, or of a jersey in closed mode, pass to each other. The
manual lays its contents out nowhere (DEDUCED, log 12). -/

namespace Sys2Proof.Machine

/-- Mail of the control processors' own waits for them, the newest 64 pieces (DEDUCED, log 48). -/
def State.keepMail (s : State) (chip : Nat) (b : List Byte) : State :=
  { s with torus := { s.torus with mail := (((chip, b) :: s.torus.mail.reverse).take 64).reverse } }

/-- Mail between the devices of one slice (DEDUCED, log 48). -/
def State.onMail (s : State) (chip : Nat) (m : Mail) : State :=
  match m with
  | .raw b => s.keepMail chip b
  | .rsDigest d => if s.isAnchor then s.reshDigest chip d else s
  | .rsGo => if chip = s.anchorChip then s.reshGo else s
  | .rsNogo => if chip = s.anchorChip then s.reshNogo else s
  | .rsFields fs => s.reshFields fs
  | .rsDone => s.reshDone chip
  | .snapRequest => if s.isAnchor then s.snapFix else s
  | .snapAt c => if chip = s.anchorChip then s.snapAgree c else s
  | _ => s.onFedMail chip m

/-- CP_MAIL. A management message carries at most 992 bytes; mail that concerns the job comes from a device of the slice. -/
def execCpMail (src : ChipId) (m : Mail) (s : State) : Out :=
  let t := s.takeMgmt src.toNat 0x20
  match m with
  | .raw b => if 992 < b.length then .fault .illFormed else .next (t.keepMail src.toNat b)
  | m => .next (if s.inSlice src.toNat then t.onMail src.toNat m else t)

end Sys2Proof.Machine
end

