-- ==== Sys2Proof/Machine/Dict.lean ====
section
/-! DEFINITION. The object dictionary as it is read and written: what each object shows, the rights of the session classes, and
what a write or an APPLY does (R383 to R399, R404, R405). -/

namespace Sys2Proof.Machine

/-! ### What objects show -/

/-- Seconds of SERVICE left. -/
def State.serviceLeft (s : State) : Nat := match s.service with | some v => v.until_ - s.now / 1000000000 | none => 0
/-- RECORD_AGE. -/
def State.recordAge (s : State) : Nat :=
  match s.flash.records with
  | (r, _) :: _ => if s.flash.ageLost then 0xFFFFFFFF else s.flash.age - leAt r 16 4
  | [] => 0xFFFFFFFF

/-- Value of a numeric object to a session. -/
def State.numOf (s : State) (slot k : Nat) : Nat :=
  if k = Obj.TB_NOW then s.now
  else if k = Obj.TB_INC then s.tb.refInc
  else if k = Obj.TB_ADJ then unsigned 32 s.tb.adj
  else if k = Obj.IMAGE_BYTES then (s.dom Obj.IMAGE).length
  else if k = Obj.WINDOW_COUNT then s.windows.length
  else if k = Obj.LOGICAL_POS then s.posOfChip s.chip
  else if k = Obj.ROUTE_FREE then 4096 - s.torus.routes.length
  else if Obj.PORT_STATE ≤ k ∧ k < Obj.PORT_STATE + 6 then (s.port (k - Obj.PORT_STATE)).st
  else if Obj.PORT_PEER ≤ k ∧ k < Obj.PORT_PEER + 6 then (s.port (k - Obj.PORT_PEER)).peer
  else if k = Obj.UNVERIFIED then s.unverified
  else if k = Obj.RECORDS_VALID then s.recordsValid
  else if k = Obj.LAYERS then s.layers.length
  else if k = Obj.PIN_TOTAL then s.pinTotal
  else if hpObjs.contains k then nth 0 (s.hpSet (s.obj Obj.HP_SET)) (k - 0x320011)
  else if k = Obj.NEXT_COORD then s.nextCoord
  else if k = Obj.MAC then macOf 0
  else if k = Obj.MAC + 256 then macOf 1
  else if k = Obj.LC_STATE then s.flash.lc
  else if k = Obj.THIS_SLOT then slot
  else if k = Obj.STREAM_FREE then s.ringFree
  else if k = Obj.IV_EPOCH then s.flash.ivEpoch
  else if k = Obj.STRAPS then s.boot.straps.toNat
  else if k = Obj.SERVICE_LEFT then s.serviceLeft
  else if k = Obj.RECORD_AGE then s.recordAge
  else if k = Obj.FORCE_FULL then s.flash.forceFull.toNat
  else if k = Obj.RUNS then s.flash.runs
  else if k = Obj.FLOOR_SECVER then s.flash.floorSecver
  else if k = Obj.THERM_TRIPS then s.flash.thermTrips
  else s.obj k

/-- WINDOWS (Table 8.13). -/
def State.windowsObj (s : State) : List Byte :=
  s.windows.flatMap (fun w => leBytes 1 w.cls ++ leBytes 1 w.kind ++ leBytes 1 3 ++ zeros 1 ++
    leBytes 2 w.borrower ++ zeros 2 ++ leBytes 8 w.base ++ leBytes 8 w.limit ++ zeros 8)

/-- DMA_DESC: for each swatch its free, queued and active descriptors. -/
def State.dmaDescObj (s : State) : List Byte :=
  (List.range 192).flatMap (fun w =>
    let xs := s.dma.xfers.filter (fun q => q.2.swatch == w)
    let act := (xs.filter (fun q => q.2.active)).length
    leBytes 1 (32 - xs.length) ++ leBytes 1 (xs.length - act) ++ leBytes 1 act)

/-- SKEIN and STREAMS (Table 10.10). -/
def State.skeinObj (s : State) : List Byte :=
  leBytes 2 (384 - s.slotsClaimed) ++ leBytes 2 s.slotsClaimed ++ (List.range 384).flatMap (fun i =>
    let r := s.coll.slot i
    leBytes 2 r.entry ++ leBytes 1 r.stream ++ leBytes 1 r.role ++ leBytes 4 r.issue ++ leBytes 4 r.chunk ++ leBytes 1 r.epoch ++ zeros 3)
def State.streamsObj (s : State) : List Byte :=
  (List.range 32).flatMap (fun t =>
    let held := s.coll.slots.filter (fun q => q.2.stream == t)
    leBytes 4 (Sparse.get (fun _ => 0) s.coll.streamDone t) ++ leBytes 2 held.length ++
      leBytes 2 (held.filter (fun q => decide (64 ≤ q.1))).length ++ leBytes 4 (s.coll.waiting.filter (fun q => q.stream == t)).length ++ zeros 4)

/-- WINDOWS of 0x4000: peers of the transfers on their way. -/
def State.peersObj (s : State) : List Byte :=
  ((s.fxp.tx.map (fun x => x.peer)).eraseDups).flatMap (fun p =>
    let free := s.windowFree p.key
    leBytes 2 p.chip ++ leBytes 2 free ++ leBytes 2 (s.obj Obj.WINDOW - free) ++ zeros 2)

/-- SESSIONS (Table 15.12). -/
def State.sessionsObj (s : State) : List Byte :=
  (List.range 8).flatMap (fun i =>
    let x := s.session i
    if x.live then
      leBytes 1 1 ++ leBytes 1 x.cls ++ zeros 2 ++ leBytes 4 (x.value i) ++ padTo 8 x.keyId ++ beBytes 16 x.peer.toNat ++ leBytes 2 x.peerPort ++
        zeros 6 ++ leBytes 8 x.requests ++ leBytes 8 x.last ++ leBytes 2 x.reports.length ++ zeros 6
    else zeros 64)

/-- BANKS and ROOT_KEYS (Table 18.10). -/
def State.banksObj (s : State) : List Byte :=
  (List.range 2).flatMap (fun n =>
    let b := s.bankBytes n
    leBytes 1 (if s.fwReason false b = 0 then 1 else 0) ++ leBytes 1 (if s.flash.pending = some n then 1 else 0) ++
      leBytes 1 (if s.flash.active = n then 1 else 0) ++ zeros 1 ++ leBytes 4 (leAt b 16 4) ++ (digest64 b).take 16 ++ zeros 8)
def rootKeysObj : List Byte :=
  (List.range 4).flatMap (fun n =>
    leBytes 1 (Config.rootKeyState n) ++ leBytes 1 (Config.rootKeyRole n) ++ zeros 6 ++ keyIdOf (Config.rootKey n) ++ padTo 57 (Config.rootKey n) ++ zeros 7)

/-! ### Error counters (R433) -/

/-- Counters of 0x6100.01 to .06, in order of core or memory. -/
def State.errCounts (s : State) (j : Nat) : List Nat :=
  if j = 1 then (List.range 12288).map (fun c => (s.core c).invalid)
  else if j = 2 then (List.range 12288).map (fun c => (s.core c).permx)
  else if j = 3 then (List.range 12288).map (fun c => (s.core c).resCorr)
  else if j = 4 then (List.range 12288).map (fun c => (s.core c).resUncorr)
  else if j = 5 then (List.range 8).map (Sparse.get (fun _ => 0) s.mem.corr)
  else (List.range 8).map (Sparse.get (fun _ => 0) s.mem.uncorr)
def State.errObj (s : State) (j : Nat) : List Byte := (s.errCounts j).flatMap (leBytes (if j ≤ 4 then 4 else 8))
/-- TOTALS: each counter array's sum since reset (kept by State.total; a read of an array clears none of it). -/
def State.totalsObj (s : State) : List Byte :=
  [1, 2, 3, 4, 5, 6].flatMap (fun j => leBytes 8 (s.obj (0x61000000 + j)))
/-- A read clears the counters. -/
def State.errClear (s : State) (j : Nat) : State :=
  let cs := s.cores.map Prod.fst
  let each := fun (f : CoreSt → CoreSt) => cs.foldl (fun (s : State) c => s.setCore c (f (s.core c))) s
  if j = 1 then each (fun x => { x with invalid := 0 })
  else if j = 2 then each (fun x => { x with permx := 0 })
  else if j = 3 then each (fun x => { x with resCorr := 0 })
  else if j = 4 then each (fun x => { x with resUncorr := 0 })
  else if j = 5 then { s with mem := { s.mem with corr := [] } }
  else { s with mem := { s.mem with uncorr := [] } }

/-- Subindex of an object that 0x6100 keeps. -/
def errOf (k : Nat) : Option Nat := if Obj.CORE_INVALID ≤ k ∧ k < Obj.CORE_INVALID + 6 then some (k - Obj.CORE_INVALID + 1) else none

/-- Bytes of a STRING or DOMAIN object to a session. -/
def State.bytesOf (s : State) (slot k : Nat) : List Byte :=
  match errOf k with
  | some j => s.errObj j
  | none =>
    if k = Obj.TB_FULL then tbFullBytes s.tb80
    else if k = Obj.LAST_PPS then tbFullBytes s.tb.lastPps
    else if k = Obj.WINDOWS then s.windowsObj
    else if k = Obj.LAST_REFUSAL then padTo 24 s.mem.lastRefusal
    else if k = Obj.MEM_LOG then padTo 384 s.mem.log.flatten
    else if k = Obj.DMA_DESC then s.dmaDescObj
    else if k = Obj.ROUTE_TABLE then (List.range 4096).flatMap (fun i => leBytes 8 (Sparse.get (fun _ => 0) s.torus.routes i))
    else if Obj.PORT_COUNTS ≤ k ∧ k < Obj.PORT_COUNTS + 6 then (s.port (k - Obj.PORT_COUNTS)).counts
    else if k = Obj.CREDITS then (List.range 6).flatMap (fun p => (s.port p).creditBytes)
    else if k = Obj.SKEIN then s.skeinObj
    else if k = Obj.STREAMS then s.streamsObj
    else if k = Obj.RECORD then s.record (s.obj Obj.REC_INDEX)
    else if k = Obj.CHANNELS then s.channelsObj
    else if k = Obj.RINGS then s.ringsObj
    else if k = Obj.WINDOWS_4000 then s.peersObj
    else if k = Obj.TIME_LOG then s.timeLogObj
    else if k = Obj.RTT then s.rttObj
    else if k = Obj.LINK_LOCAL then linkLocal (macOf 0)
    else if k = Obj.LINK_LOCAL + 256 then linkLocal (macOf 1)
    else if k = Obj.FRAMES then s.framesObj 0
    else if k = Obj.FRAMES + 256 then s.framesObj 1
    else if k = Obj.SERIAL then Config.serial.take 32
    else if k = Obj.DEVICE_KEY then deviceKey
    else if k = Obj.DEVICE_KEY_ID then deviceKeyId
    else if k = Obj.KEYS then s.keysObj
    else if k = Obj.SESSIONS then s.sessionsObj
    else if k = Obj.SLOTS then s.slotsObj
    else if k = Obj.WRAP_PUB then s.wrapPub
    else if k = Obj.WRAP_SIG then s.wrapSig
    else if k = Obj.QUEUE then s.queueObj
    else if k = Obj.SOURCES then s.sourcesBytes
    else if k = Obj.CPS then s.cpsBytes
    else if k = Obj.TOTALS then s.totalsObj
    else if k = Obj.STATS then s.tenStats
    else if k = Obj.HIST then s.tenHist
    else if k = Obj.ATT_REPORT then s.attReport slot
    else if k = Obj.DEVICE_CERT then certObj
    else if k = Obj.GAUGE_RECORD then (match s.flash.records with | (r, _) :: _ => r | [] => [])
    else if k = Obj.BANKS then s.banksObj
    else if k = Obj.ROOT_KEYS then rootKeysObj
    else s.dom k

/-- An object's type is a byte string. -/
def ObjDef.isBytes (d : ObjDef) : Bool := d.ty == .str || d.ty == .domain

/-- The wire encoding of what a session reads (R384); a WO object reads as zero (R8). -/
def State.shows (s : State) (slot : Nat) (d : ObjDef) : List Byte :=
  if ObjDef.isBytes d then (if d.acc = .WO then [] else s.bytesOf slot d.key)
  else beBytes d.ty.bytes (if d.acc = .WO then 0 else s.numOf slot d.key % 2 ^ (8 * d.ty.bytes))

/-- What a read does besides answering (R8, R468). -/
def State.afterRead (s : State) (d : ObjDef) : State :=
  if d.acc = .RC then
    (match errOf d.key with
     | some j => s.errClear j
     | none => if ObjDef.isBytes d then s.setDom d.key [] else s.setObj d.key 0)
  else if d.key = Obj.THERM_TRIPS then { s with board := { s.board with tripUnread := false } }
  else s

/-! ### Rights (Table 15.8) -/

/-- Rights of OBS, OPR, OWN, SVC, PROV on an index: 0 none, 1 R, 2 RW; the notes come after. -/
def rightsRow (ix : Nat) : List Nat :=
  if ix ≤ 0x10FF then [1, 2, 1, 2, 2]
  else if ix = 0x1100 ∨ ix = 0x1200 ∨ ix = 0x1201 ∨ ix = 0x1300 then [1, 2, 1, 2, 2]
  else if 0x2000 ≤ ix ∧ ix ≤ 0x2400 then [1, 2, 1, 2, 1]
  else if ix = 0x3000 then [0, 1, 2, 2, 0]
  else if ix = 0x5100 then [0, 0, 2, 2, 0]
  else if 0x3100 ≤ ix ∧ ix ≤ 0x5000 then [0, 1, 2, 2, 0]
  else if ix = 0x6000 ∨ ix = 0x6100 then [1, 2, 2, 2, 1]
  else if ix = 0x7000 ∨ ix = 0x7100 then [1, 2, 1, 2, 2]
  else if 0xC000 ≤ ix then [0, 2, 2, 2, 2]
  else [0, 0, 0, 0, 0]

/-- A session class may read (`w` false) or write an object now; `v` is the value written. -/
def State.allows (s : State) (cls key v : Nat) (w : Bool) : Bool :=
  let ix := key / 256
  let level := nth 0 (rightsRow ix) (cls - 1)
  let base := decide ((if w then 2 else 1) ≤ level)
  if key = Obj.DEBUG_GRANT ∧ w then cls == 3
  else if key = Obj.DEBUG_EN ∧ w then cls == 4 || cls == 5
  else if ix ≤ 0x10FF ∧ cls = 2 ∧ w then ix == 0x1001 || ix == 0x1002
  else if ix = 0x3000 ∧ cls = 2 ∧ w then key == Obj.JOB_COMMAND && decide (3 ≤ v) && decide (v ≤ 5)
  else if 0xC000 ≤ ix ∧ cls ≠ 4 then
    base && (s.obj Obj.DEBUG_EN == 1 || ((cls == 2 || cls == 3) && s.obj Obj.DEBUG_GRANT == 1))
  else base

/-! ### APPLY (R398, R399) -/

/-- Key ID of an OWN session. -/
def State.ownId (s : State) (slot : Nat) : Option (List Byte) :=
  if (s.session slot).cls = 3 then some (s.session slot).keyId else none

/-- The check and effect of a group's APPLY (DEDUCED, log 49). -/
def State.groupApply (s : State) (slot ix : Nat) : Option Ans :=
  if ix = 0x1001 then some (applyLifecycle s slot)
  else if ix = 0x1002 then some (applyKeys s slot)
  else if ix = 0x1100 then some (s.take slot [Obj.DAP_PORT, Obj.SESSION_IDLE]).ok
  else if ix = 0x1200 then some (applyEthernetPort 0 s slot)
  else if ix = 0x1201 then some (applyEthernetPort 1 s slot)
  else if ix = 0x1300 then some (applySiteTime s slot)
  else if ix = 0x2000 then some (applyVoltage s slot)
  else if ix = 0x2003 then some (applyBoard s slot)
  else if ix = 0x2100 then some (applyTorus s slot)
  else if ix = 0x2200 then some (applySlice s slot)
  else if ix = 0x2400 then some (applyEventSource s slot)
  else if ix = 0x3100 then some (applyFeed s slot)
  else if ix = 0x3102 then some (applyReshard s slot)
  else if ix = 0x3200 then some (applyHyperparameters s slot)
  else if ix = 0x3300 then some (applyNormPolicy s slot)
  else if ix = 0x4000 then some (applyFederation s slot)
  else if ix = 0x4100 then some (applyCompression s slot)
  else if ix = 0x4200 then some (applyOuterRule s slot)
  else if ix = 0x5000 then some (applyExport s slot)
  else if ix = 0x5100 then some (applyKeySlot s slot (s.ownId slot))
  else if ix = 0x6000 then some (applyTension s slot)
  else if ix = 0xC010 then some (applyDebugDrain s slot)
  else if ix = 0xC020 then some (applyVbRead s slot)
  else none

/-- First field of the candidate outside its range; a byte string over its maximum cannot be staged. -/
def State.firstBad (s : State) (slot ix : Nat) : Option Nat :=
  ((Obj.group ix).find? (fun d =>
    if ObjDef.isBytes d then false
    else
      let v := if hpObjs.contains d.key then s.candHp slot d.key else s.cand slot d.key
      !d.rng.admits v || (d.ty == .bool && decide (1 < v)))).map (fun d => d.key % 256)

/-- Something of a group is staged; the group's staging is cleared. -/
def Session.stagedIn (x : Session) (ix : Nat) : Bool := x.staging.any (fun q => q.1 / 256 == ix)
def State.unstage (s : State) (slot ix : Nat) : State :=
  let x := s.session slot
  if x.live then s.setSession slot { x with staging := x.staging.filter (fun q => q.1 / 256 != ix) } else s

/-- APPLY. With nothing staged the group is checked and nothing changes. -/
def State.applyIx (s : State) (slot ix : Nat) : Ans :=
  let a : Ans := match s.firstBad slot ix with
    | some sub => s.no St.OUT_OF_RANGE sub
    | none => (s.groupApply slot ix).getD (s.no St.NO_OBJECT 0)
  if (s.session slot).stagedIn ix then (a.1.unstage slot ix, a.2.1, a.2.2) else (s, a.2.1, a.2.2)

/-! ### Writes -/

/-- Commands of the WO objects. -/
def State.command (s : State) (k v : Nat) : Ans :=
  if k = Obj.JOB_COMMAND then
    (if v = 1 then cmdLoad s else if v = 2 then cmdStart s else if v = 3 then cmdStop s else if v = 4 then cmdAbort s else cmdUnload s)
  else if k = Obj.SLICE_COMMAND then (if v = 1 then cmdOpen s else if v = 2 then cmdClose s else cmdDissolve s)
  else if k = Obj.COMMAND_4000 then (if v = 1 then cmdFound s else if v = 2 then cmdFedJoin s else cmdFedLeave s)
  else if k = Obj.SNAP_COMMAND then (if v = 1 then cmdSnapNow s else cmdSnapCancel s)
  else if k = Obj.CLEAR then cmdClear s
  else if k = Obj.GAUGE_COMMAND then (if v = 1 then cmdGaugeShutdown s else if v = 2 then cmdGaugeTest s else cmdRunCustom s)
  else if k = Obj.FW_COMMAND then (if v = 1 then cmdFwStage s else if v = 2 then cmdFwCommit s else cmdFwCancel s)
  else if k = Obj.TOD_NEXT then cmdTodNext s v
  else if k = Obj.CLOSE_SLOT then (s.endSession v).ok
  else s.ok

/-- Direct access and custom programmes are for BLANK and SERVICE only (R460) (DEDUCED, log 49). -/
def State.directBarred (s : State) (k : Nat) : Bool :=
  (k == Obj.DIRECT_EN || k == Obj.CUSTOM_PROG) && s.flash.lc != 0 && s.flash.lc != 3

/-- A write of an RW object. -/
def State.writeRw (s : State) (k v : Nat) : State :=
  if k = Obj.PPS_ENABLE then s.enablePps v
  else if k = Obj.PORT_ENABLE then s.enablePorts v
  else if k = Obj.FORCE_FULL then { s with flash := { s.flash with forceFull := v == 1 } }
  else s.setObj k v

/-- The rules by which an object's own chapter admits bytes (step 7): STATUS, 0 to admit (R185, R400, R460). -/
def State.admitsBytes (s : State) (k : Nat) : Nat :=
  let j := s.jobState
  if k = Obj.IMAGE then (if j = JOB_EMPTY ∨ j = JOB_LOADED ∨ j = JOB_STOPPED ∨ j = JOB_REFUSED then St.OK else St.WRONG_STATE)
  else if s.directBarred k then St.ACCESS_DENIED
  else St.OK

/-- Length that a byte string may have. -/
def ObjDef.maxBytes (d : ObjDef) : Nat := match d.rng with | .len n => n | .maxLen n => n | _ => 0

/-- Stage a value. -/
def State.stage (s : State) (slot k : Nat) (b : List Byte) : State :=
  let x := s.session slot
  s.setSession slot { x with staging := x.staging.filter (fun q => q.1 != k) ++ [(k, b)] }

/-- WRITE of a value to an object that exists and that the class may write (steps 4 to 7 of R395). -/
def State.writeObj (s : State) (slot : Nat) (d : ObjDef) (ty : Nat) (b : List Byte) : Ans :=
  let v := ofBe b
  if d.acc = .RO ∨ d.acc = .RC then s.no St.ACCESS_DENIED 0
  else if ty ≠ d.ty.code then s.no St.TYPE_MISMATCH 0
  else if ObjDef.isBytes d then
    if ObjDef.maxBytes d < b.length ∨ 8192 < b.length then s.no St.TOO_LARGE 0
    else if d.acc = .ST then (s.stage slot d.key b).ok
    else if s.admitsBytes d.key ≠ St.OK then s.no (s.admitsBytes d.key) 0
    else (s.setDom d.key b).ok
  else if b.length ≠ d.ty.bytes then s.no St.TYPE_MISMATCH 0
  else if !d.rng.admits v || (d.ty == .bool && decide (1 < v)) then s.no St.OUT_OF_RANGE 0
  else
    match d.acc with
    | .ST => (s.stage slot d.key b).ok
    | .W1C => (s.setObj d.key (s.obj d.key - (s.obj d.key &&& v))).ok
    | .RW => if s.directBarred d.key then s.no St.ACCESS_DENIED 0 else (s.writeRw d.key v).ok
    | _ => if d.key % 256 = 0xFF then s.applyIx slot (d.key / 256) else s.command d.key v

end Sys2Proof.Machine
end

