-- ==== Sys2Proof/Machine/Dap.lean ====
section
/-! DEFINITION. DAP (R389 to R403): the agreement of sessions, requests and their order, block transfers, event reports; every
command that is a request. The model seals the request's payload itself and compares the tag. -/

namespace Sys2Proof.Machine

/-! ### Datagrams (R389) -/

/-- DAP is accepted from step 9 of Table 18.3; what arrives while Gauge tests the collar is lost (Table 18.9) (DEDUCED, log 50). -/
def State.dapOn (s : State) : Bool :=
  (s.boot.stage == .memory || s.boot.stage == .ready) && (match s.gauge.run with | some r => r.die != 4 | none => true)

/-- The port serves DAP at the address that a datagram names (Table 15.3). -/
def State.dapServes (s : State) (port : EthId) (linkLocal : Bool) : Bool := linkLocal || s.obj (ethKey Obj.DAP_EN port.val) == 1

/-- MAGIC, VERSION and LENGTH are right. -/
def dapFormOk (h : DapHdr) (n : Nat) : Bool := h.magic == 0x4441 && h.version == 1 && decide (h.length.toNat = n)

/-- A request's payload (R394). -/
def reqBytes (op flags : Nat) (ix : BitVec 16) (sub ty : Byte) (rest : List Byte) : List Byte :=
  beBytes 1 op ++ beBytes 1 flags ++ zeros 2 ++ beBytes 2 ix.toNat ++ [sub, ty] ++ rest

/-- KIND and payload of a datagram of a session (Tables 15.4 and 15.7). -/
def bodyBytes : DapBody → Nat × List Byte
  | .read ix sub ty staged => (8, reqBytes 0x01 staged.toNat ix sub ty [])
  | .write ix sub ty v => (8, reqBytes 0x02 0 ix sub ty v)
  | .apply ix sub ty => (8, reqBytes 0x03 0 ix sub ty [])
  | .blkWopen ix sub ty total => (8, reqBytes 0x10 0 ix sub ty (beBytes 8 total.toNat))
  | .blkWdata ix sub ty o data => (8, reqBytes 0x11 0 ix sub ty (beBytes 8 o.toNat ++ data))
  | .blkWclose ix sub ty dg => (8, reqBytes 0x12 0 ix sub ty dg)
  | .blkRopen ix sub ty => (8, reqBytes 0x18 0 ix sub ty [])
  | .blkRdata ix sub ty o n => (8, reqBytes 0x19 0 ix sub ty (beBytes 8 o.toNat ++ beBytes 2 n.toNat))
  | .blkRclose ix sub ty => (8, reqBytes 0x1A 0 ix sub ty [])
  | .subscribe ix sub ty mask => (8, reqBytes 0x20 0 ix sub ty mask)
  | .keepalive ix sub ty => (8, reqBytes 0x21 0 ix sub ty [])
  | .close => (12, [])
  | .reportAck n => (11, beBytes 8 n.toNat)
  | .other op ix sub ty => (8, reqBytes op.toNat 0 ix sub ty [])

/-- INDEX, SUBINDEX and TYPE of a request. -/
def bodyName : DapBody → Nat × Nat × Nat
  | .read ix sub ty _ | .write ix sub ty _ | .apply ix sub ty | .blkWopen ix sub ty _ | .blkWdata ix sub ty _ _ | .blkWclose ix sub ty _
  | .blkRopen ix sub ty | .blkRdata ix sub ty _ _ | .blkRclose ix sub ty | .subscribe ix sub ty _ | .keepalive ix sub ty
  | .other _ ix sub ty => (ix.toNat, sub.toNat, ty.toNat)
  | .close | .reportAck _ => (0, 0, 0)

/-- Send a datagram to a station, sealed under the session's k_ds. -/
def State.sendSealed (s : State) (x : Session) (slot kind seq : Nat) (payload : List Byte) : State :=
  let v := x.value slot
  let c := dapSeal (x.key.drop 32) kind v seq payload
  s.emit (.udp x.port x.peer x.peerPort (s.obj Obj.DAP_PORT) (dapHeader kind v seq payload.length ++ c.1 ++ c.2))

/-- A datagram without a tag, of the handshake. -/
def State.sendPlain (s : State) (port : Nat) (peer : BitVec 128) (peerPort kind session : Nat) (payload : List Byte) : State :=
  s.emit (.udp port peer peerPort (s.obj Obj.DAP_PORT) (dapHeader kind session 0 payload.length ++ payload))

/-! ### Agreement (R390, R391) -/

/-- REFUSE with a reason; reasons 2, 3 and 6 count. -/
def State.refuse (s : State) (port : Nat) (peer : BitVec 128) (peerPort session reason : Nat) : State :=
  let t := s.sendPlain port peer peerPort 4 session (beBytes 1 reason ++ zeros 7)
  if reason = 2 ∨ reason = 3 ∨ reason = 6 then t.inc32 Obj.HANDSHAKE_FAILS else t

/-- HELLO is answered with a CHALLENGE. -/
def State.challenge (s : State) (h : DapHdr) (hello : List Byte) : State :=
  let n := s.dap.handshakes % 2 ^ 29
  let secret := s.draw 56
  let s1 := s.spend
  let eph := x448Pub secret ++ s1.draw 32
  let sig := ed448Sign Config.identitySecret (ascii "DAP1-C" ++ hello ++ eph ++ beBytes 4 (8 * n))
  let chal := eph ++ sig ++ zeros 6
  let c : Challenge := ⟨n, hello, chal, secret, h.port.val, h.peer, h.peerPort.toNat⟩
  let kept := if 16 ≤ s1.dap.challenges.length then s1.dap.challenges.drop 1 else s1.dap.challenges
  { s1 with freeCtr := s1.freeCtr + 1, dap := { s1.dap with handshakes := s1.dap.handshakes + 1, challenges := kept ++ [c] } }.sendPlain
    h.port.val h.peer h.peerPort.toNat 1 (8 * n) chal

/-- HELLO (104 bytes). -/
def execHello (h : DapHdr) (hello : List Byte) (s : State) : Out :=
  if hello.length ≠ 104 then .fault .illFormed
  else if s.dapOn = false ∨ s.obj Obj.GAUGE_STATE = 3 then .next s
  else
    let t := s.frameIn h.port.val
    if dapFormOk h 104 = false ∨ h.session ≠ 0 then .next (t.inc32 Obj.FOREIGN_DAP)
    else if t.flash.lc = 4 then .next (t.refuse h.port.val h.peer h.peerPort.toNat 0 4)
    else if t.dapServes h.port h.linkLocal = false then .next (t.refuse h.port.val h.peer h.peerPort.toNat 0 5)
    else .next (t.challenge h hello)

/-- Class of a key (Table 15.9); none for a key that no session can have. -/
def State.classOf (s : State) (pub : List Byte) : Option Nat :=
  if s.flash.lc = 0 then some 5
  else
    match s.service with
    | some v => if s.flash.lc = 3 ∧ v.key = pub then some 4 else (s.flash.roleOf pub).map (fun r => if r = 1 then 2 else if r = 2 then 3 else 1)
    | none => (s.flash.roleOf pub).map (fun r => if r = 1 then 2 else if r = 2 then 3 else 1)

/-- Digest H and the 64 bytes of session keys of a CHALLENGE (R390). -/
def agreeH (c : Challenge) : List Byte := digest64 (c.hello ++ c.chal)
def agreeKeys (c : Challenge) : List Byte := shake256 (ascii "DAP1-K" ++ x448 c.secret (c.hello.take 56) ++ agreeH c) 64

/-- A slot is taken and ACCEPT is sent. -/
def State.accept (s : State) (h : DapHdr) (c : Challenge) (pub : List Byte) (cls i : Nat) : State :=
  let x : Session := { Session.free with
    live := true, cls := cls, handshake := c.number, pub := pub, keyId := keyIdOf pub, key := agreeKeys c, agreeH := agreeH c
    peer := h.peer, peerPort := h.peerPort.toNat, port := h.port.val, last := s.now, idle := s.obj Obj.SESSION_IDLE }
  let t := { s with dap := { s.dap with challenges := s.dap.challenges.filter (fun q => q.number != c.number) } }.setSession i x
  t.sendSealed x i 3 0 (beBytes 1 cls ++ beBytes 1 i ++ zeros 2 ++ beBytes 4 (s.obj Obj.SESSION_IDLE))

/-- A PROOF whose tag has passed is judged (DEDUCED, log 50). -/
def State.judgeProof (s : State) (h : DapHdr) (c : Challenge) (pub sig : List Byte) : State :=
  let no := fun r => s.refuse h.port.val h.peer h.peerPort.toNat (8 * c.number) r
  if keyIdOf pub ≠ slice c.hello 88 8 then no 3
  else
    match s.classOf pub with
    | none => no 2
    | some cls =>
      if ed448Verify pub (ascii "DAP1-P" ++ agreeH c) sig = false then no 3
      else
        match (List.range 8).find? (fun i => !(s.session i).live) with
        | none => no 1
        | some i => s.accept h c pub cls i

/-- PROOF: public key (57), signature (114), reserved (5). -/
def execProof (h : DapHdr) (pub sig : List Byte) (s : State) : Out :=
  if pub.length ≠ 57 ∨ sig.length ≠ 114 then .fault .illFormed
  else if s.dapOn = false ∨ s.obj Obj.GAUGE_STATE = 3 then .next s
  else
    let t := s.frameIn h.port.val
    let payload := pub ++ sig ++ zeros 5
    if t.dapServes h.port h.linkLocal = false then .next (t.frameDrop h.port)
    else if dapFormOk h 176 = false ∨ h.session.toNat % 8 ≠ 0 then .next (t.inc32 Obj.FOREIGN_DAP)
    else
      match t.dap.challenges.find? (fun c => decide (8 * c.number = h.session.toNat)) with
      | none => .next (t.inc32 Obj.FOREIGN_DAP)
      | some c =>
        if (dapSeal ((agreeKeys c).take 32) 2 h.session.toNat h.seq.toNat payload).2 ≠ h.tag then .next (t.inc32 Obj.AUTH_FAILS)
        else .next ((t.raiseN Ev.DAP_RX 0).judgeProof h c pub sig)

/-- CHALLENGE_TIMEOUT: 2 s without a valid PROOF (DEDUCED, log 50). -/
def execChallengeTimeout (number : BitVec 29) (s : State) : Out :=
  match s.dap.challenges.find? (fun c => c.number == number.toNat) with
  | none => .next s
  | some c =>
    .next ({ s with dap := { s.dap with challenges := s.dap.challenges.filter (fun q => q.number != c.number) } }.refuse
      c.port c.peer c.peerPort (8 * c.number) 6)

/-! ### Reads and block transfers (R394, R397, R400, R401) -/

/-- STATUS, DETAIL and results of a request, and the state after it. -/
structure Done where
  status : Nat
  detail : Nat
  value : List Byte
  after : State

def State.done (s : State) (status : Nat) : Done := ⟨status, 0, [], s⟩
def Done.ofAns (a : Ans) : Done := ⟨a.2.1, a.2.2, [], a.1⟩

/-- READ. -/
def State.dapRead (s : State) (slot : Nat) (d : ObjDef) (staged : Bool) : Done :=
  let x := s.session slot
  if staged then
    match x.stagedAt d.key with
    | some b => if 8192 < b.length then s.done St.TOO_LARGE else ⟨St.OK, 0, b, s⟩
    | none => s.done St.NOT_STAGED
  else
    let b := s.shows slot d
    if 8192 < b.length then s.done St.TOO_LARGE else ⟨St.OK, 0, b, s.afterRead d⟩

/-- BLK_ROPEN: the value goes into the session's snapshot buffer; an earlier snapshot is released. -/
def State.dapRopen (s : State) (slot : Nat) (d : ObjDef) : Done :=
  let b := s.shows slot d
  if 16777216 < b.length then (s.setSession slot { s.session slot with ropen := none }).done St.TOO_LARGE
  else
    let t := s.afterRead d
    ⟨St.OK, 0, beBytes 8 b.length, t.setSession slot { t.session slot with ropen := some b }⟩

/-- BLK_RDATA. -/
def State.dapRdata (s : State) (slot o n : Nat) : Done :=
  if n = 0 ∨ 8192 < n then s.done St.OUT_OF_RANGE
  else
    match (s.session slot).ropen with
    | none => s.done St.NO_BLOCK
    | some b => if b.length ≤ o then s.done St.NO_BLOCK else ⟨St.OK, 0, slice b o n, s⟩

def State.dapRclose (s : State) (slot : Nat) : Done :=
  match (s.session slot).ropen with
  | none => s.done St.NO_BLOCK
  | some _ => (s.setSession slot { s.session slot with ropen := none }).done St.OK

/-- BLK_WOPEN. -/
def State.dapWopen (s : State) (slot : Nat) (d : ObjDef) (total : Nat) : Done :=
  let x := s.session slot
  if d.acc = .RO ∨ d.acc = .RC then s.done St.ACCESS_DENIED
  else if d.ty ≠ .domain then s.done St.TYPE_MISMATCH
  else if ObjDef.maxBytes d < total then s.done St.TOO_LARGE
  else if (List.range 8).any (fun i => i != slot && (match (s.session i).wopen with | some w => w.key == d.key | none => false)) then s.done St.BUSY
  else if d.acc ≠ .ST ∧ s.admitsBytes d.key ≠ St.OK then s.done (s.admitsBytes d.key)
  else (s.setSession slot { x with wopen := some ⟨d.key, total, []⟩ }).done St.OK

/-- BLK_WDATA (DEDUCED, log 49). -/
def State.dapWdata (s : State) (slot o : Nat) (data : List Byte) : Done :=
  let x := s.session slot
  if data = [] ∨ 8192 < data.length then s.done St.TYPE_MISMATCH
  else
    match x.wopen with
    | none => s.done St.NO_BLOCK
    | some w =>
      if w.total < o + data.length then s.done St.NO_BLOCK
      else (s.setSession slot { x with wopen := some { w with segs := w.segs ++ [(o, data)] } }).done St.OK

/-- BLK_WCLOSE: a passing one gives the object its bytes; bytes of an ST object are staged. -/
def State.dapWclose (s : State) (slot : Nat) (dg : List Byte) : Done :=
  let x := s.session slot
  match x.wopen with
  | none => s.done St.NO_BLOCK
  | some w =>
    let b := assemble w.segs w.total
    let st := match Obj.find (w.key / 256) (w.key % 256) with | some d => d.acc == .ST | none => false
    if missing w.segs w.total (2 * w.segs.length + 2) 0 ≠ [] then s.done St.BLOCK_INCOMPLETE
    else if digest64 b ≠ dg then s.done St.DIGEST_MISMATCH
    else if st = false ∧ s.admitsBytes w.key ≠ St.OK then s.done (s.admitsBytes w.key)
    else
      let t := s.setSession slot { x with wopen := none }
      (if st then t.stage slot w.key b else t.setDom w.key b).done St.OK

/-- Sources of a mask: bit s of byte s / 8. -/
def maskSources (mask : List Byte) : List Nat := (List.range 512).filter (fun k => bit (nth 0 mask (k / 8)).toNat (k % 8))

/-- SUBSCRIBE (R403). -/
def State.dapSubscribe (s : State) (slot : Nat) (mask : List Byte) : Done :=
  let x := s.session slot
  if mask.length ≠ 64 then s.done St.TYPE_MISMATCH
  else (s.setSession slot { x with mask := maskSources mask, reports := x.reports.filter (fun r => (maskSources mask).contains r.source) }).done St.OK

/-! ### Requests (R392 to R395) -/

/-- The object of a request exists and the class holds the right (steps 2 and 3). -/
def State.named (s : State) (slot ix sub v : Nat) (w : Bool) (k : ObjDef → Done) : Done :=
  match Obj.find ix sub with
  | none => s.done St.NO_OBJECT
  | some d => if s.allows (s.session slot).cls d.key v (w || d.acc == .RC) then k d else s.done St.ACCESS_DENIED

/-- The request only reads. -/
def readsOnly : DapBody → Bool
  | .read .. | .blkRopen .. | .blkRdata .. | .blkRclose .. | .close => true
  | _ => false

/-- A request is executed. After the shutdown nothing but reads and CLOSE is accepted (R463) (DEDUCED, log 50). -/
def State.runBody (s : State) (slot : Nat) (b : DapBody) : Done :=
  if s.obj Obj.GAUGE_STATE = 3 ∧ readsOnly b = false then s.done St.WRONG_STATE
  else
    match b with
    | .read ix sub _ staged => s.named slot ix.toNat sub.toNat 0 false (fun d => s.dapRead slot d staged)
    | .write ix sub ty v => s.named slot ix.toNat sub.toNat (ofBe v) true (fun d => Done.ofAns (s.writeObj slot d ty.toNat v))
    | .apply ix sub _ => s.named slot ix.toNat sub.toNat 1 true (fun d =>
        if sub = 0xFF then Done.ofAns (s.applyIx slot ix.toNat) else if d.acc = .WO then s.done St.TYPE_MISMATCH else s.done St.ACCESS_DENIED)
    | .blkWopen ix sub _ total => s.named slot ix.toNat sub.toNat 0 true (fun d => s.dapWopen slot d total.toNat)
    | .blkWdata _ _ _ o data => s.dapWdata slot o.toNat data
    | .blkWclose _ _ _ dg => s.dapWclose slot dg
    | .blkRopen ix sub _ => s.named slot ix.toNat sub.toNat 0 false (fun d => s.dapRopen slot d)
    | .blkRdata _ _ _ o n => s.dapRdata slot o.toNat n.toNat
    | .blkRclose _ _ _ => s.dapRclose slot
    | .subscribe _ _ _ mask => s.dapSubscribe slot mask
    | .keepalive _ _ _ => s.done St.OK
    | .close => (s.endSession slot).done St.OK
    | .reportAck n =>
      let x := s.session slot
      (s.setSession slot { x with reports := x.reports.filter (fun r => decide (n.toNat < r.seq)) }).done St.OK
    | .other .. => s.done St.UNKNOWN_OP

/-- The datagram draws a response. -/
def drawsResponse : DapBody → Bool
  | .close | .reportAck _ => false
  | _ => true

/-- RESPONSE payload (R394). -/
def Resp.payload (r : Resp) : List Byte :=
  beBytes 1 r.status ++ beBytes 1 r.detail ++ zeros 2 ++ beBytes 2 r.index ++ beBytes 1 r.sub ++ beBytes 1 r.ty ++ r.value

/-- The request of SEQ `next` is executed and answered. The response leaves from the port that was in force (R405), also when
the request has ended the session. -/
def State.runNext (s : State) (slot : Nat) (b : DapBody) : State :=
  let x := s.session slot
  let r := s.runBody slot b
  let n := bodyName b
  let resp : Resp := ⟨x.next, r.status, r.detail, n.1, n.2.1, n.2.2, r.value⟩
  let y := r.after.session slot
  let draws := drawsResponse b
  let t := if y.live then r.after.setSession slot { y with
      next := x.next + 1
      requests := y.requests + 1
      stored := ((if draws then resp :: y.stored else y.stored).filter (fun q => decide (x.next < q.seq + 64))) }
    else r.after
  if draws then
    let p := t.obj Obj.DAP_PORT
    ((t.setObj Obj.DAP_PORT (s.obj Obj.DAP_PORT)).sendSealed x slot 9 x.next resp.payload).setObj Obj.DAP_PORT p
  else t

/-- Held requests are executed while their turn has come; the first operand is how many are held. -/
def State.runHeld (slot : Nat) : Nat → State → State
  | 0, s => s
  | f + 1, s =>
    let x := s.session slot
    if x.live then
      match x.held.find? (fun q => q.1 == x.next) with
      | some q =>
        State.runHeld slot f ((s.setSession slot { x with held := x.held.filter (fun p => p.1 != x.next) }).runNext slot q.2)
      | none => s
    else s

/-- A datagram of a session whose tag has passed (R392, R393). -/
def State.dapTake (s : State) (h : DapHdr) (slot : Nat) (b : DapBody) : State :=
  let s1 := s.raiseN Ev.DAP_RX slot
  let x := s1.session slot
  let req := (bodyBytes b).1 == 8
  let y := { x with
    peer := h.peer, peerPort := h.peerPort.toNat, port := h.port.val, last := s1.now
    idle := if req then s1.obj Obj.SESSION_IDLE else x.idle }
  let s2 := s1.setSession slot y
  let q := h.seq.toNat
  if q < y.next then
    (match y.stored.find? (fun r => r.seq == q) with
     | some r => (s2.inc32 Obj.REPEATS).sendSealed y slot 9 q r.payload
     | none => s2)
  else if y.next + 64 ≤ q then s2
  else
    let held := if y.held.any (fun p => p.1 == q) then y.held else y.held ++ [(q, b)]
    State.runHeld slot held.length (s2.setSession slot { y with held := held })

/-- A datagram of a session arrives (R389) (DEDUCED, log 50). -/
def State.dapIn (s : State) (h : DapHdr) (b : DapBody) : State :=
  if s.dapOn then
    let t := s.frameIn h.port.val
    let k := bodyBytes b
    let slot := h.session.toNat % 8
    let x := t.session slot
    if t.dapServes h.port h.linkLocal = false then t.frameDrop h.port
    else if dapFormOk h k.2.length = false ∨ x.live = false ∨ x.value slot ≠ h.session.toNat then t.inc32 Obj.FOREIGN_DAP
    else if (dapSeal (x.key.take 32) k.1 h.session.toNat h.seq.toNat k.2).2 ≠ h.tag then t.inc32 Obj.AUTH_FAILS
    else t.dapTake h slot b
  else s

/-! ### Rows -/

/-- Objects and values of the commands that have rows of their own; an APPLY is its object with value 0. -/
def rowKeys : List (Nat × Nat) :=
  [(Obj.JOB_COMMAND, 1), (Obj.JOB_COMMAND, 2), (Obj.JOB_COMMAND, 3), (Obj.JOB_COMMAND, 4), (Obj.JOB_COMMAND, 5),
   (Obj.SLICE_COMMAND, 1), (Obj.SLICE_COMMAND, 2), (Obj.SLICE_COMMAND, 3),
   (Obj.COMMAND_4000, 1), (Obj.COMMAND_4000, 2), (Obj.COMMAND_4000, 3), (Obj.SNAP_COMMAND, 1), (Obj.SNAP_COMMAND, 2),
   (Obj.GAUGE_COMMAND, 1), (Obj.GAUGE_COMMAND, 2), (Obj.GAUGE_COMMAND, 3), (Obj.FW_COMMAND, 1), (Obj.FW_COMMAND, 2), (Obj.FW_COMMAND, 3)] ++
  ([Obj.PORT_ENABLE, Obj.TOD_NEXT, Obj.CLEAR, Obj.CLOSE_SLOT] ++
   [0x1001FF, 0x1002FF, 0x1100FF, 0x1200FF, 0x1201FF, 0x1300FF, 0x2000FF, 0x2003FF, 0x2100FF, 0x2200FF, 0x2400FF, 0x3100FF, 0x3102FF,
    0x3200FF, 0x3300FF, 0x4000FF, 0x4100FF, 0x4200FF, 0x5000FF, 0x5100FF, 0x6000FF, 0xC010FF, 0xC020FF]).map (fun k => (k, 0))

/-- Row of a write or an APPLY; none for an object with no row of its own. -/
def rowOf : DapBody → Option (Nat × Nat)
  | .write ix sub _ v =>
    let k := ix.toNat * 256 + sub.toNat
    if rowKeys.contains (k, ofBe v) && decide (0 < ofBe v) then some (k, ofBe v)
    else if rowKeys.contains (k, 0) then some (k, 0) else none
  | .apply ix sub _ =>
    let k := ix.toNat * 256 + sub.toNat
    if sub = 0xFF ∧ rowKeys.contains (k, 0) = true then some (k, 0) else none
  | _ => none

/-- Operation codes of Table 15.7. -/
def listedOps : List Nat := [0x01, 0x02, 0x03, 0x10, 0x11, 0x12, 0x18, 0x19, 0x1A, 0x20, 0x21]

/-- A request of a row of its own. -/
def State.rowIn (s : State) (k v : Nat) (h : DapHdr) (b : DapBody) : Out := .next (if rowOf b = some (k, v) then s.dapIn h b else s)

def execRead (h : DapHdr) (b : DapBody) (s : State) : Out :=
  match b with
  | .read ix sub _ _ => .next (if ix.toNat * 256 + sub.toNat = Obj.ATT_REPORT then s else s.dapIn h b)
  | _ => .next s
def execAttReport (h : DapHdr) (b : DapBody) (s : State) : Out :=
  match b with
  | .read ix sub _ _ => .next (if ix.toNat * 256 + sub.toNat = Obj.ATT_REPORT then s.dapIn h b else s)
  | _ => .next s
/-- WRITE of an object with no row of its own; an operation code that is not listed changes nothing either. -/
def execWrite (h : DapHdr) (b : DapBody) (s : State) : Out :=
  match b with
  | .write .. => .next (if rowOf b = none then s.dapIn h b else s)
  | .apply .. => .next (if rowOf b = none then s.dapIn h b else s)
  | .other op .. => .next (if listedOps.contains op.toNat then s else s.dapIn h b)
  | _ => .next s
def execBlkWopen (h : DapHdr) (b : DapBody) (s : State) : Out :=
  match b with | .blkWopen .. => .next (s.dapIn h b) | _ => .next s
def execBlkWdata (h : DapHdr) (b : DapBody) (s : State) : Out :=
  match b with | .blkWdata .. => .next (s.dapIn h b) | _ => .next s
def execBlkWclose (h : DapHdr) (b : DapBody) (s : State) : Out :=
  match b with | .blkWclose .. => .next (s.dapIn h b) | _ => .next s
def execBlkRopen (h : DapHdr) (b : DapBody) (s : State) : Out :=
  match b with | .blkRopen .. => .next (s.dapIn h b) | _ => .next s
def execBlkRdata (h : DapHdr) (b : DapBody) (s : State) : Out :=
  match b with | .blkRdata .. => .next (s.dapIn h b) | _ => .next s
def execBlkRclose (h : DapHdr) (b : DapBody) (s : State) : Out :=
  match b with | .blkRclose .. => .next (s.dapIn h b) | _ => .next s
def execSubscribe (h : DapHdr) (b : DapBody) (s : State) : Out :=
  match b with | .subscribe .. => .next (s.dapIn h b) | _ => .next s
def execKeepalive (h : DapHdr) (b : DapBody) (s : State) : Out :=
  match b with | .keepalive .. => .next (s.dapIn h b) | _ => .next s
def execDapClose (h : DapHdr) (b : DapBody) (s : State) : Out :=
  match b with | .close => .next (s.dapIn h b) | _ => .next s
def execReportAck (h : DapHdr) (b : DapBody) (s : State) : Out :=
  match b with | .reportAck _ => .next (s.dapIn h b) | _ => .next s

/-- SESSION_IDLE_TIMEOUT: SESSION_IDLE seconds without a request. -/
def execSessionIdleTimeout (slot : Fin 8) (s : State) : Out := .next (if (s.session slot.val).live then s.endSession slot.val else s)

/-- REPORT_RESEND: 100 ms have passed; every unacknowledged report of the session is sent again. -/
def execReportResend (slot : Fin 8) (s : State) : Out :=
  let x := s.session slot.val
  .next (if x.live && s.dapOn then x.reports.foldl (fun (s : State) r => s.sendSealed x slot.val 10 r.seq r.payload) s else s)

def execApplyVoltagePower (h : DapHdr) (b : DapBody) (s : State) : Out := s.rowIn 0x2000FF 0 h b
def execApplyDebugDrain (h : DapHdr) (b : DapBody) (s : State) : Out := s.rowIn 0xC010FF 0 h b
def execApplyVbRead (h : DapHdr) (b : DapBody) (s : State) : Out := s.rowIn 0xC020FF 0 h b
def execApplyTorus (h : DapHdr) (b : DapBody) (s : State) : Out := s.rowIn 0x2100FF 0 h b
def execApplySlice (h : DapHdr) (b : DapBody) (s : State) : Out := s.rowIn 0x2200FF 0 h b
def execApplyHyperparameters (h : DapHdr) (b : DapBody) (s : State) : Out := s.rowIn 0x3200FF 0 h b
def execApplyNormPolicy (h : DapHdr) (b : DapBody) (s : State) : Out := s.rowIn 0x3300FF 0 h b
def execApplyFeed (h : DapHdr) (b : DapBody) (s : State) : Out := s.rowIn 0x3100FF 0 h b
def execApplyReshard (h : DapHdr) (b : DapBody) (s : State) : Out := s.rowIn 0x3102FF 0 h b
def execApplyFederation (h : DapHdr) (b : DapBody) (s : State) : Out := s.rowIn 0x4000FF 0 h b
def execApplyCompression (h : DapHdr) (b : DapBody) (s : State) : Out := s.rowIn 0x4100FF 0 h b
def execApplyOuterRule (h : DapHdr) (b : DapBody) (s : State) : Out := s.rowIn 0x4200FF 0 h b
def execApplySiteTime (h : DapHdr) (b : DapBody) (s : State) : Out := s.rowIn 0x1300FF 0 h b
def execApplyDapSession (h : DapHdr) (b : DapBody) (s : State) : Out := s.rowIn 0x1100FF 0 h b
def execApplyLifecycle (h : DapHdr) (b : DapBody) (s : State) : Out := s.rowIn 0x1001FF 0 h b
def execApplyKeys (h : DapHdr) (b : DapBody) (s : State) : Out := s.rowIn 0x1002FF 0 h b
def execApplyExport (h : DapHdr) (b : DapBody) (s : State) : Out := s.rowIn 0x5000FF 0 h b
def execApplyKeySlot (h : DapHdr) (b : DapBody) (s : State) : Out := s.rowIn 0x5100FF 0 h b
def execApplyEventSource (h : DapHdr) (b : DapBody) (s : State) : Out := s.rowIn 0x2400FF 0 h b
def execApplyTension (h : DapHdr) (b : DapBody) (s : State) : Out := s.rowIn 0x6000FF 0 h b
def execApplyBoard (h : DapHdr) (b : DapBody) (s : State) : Out := s.rowIn 0x2003FF 0 h b
def execApplyEthernetPort (port : EthId) (h : DapHdr) (b : DapBody) (s : State) : Out := s.rowIn (0x1200FF + 256 * port.val) 0 h b
def execLoad (h : DapHdr) (b : DapBody) (s : State) : Out := s.rowIn Obj.JOB_COMMAND 1 h b
def execStart (h : DapHdr) (b : DapBody) (s : State) : Out := s.rowIn Obj.JOB_COMMAND 2 h b
def execStop (h : DapHdr) (b : DapBody) (s : State) : Out := s.rowIn Obj.JOB_COMMAND 3 h b
def execAbort (h : DapHdr) (b : DapBody) (s : State) : Out := s.rowIn Obj.JOB_COMMAND 4 h b
def execUnload (h : DapHdr) (b : DapBody) (s : State) : Out := s.rowIn Obj.JOB_COMMAND 5 h b
def execPortEnableWrite (h : DapHdr) (b : DapBody) (s : State) : Out := s.rowIn Obj.PORT_ENABLE 0 h b
def execOpenSlice (h : DapHdr) (b : DapBody) (s : State) : Out := s.rowIn Obj.SLICE_COMMAND 1 h b
def execClose (h : DapHdr) (b : DapBody) (s : State) : Out := s.rowIn Obj.SLICE_COMMAND 2 h b
def execDissolve (h : DapHdr) (b : DapBody) (s : State) : Out := s.rowIn Obj.SLICE_COMMAND 3 h b
def execFound (h : DapHdr) (b : DapBody) (s : State) : Out := s.rowIn Obj.COMMAND_4000 1 h b
def execFedJoin (h : DapHdr) (b : DapBody) (s : State) : Out := s.rowIn Obj.COMMAND_4000 2 h b
def execFedLeave (h : DapHdr) (b : DapBody) (s : State) : Out := s.rowIn Obj.COMMAND_4000 3 h b
def execTodNext (h : DapHdr) (b : DapBody) (s : State) : Out := s.rowIn Obj.TOD_NEXT 0 h b
def execCloseSlot (h : DapHdr) (b : DapBody) (s : State) : Out := s.rowIn Obj.CLOSE_SLOT 0 h b
def execSnapNow (h : DapHdr) (b : DapBody) (s : State) : Out := s.rowIn Obj.SNAP_COMMAND 1 h b
def execSnapCancel (h : DapHdr) (b : DapBody) (s : State) : Out := s.rowIn Obj.SNAP_COMMAND 2 h b
def execClear (h : DapHdr) (b : DapBody) (s : State) : Out := s.rowIn Obj.CLEAR 0 h b
def execFwStage (h : DapHdr) (b : DapBody) (s : State) : Out := s.rowIn Obj.FW_COMMAND 1 h b
def execFwCommit (h : DapHdr) (b : DapBody) (s : State) : Out := s.rowIn Obj.FW_COMMAND 2 h b
def execFwCancel (h : DapHdr) (b : DapBody) (s : State) : Out := s.rowIn Obj.FW_COMMAND 3 h b
def execGaugeShutdown (h : DapHdr) (b : DapBody) (s : State) : Out := s.rowIn Obj.GAUGE_COMMAND 1 h b
def execGaugeTest (h : DapHdr) (b : DapBody) (s : State) : Out := s.rowIn Obj.GAUGE_COMMAND 2 h b
def execRunCustom (h : DapHdr) (b : DapBody) (s : State) : Out := s.rowIn Obj.GAUGE_COMMAND 3 h b

end Sys2Proof.Machine
end

