-- ==== Sys2Proof/Machine/Dispatch.lean ====
section
/-! DEFINITION. One arm per command of the table, each a direct call of its meaning. -/

namespace Sys2Proof.Machine

def exec (i : Instr) (s : State) : Host.Outcome State Fault Refusal :=
  match i with
  | .powerLoopPeriod x => Sys2Proof.Machine.execPowerLoopPeriod x s
  | .rowCounterPeriod r0 r1 r2 r3 => Sys2Proof.Machine.execRowCounterPeriod r0 r1 r2 r3 s
  | .vcoreSettled => Sys2Proof.Machine.execVcoreSettled s
  | .applyVoltagePower h b => Sys2Proof.Machine.execApplyVoltagePower h b s
  | .ppsEdge eighth => Sys2Proof.Machine.execPpsEdge eighth s
  | .ppsLost => Sys2Proof.Machine.execPpsLost s
  | .refclkLost => Sys2Proof.Machine.execRefclkLost s
  | .refclkReturn => Sys2Proof.Machine.execRefclkReturn s
  | .reset pin => Sys2Proof.Machine.execReset pin s
  | .resetRelease straps => Sys2Proof.Machine.execResetRelease straps s
  | .firmwareVerify => Sys2Proof.Machine.execFirmwareVerify s
  | .bootRetry => Sys2Proof.Machine.execBootRetry s
  | .bootReq => Sys2Proof.Machine.execBootReq s
  | .bootOffer d => Sys2Proof.Machine.execBootOffer d s
  | .bootSeg d => Sys2Proof.Machine.execBootSeg d s
  | .bootMissTimer => Sys2Proof.Machine.execBootMissTimer s
  | .ethernetBootTimeout => Sys2Proof.Machine.execEthernetBootTimeout s
  | .dramTrained => Sys2Proof.Machine.execDramTrained s
  | .ready => Sys2Proof.Machine.execReady s
  | .mm core c => Sys2Proof.Machine.execMm core c s
  | .groupSumAdd core c tile elem faults => Sys2Proof.Machine.execGroupSumAdd core c tile elem faults s
  | .segmentClosure core c tile => Sys2Proof.Machine.execSegmentClosure core c tile s
  | .pld core c => Sys2Proof.Machine.execPld core c s
  | .drn core c => Sys2Proof.Machine.execDrn core c s
  | .cvt core c => Sys2Proof.Machine.execCvt core c s
  | .add core c => Sys2Proof.Machine.execAdd core c s
  | .sub core c => Sys2Proof.Machine.execSub core c s
  | .mul core c => Sys2Proof.Machine.execMul core c s
  | .div core c => Sys2Proof.Machine.execDiv core c s
  | .sqrt core c => Sys2Proof.Machine.execSqrt core c s
  | .fma core c => Sys2Proof.Machine.execFma core c s
  | .min core c => Sys2Proof.Machine.execMin core c s
  | .max core c => Sys2Proof.Machine.execMax core c s
  | .minn core c => Sys2Proof.Machine.execMinn core c s
  | .maxn core c => Sys2Proof.Machine.execMaxn core c s
  | .rint core c => Sys2Proof.Machine.execRint core c s
  | .abs core c => Sys2Proof.Machine.execAbs core c s
  | .neg core c => Sys2Proof.Machine.execNeg core c s
  | .cps core c => Sys2Proof.Machine.execCps core c s
  | .mov core c => Sys2Proof.Machine.execMov core c s
  | .sel core c => Sys2Proof.Machine.execSel core c s
  | .cmp core c => Sys2Proof.Machine.execCmp core c s
  | .iadd core c => Sys2Proof.Machine.execIadd core c s
  | .isub core c => Sys2Proof.Machine.execIsub core c s
  | .imul core c => Sys2Proof.Machine.execImul core c s
  | .imin core c => Sys2Proof.Machine.execImin core c s
  | .imax core c => Sys2Proof.Machine.execImax core c s
  | .and core c => Sys2Proof.Machine.execAnd core c s
  | .or core c => Sys2Proof.Machine.execOr core c s
  | .xor core c => Sys2Proof.Machine.execXor core c s
  | .not core c => Sys2Proof.Machine.execNot core c s
  | .shl core c => Sys2Proof.Machine.execShl core c s
  | .shrl core c => Sys2Proof.Machine.execShrl core c s
  | .shra core c => Sys2Proof.Machine.execShra core c s
  | .iota core c => Sys2Proof.Machine.execIota core c s
  | .exp2 core c => Sys2Proof.Machine.execExp2 core c s
  | .exp core c => Sys2Proof.Machine.execExp core c s
  | .log2 core c => Sys2Proof.Machine.execLog2 core c s
  | .log core c => Sys2Proof.Machine.execLog core c s
  | .rcp core c => Sys2Proof.Machine.execRcp core c s
  | .rsqrt core c => Sys2Proof.Machine.execRsqrt core c s
  | .tanh core c => Sys2Proof.Machine.execTanh core c s
  | .sigm core c => Sys2Proof.Machine.execSigm core c s
  | .sin core c => Sys2Proof.Machine.execSin core c s
  | .cos core c => Sys2Proof.Machine.execCos core c s
  | .redsum core c => Sys2Proof.Machine.execRedsum core c s
  | .redssq core c => Sys2Proof.Machine.execRedssq core c s
  | .redmax core c => Sys2Proof.Machine.execRedmax core c s
  | .redmin core c => Sys2Proof.Machine.execRedmin core c s
  | .redamax core c => Sys2Proof.Machine.execRedamax core c s
  | .redargmax core c => Sys2Proof.Machine.execRedargmax core c s
  | .perm core c => Sys2Proof.Machine.execPerm core c s
  | .xrRead core c => Sys2Proof.Machine.execXrRead core c s
  | .xrWrite core c => Sys2Proof.Machine.execXrWrite core c s
  | .mrRead core c => Sys2Proof.Machine.execMrRead core c s
  | .mrWrite core c => Sys2Proof.Machine.execMrWrite core c s
  | .mrWriteImmediate core c => Sys2Proof.Machine.execMrWriteImmediate core c s
  | .dbgMark core c => Sys2Proof.Machine.execDbgMark core c s
  | .dbgBreak core c => Sys2Proof.Machine.execDbgBreak core c s
  | .ldv core c => Sys2Proof.Machine.execLdv core c s
  | .stv core c => Sys2Proof.Machine.execStv core c s
  | .dma core c => Sys2Proof.Machine.execDma core c s
  | .cord core c => Sys2Proof.Machine.execCord core c s
  | .cordComplete core c tag => Sys2Proof.Machine.execCordComplete core c tag s
  | .jmp core c => Sys2Proof.Machine.execJmp core c s
  | .loop core c => Sys2Proof.Machine.execLoop core c s
  | .brv core => Sys2Proof.Machine.execBrv core s
  | .setx core c => Sys2Proof.Machine.execSetx core c s
  | .bar core c => Sys2Proof.Machine.execBar core c s
  | .barJoinComplete core c => Sys2Proof.Machine.execBarJoinComplete core c s
  | .buTileTask core => Sys2Proof.Machine.execBuTileTask core s
  | .bedReturn core => Sys2Proof.Machine.execBedReturn core s
  | .waitd core c => Sys2Proof.Machine.execWaitd core c s
  | .waitc core c => Sys2Proof.Machine.execWaitc core c s
  | .step core => Sys2Proof.Machine.execStep core s
  | .endFiller core => Sys2Proof.Machine.execEndFiller core s
  | .contextSwitch core => Sys2Proof.Machine.execContextSwitch core s
  | .clIssue core => Sys2Proof.Machine.execClIssue core s
  | .load h b => Sys2Proof.Machine.execLoad h b s
  | .loadCheckDone => Sys2Proof.Machine.execLoadCheckDone s
  | .start h b => Sys2Proof.Machine.execStart h b s
  | .startDigest src digest committed => Sys2Proof.Machine.execStartDigest src digest committed s
  | .startTimeout => Sys2Proof.Machine.execStartTimeout s
  | .stop h b => Sys2Proof.Machine.execStop h b s
  | .stopMessage src => Sys2Proof.Machine.execStopMessage src s
  | .abort h b => Sys2Proof.Machine.execAbort h b s
  | .abortMessage src => Sys2Proof.Machine.execAbortMessage src s
  | .unload h b => Sys2Proof.Machine.execUnload h b s
  | .dmaRequestIssue core c tag => Sys2Proof.Machine.execDmaRequestIssue core c tag s
  | .memoryRequest src id master job write addr len data marks upsets => Sys2Proof.Machine.execMemoryRequest src id master job write addr len data marks upsets s
  | .dmaReply id refused reason data marks => Sys2Proof.Machine.execDmaReply id refused reason data marks s
  | .requestTimeout id => Sys2Proof.Machine.execRequestTimeout id s
  | .scrubCodeword u => Sys2Proof.Machine.execScrubCodeword u s
  | .applyDebugDrain h b => Sys2Proof.Machine.execApplyDebugDrain h b s
  | .debugDrainLimit => Sys2Proof.Machine.execDebugDrainLimit s
  | .applyVbRead h b => Sys2Proof.Machine.execApplyVbRead h b s
  | .portEnableWrite h b => Sys2Proof.Machine.execPortEnableWrite h b s
  | .signalDetected p => Sys2Proof.Machine.execSignalDetected p s
  | .signalTimeout p => Sys2Proof.Machine.execSignalTimeout p s
  | .identityExchange p chip pos role => Sys2Proof.Machine.execIdentityExchange p chip pos role s
  | .qualificationComplete p ok => Sys2Proof.Machine.execQualificationComplete p ok s
  | .linkRetry p => Sys2Proof.Machine.execLinkRetry p s
  | .flitReceived p bytes marks => Sys2Proof.Machine.execFlitReceived p bytes marks s
  | .flitSent p => Sys2Proof.Machine.execFlitSent p s
  | .retrainComplete p => Sys2Proof.Machine.execRetrainComplete p s
  | .retrainTimeout p => Sys2Proof.Machine.execRetrainTimeout p s
  | .packetArrival p => Sys2Proof.Machine.execPacketArrival p s
  | .applyTorus h b => Sys2Proof.Machine.execApplyTorus h b s
  | .applySlice h b => Sys2Proof.Machine.execApplySlice h b s
  | .slicePropose src d => Sys2Proof.Machine.execSlicePropose src d s
  | .sliceCommit src d => Sys2Proof.Machine.execSliceCommit src d s
  | .sliceRefuse src reason => Sys2Proof.Machine.execSliceRefuse src reason s
  | .sliceProposeTimeout => Sys2Proof.Machine.execSliceProposeTimeout s
  | .sliceMemberTimeout => Sys2Proof.Machine.execSliceMemberTimeout s
  | .openSlice h b => Sys2Proof.Machine.execOpenSlice h b s
  | .openReq src => Sys2Proof.Machine.execOpenReq src s
  | .openCheck src => Sys2Proof.Machine.execOpenCheck src s
  | .openReady src => Sys2Proof.Machine.execOpenReady src s
  | .openGo src => Sys2Proof.Machine.execOpenGo src s
  | .openFail src => Sys2Proof.Machine.execOpenFail src s
  | .openTimeout => Sys2Proof.Machine.execOpenTimeout s
  | .close h b => Sys2Proof.Machine.execClose h b s
  | .closeFlood src => Sys2Proof.Machine.execCloseFlood src s
  | .sliceFault src fault port => Sys2Proof.Machine.execSliceFault src fault port s
  | .dissolve h b => Sys2Proof.Machine.execDissolve h b s
  | .mgmtQueue => Sys2Proof.Machine.execMgmtQueue s
  | .cpMail src m => Sys2Proof.Machine.execCpMail src m s
  | .creq port h => Sys2Proof.Machine.execCreq port h s
  | .slotGrant => Sys2Proof.Machine.execSlotGrant s
  | .cgnt port h => Sys2Proof.Machine.execCgnt port h s
  | .chunk port h data marks => Sys2Proof.Machine.execChunk port h data marks s
  | .cack port h => Sys2Proof.Machine.execCack port h s
  | .cnak port h => Sys2Proof.Machine.execCnak port h s
  | .operandAdd entry issue chunk faults => Sys2Proof.Machine.execOperandAdd entry issue chunk faults s
  | .fusedCheckFail entry issue chunk => Sys2Proof.Machine.execFusedCheckFail entry issue chunk s
  | .retract src h => Sys2Proof.Machine.execRetract src h s
  | .cred port h => Sys2Proof.Machine.execCred port h s
  | .resolve src h => Sys2Proof.Machine.execResolve src h s
  | .collectiveTagComplete entry issue => Sys2Proof.Machine.execCollectiveTagComplete entry issue s
  | .epochAdvance => Sys2Proof.Machine.execEpochAdvance s
  | .normLeaf => Sys2Proof.Machine.execNormLeaf s
  | .verdictForm => Sys2Proof.Machine.execVerdictForm s
  | .verdictReceived => Sys2Proof.Machine.execVerdictReceived s
  | .buUpdateStart layer => Sys2Proof.Machine.execBuUpdateStart layer s
  | .layerCommit layer => Sys2Proof.Machine.execLayerCommit layer s
  | .commitStall record => Sys2Proof.Machine.execCommitStall record s
  | .applyHyperparameters h b => Sys2Proof.Machine.execApplyHyperparameters h b s
  | .applyNormPolicy h b => Sys2Proof.Machine.execApplyNormPolicy h b s
  | .feedPackRow channel => Sys2Proof.Machine.execFeedPackRow channel s
  | .feedReq stream => Sys2Proof.Machine.execFeedReq stream s
  | .feedReply d => Sys2Proof.Machine.execFeedReply d s
  | .feedTimeout ep num => Sys2Proof.Machine.execFeedTimeout ep num s
  | .applyFeed h b => Sys2Proof.Machine.execApplyFeed h b s
  | .applyReshard h b => Sys2Proof.Machine.execApplyReshard h b s
  | .reshardBoundary => Sys2Proof.Machine.execReshardBoundary s
  | .reshardGo src => Sys2Proof.Machine.execReshardGo src s
  | .reshardNogo src => Sys2Proof.Machine.execReshardNogo src s
  | .reshardDigestTimeout => Sys2Proof.Machine.execReshardDigestTimeout s
  | .reshardMoveDone => Sys2Proof.Machine.execReshardMoveDone s
  | .found h b => Sys2Proof.Machine.execFound h b s
  | .fedJoin h b => Sys2Proof.Machine.execFedJoin h b s
  | .fedLeave h b => Sys2Proof.Machine.execFedLeave h b s
  | .joinResend => Sys2Proof.Machine.execJoinResend s
  | .joinTimeout => Sys2Proof.Machine.execJoinTimeout s
  | .join d => Sys2Proof.Machine.execJoin d s
  | .joinAccept d => Sys2Proof.Machine.execJoinAccept d s
  | .joinRefuse d => Sys2Proof.Machine.execJoinRefuse d s
  | .ownerMap d => Sys2Proof.Machine.execOwnerMap d s
  | .heartbeatTimer => Sys2Proof.Machine.execHeartbeatTimer s
  | .heartbeat d => Sys2Proof.Machine.execHeartbeat d s
  | .memberTimeout member => Sys2Proof.Machine.execMemberTimeout member s
  | .leave d => Sys2Proof.Machine.execLeave d s
  | .contribution => Sys2Proof.Machine.execContribution s
  | .delta d => Sys2Proof.Machine.execDelta d s
  | .parity d => Sys2Proof.Machine.execParity d s
  | .sack d => Sys2Proof.Machine.execSack d s
  | .sackTimer member chip num => Sys2Proof.Machine.execSackTimer member chip num s
  | .rtoExpiry member chip peer peerPort num frag => Sys2Proof.Machine.execRtoExpiry member chip peer peerPort num frag s
  | .deltaReq d => Sys2Proof.Machine.execDeltaReq d s
  | .deltaGone d => Sys2Proof.Machine.execDeltaGone d s
  | .contribDone d => Sys2Proof.Machine.execContribDone d s
  | .roundDeadline => Sys2Proof.Machine.execRoundDeadline s
  | .coordTakeover => Sys2Proof.Machine.execCoordTakeover s
  | .roundClose d => Sys2Proof.Machine.execRoundClose d s
  | .manifestMerge => Sys2Proof.Machine.execManifestMerge s
  | .chainReq d => Sys2Proof.Machine.execChainReq d s
  | .forkDecision => Sys2Proof.Machine.execForkDecision s
  | .forkClose d => Sys2Proof.Machine.execForkClose d s
  | .stateReq d => Sys2Proof.Machine.execStateReq d s
  | .stateFrag d => Sys2Proof.Machine.execStateFrag d s
  | .applyFederation h b => Sys2Proof.Machine.execApplyFederation h b s
  | .applyCompression h b => Sys2Proof.Machine.execApplyCompression h b s
  | .applyOuterRule h b => Sys2Proof.Machine.execApplyOuterRule h b s
  | .twttInterval => Sys2Proof.Machine.execTwttInterval s
  | .probeInterval => Sys2Proof.Machine.execProbeInterval s
  | .timeProbe d => Sys2Proof.Machine.execTimeProbe d s
  | .timeReply d => Sys2Proof.Machine.execTimeReply d s
  | .referenceSilent => Sys2Proof.Machine.execReferenceSilent s
  | .ptpMessage port domain gm time => Sys2Proof.Machine.execPtpMessage port domain gm time s
  | .todNext h b => Sys2Proof.Machine.execTodNext h b s
  | .applySiteTime h b => Sys2Proof.Machine.execApplySiteTime h b s
  | .hello h hello => Sys2Proof.Machine.execHello h hello s
  | .proof h pub sig => Sys2Proof.Machine.execProof h pub sig s
  | .challengeTimeout number => Sys2Proof.Machine.execChallengeTimeout number s
  | .read h b => Sys2Proof.Machine.execRead h b s
  | .write h b => Sys2Proof.Machine.execWrite h b s
  | .blkWopen h b => Sys2Proof.Machine.execBlkWopen h b s
  | .blkWdata h b => Sys2Proof.Machine.execBlkWdata h b s
  | .blkWclose h b => Sys2Proof.Machine.execBlkWclose h b s
  | .blkRopen h b => Sys2Proof.Machine.execBlkRopen h b s
  | .blkRdata h b => Sys2Proof.Machine.execBlkRdata h b s
  | .blkRclose h b => Sys2Proof.Machine.execBlkRclose h b s
  | .subscribe h b => Sys2Proof.Machine.execSubscribe h b s
  | .keepalive h b => Sys2Proof.Machine.execKeepalive h b s
  | .dapClose h b => Sys2Proof.Machine.execDapClose h b s
  | .sessionIdleTimeout slot => Sys2Proof.Machine.execSessionIdleTimeout slot s
  | .closeSlot h b => Sys2Proof.Machine.execCloseSlot h b s
  | .reportAck h b => Sys2Proof.Machine.execReportAck h b s
  | .reportResend slot => Sys2Proof.Machine.execReportResend slot s
  | .arpRequest port addr => Sys2Proof.Machine.execArpRequest port addr s
  | .neighbourSolicitation port addr => Sys2Proof.Machine.execNeighbourSolicitation port addr s
  | .echoRequest port peer addr data => Sys2Proof.Machine.execEchoRequest port peer addr data s
  | .frameDiscard port fcs => Sys2Proof.Machine.execFrameDiscard port fcs s
  | .applyEthernetPort port h b => Sys2Proof.Machine.execApplyEthernetPort port h b s
  | .applyDapSession h b => Sys2Proof.Machine.execApplyDapSession h b s
  | .applyLifecycle h b => Sys2Proof.Machine.execApplyLifecycle h b s
  | .applyKeys h b => Sys2Proof.Machine.execApplyKeys h b s
  | .serviceExpiry => Sys2Proof.Machine.execServiceExpiry s
  | .attReport h b => Sys2Proof.Machine.execAttReport h b s
  | .streamSeg => Sys2Proof.Machine.execStreamSeg s
  | .streamAck d => Sys2Proof.Machine.execStreamAck d s
  | .streamResume d => Sys2Proof.Machine.execStreamResume d s
  | .snapNow h b => Sys2Proof.Machine.execSnapNow h b s
  | .snapCancel h b => Sys2Proof.Machine.execSnapCancel h b s
  | .snapshotBoundary => Sys2Proof.Machine.execSnapshotBoundary s
  | .snapSeg => Sys2Proof.Machine.execSnapSeg s
  | .snapDone d => Sys2Proof.Machine.execSnapDone d s
  | .snapTimeout => Sys2Proof.Machine.execSnapTimeout s
  | .applyExport h b => Sys2Proof.Machine.execApplyExport h b s
  | .applyKeySlot h b => Sys2Proof.Machine.execApplyKeySlot h b s
  | .encrypt q stop => Sys2Proof.Machine.execEncrypt q stop s
  | .decrypt q stop => Sys2Proof.Machine.execDecrypt q stop s
  | .unwrap slot src => Sys2Proof.Machine.execUnwrap slot src s
  | .cipherResume => Sys2Proof.Machine.execCipherResume s
  | .evack cp => Sys2Proof.Machine.execEvack cp s
  | .evdone cp value => Sys2Proof.Machine.execEvdone cp value s
  | .evcpWrite cp value => Sys2Proof.Machine.execEvcpWrite cp value s
  | .sleep cp => Sys2Proof.Machine.execSleep cp s
  | .applyEventSource h b => Sys2Proof.Machine.execApplyEventSource h b s
  | .clear h b => Sys2Proof.Machine.execClear h b s
  | .applyTension h b => Sys2Proof.Machine.execApplyTension h b s
  | .fwStage h b => Sys2Proof.Machine.execFwStage h b s
  | .fwCommit h b => Sys2Proof.Machine.execFwCommit h b s
  | .fwCancel h b => Sys2Proof.Machine.execFwCancel h b s
  | .gaugeShutdown h b => Sys2Proof.Machine.execGaugeShutdown h b s
  | .gaugeTest h b => Sys2Proof.Machine.execGaugeTest h b s
  | .runCustom h b => Sys2Proof.Machine.execRunCustom h b s
  | .gaugeDieDone d => Sys2Proof.Machine.execGaugeDieDone d s
  | .gaugeTemperatureStop => Sys2Proof.Machine.execGaugeTemperatureStop s
  | .shutdownReqN level => Sys2Proof.Machine.execShutdownReqN level s
  | .shutdownGrace => Sys2Proof.Machine.execShutdownGrace s
  | .inputPowerGood => Sys2Proof.Machine.execInputPowerGood s
  | .inputUndervoltage => Sys2Proof.Machine.execInputUndervoltage s
  | .inputOvervoltage => Sys2Proof.Machine.execInputOvervoltage s
  | .thermAlert => Sys2Proof.Machine.execThermAlert s
  | .thermalHold => Sys2Proof.Machine.execThermalHold s
  | .thermalTrip => Sys2Proof.Machine.execThermalTrip s
  | .flProgN level straps => Sys2Proof.Machine.execFlProgN level straps s
  | .i2cPointerWrite pointer => Sys2Proof.Machine.execI2cPointerWrite pointer s
  | .i2cRead => Sys2Proof.Machine.execI2cRead s
  | .applyBoard h b => Sys2Proof.Machine.execApplyBoard h b s
  | .flitLockLost p => Sys2Proof.Machine.execFlitLockLost p s
  | .ethernetLinkUp port mode => Sys2Proof.Machine.execEthernetLinkUp port mode s
  | .ethernetLinkDown port => Sys2Proof.Machine.execEthernetLinkDown port s
  | .inputOvervoltageCleared => Sys2Proof.Machine.execInputOvervoltageCleared s
  | .regulatorsInRegulation straps => Sys2Proof.Machine.execRegulatorsInRegulation straps s
  | .ppsOutPulse => Sys2Proof.Machine.execPpsOutPulse s

end Sys2Proof.Machine
end

