-- ==== Sys2Proof/WellFormed.lean ====
section
/-! DEFINITION. The operands a command must have to be one of its row's: payloads whose length the manual fixes.
Every other operand is well-formed by its type. -/

namespace Sys2Proof

/-- HELLO is 104 bytes (R390). -/
def WellFormed.hello (hello : List Byte) : Bool := decide (hello.length = 104)

/-- PROOF carries a 57-byte public key and a 114-byte signature (R390). -/
def WellFormed.proof (pub sig : List Byte) : Bool := decide (pub.length = 57) && decide (sig.length = 114)

/-- START_DIGEST carries the 64-byte image digest (R186). -/
def WellFormed.startDigest (digest : List Byte) : Bool := decide (digest.length = 64)

/-- A memory request is of whole pocket words at a word address, at most 256 bytes, and a write carries its bytes (R191). -/
def WellFormed.memoryRequest (write : Bool) (addr : BitVec 52) (len : Fin 257) (data : List Byte) : Bool :=
  decide (len.val ≠ 0) && decide (addr.toNat % 8 = 0) && decide (len.val % 8 = 0) && (!write || decide (data.length = len.val))

/-- A torus flit is 272 bytes (R217). -/
def WellFormed.flit (bytes : List Byte) : Bool := decide (bytes.length = 272)

/-- A management message carries at most 992 bytes (R236). -/
def WellFormed.mail (m : Mail) : Bool :=
  match m with
  | .raw b => decide (b.length ≤ 992)
  | _ => true

/-- The command has a shape that its row gives it. -/
def WellFormed (i : Instr) : Bool :=
  match i with
  | .hello _ hello => WellFormed.hello hello
  | .proof _ pub sig => WellFormed.proof pub sig
  | .startDigest _ digest _ => WellFormed.startDigest digest
  | .memoryRequest _ _ _ _ write addr len data _ _ => WellFormed.memoryRequest write addr len data
  | .flitReceived _ bytes _ => WellFormed.flit bytes
  | .cpMail _ m => WellFormed.mail m
  | _ => true

end Sys2Proof
end

