-- ==== Sys2Proof/Safety.lean ====
section
/-! DEFINITION. What a safe run is, and the terms in which claims about commands are stated: the memory's canonical form; an
instruction that a core may issue now and what it leaves as it was; a DAP request whose turn has come and its answer. -/

namespace Sys2Proof

/-- Addresses rise strictly. -/
def Memory.rising : List Nat → Bool
  | [] => true
  | [_] => true
  | a :: b :: l => decide (a < b) && Memory.rising (b :: l)

/-- The canonical form of the memory: bytes in order of address with none equal to what an unlisted address reads as, no
codeword marked poisoned twice, and symbols in error listed only where there are some. -/
def Memory.wf (m : Machine.MemSt) : Bool :=
  Sparse.wf m.dflt m.bytes && Memory.rising m.poison && Sparse.wf Machine.symDflt m.symErr

/-- A run is safe where every step answers a next state. -/
def Safe (s : Machine.State) : Prop := ∃ t, Machine.step s = .next t

/-- What every reachable state has: a memory in canonical form. -/
def Inv (s : Machine.State) : Prop := Memory.wf s.mem = true

namespace Machine

/-! ### Core instructions -/

/-- The context may issue, no codeword of the memory is poisoned or has symbols in error, and the words at the context's
program counter are instruction `i` of `w` words. -/
abbrev Issues (s : State) (core : Nat) (c : CtxId) (i : PI) (w : Nat) : Prop :=
  s.mayIssue core c = true ∧ s.mem.poison = [] ∧ s.mem.symErr = [] ∧
    decodePI (s.wordsAt core ((s.core core).ctx c).pc).1 (s.wordsAt core ((s.core core).ctx c).pc).2 = some (i, w)

/-- Of the whole state only bytes of memory and the cores differ; of the cores only context `c` of `core`, which is `y`. -/
def OnlyCtx (s t : State) (core : Nat) (c : CtxId) (y : Ctx) : Prop :=
  t = { s with mem := t.mem, cores := t.cores } ∧ t.mem = { s.mem with bytes := t.mem.bytes } ∧
    t.core core = (s.core core).setCtx c y ∧ ∀ j, j ≠ core → t.core j = s.core j

/-- Elements `zs` of `wd` bytes stand at `dst 0`, `dst 1` and so on, and every other byte is as it was. -/
def Stored (s t : State) (dst : Nat → Nat) (wd : Nat) (zs : List Nat) : Prop :=
  (∀ k, k < zs.length → t.mem.read (dst k) wd = leBytes wd (nth 0 zs k)) ∧
    ∀ a, (∀ k, k < zs.length → a < dst k ∨ dst k + wd ≤ a) → t.mem.byte a = s.mem.byte a

/-- Every byte of memory is as it was. -/
def SameBytes (s t : State) : Prop := ∀ a, t.mem.byte a = s.mem.byte a

/-- First element of a buffer operand, after its index register (R155). -/
def opndOff (s : State) (core : Nat) (c : CtxId) (o : Opnd) : Int := (o.off : Int) + ((s.core core).ctx c).regs.x o.xs

/-- Address of element `k` of a buffer operand (R125). -/
def opndAt (s : State) (core : Nat) (c : CtxId) (fmt : Nat) (o : Opnd) (k : Nat) : Nat :=
  elemAddr core o.kind (fmtWidth fmt) (opndOff s core c o) o.stride k

/-- The context after an instruction of `w` words that ORs flags `fl` into FSTAT. -/
def wentOn (y : Ctx) (w : Nat) (fl : Flg) : Ctx := { y with regs := y.regs.flag fl }.advance w

/-- A vector instruction's answer: elements `zs` of format `fmt` in the destination operand, flags in FSTAT, the program
counter past the instruction, everything else as it was (R89, R128, R132). -/
def VecAnswer (s t : State) (core : Nat) (c : CtxId) (w fmt : Nat) (d : Opnd) (zs : List Nat) (fl : Flg) : Prop :=
  OnlyCtx s t core c (wentOn ((s.core core).ctx c) w fl) ∧ Stored s t (opndAt s core c fmt d) (fmtWidth fmt) zs

/-- The destination operand lies from its buffer's start upward and its elements do not repeat (R125). -/
abbrev DestOk (s : State) (core : Nat) (c : CtxId) (d : Opnd) : Prop := 0 ≤ opndOff s core c d ∧ 1 ≤ d.stride

/-- Elements and flags of a source operand as the instruction reads it. -/
def srcOf (s : State) (core : Nat) (c : CtxId) (fmt n tile : Nat) (o : Opnd) : List Nat × Flg :=
  ((s.readOpnd core c fmt n tile o).1, (s.readOpnd core c fmt n tile o).2.1)

/-- Rows of two sources: command, operation code of Table 7.9, and what one lane gives for a format, a rounding and two
elements. -/
def binaryRows : List ((CoreId → CtxId → Instr) × Nat × (Nat → RMode → Nat → Nat → Nat × Flg)) :=
  [(.add, 0x00, fun f md a b => fadd (longFmt f) md a b), (.sub, 0x01, fun f md a b => fsub (longFmt f) md a b),
   (.mul, 0x02, fun f md a b => fmul (longFmt f) md a b), (.div, 0x03, fun f md a b => fdiv (longFmt f) md a b),
   (.min, 0x06, fun f _ a b => fminmax (longFmt f) false a b), (.max, 0x07, fun f _ a b => fminmax (longFmt f) true a b),
   (.minn, 0x08, fun f _ a b => fminmaxNum (longFmt f) false a b), (.maxn, 0x09, fun f _ a b => fminmaxNum (longFmt f) true a b),
   (.cps, 0x0D, fun f _ a b => (a % (longFmt f).sgn + (if (longFmt f).neg b then (longFmt f).sgn else 0), 0)),
   (.iadd, 0x11, fun _ _ a b => ((a + b) % 2 ^ 32, 0)), (.isub, 0x12, fun _ _ a b => ((a + 2 ^ 32 - b % 2 ^ 32) % 2 ^ 32, 0)),
   (.imul, 0x13, fun _ _ a b => (a * b % 2 ^ 32, 0)),
   (.imin, 0x14, fun _ _ a b => (if signed 32 a ≤ signed 32 b then a else b, 0)),
   (.imax, 0x15, fun _ _ a b => (if signed 32 b ≤ signed 32 a then a else b, 0)),
   (.and, 0x16, fun _ _ a b => (a &&& b, 0)), (.or, 0x17, fun _ _ a b => (a ||| b, 0)), (.xor, 0x18, fun _ _ a b => (a ^^^ b, 0)),
   (.shl, 0x1A, fun _ _ a b => (a * 2 ^ (b % 32) % 2 ^ 32, 0)), (.shrl, 0x1B, fun _ _ a b => (a / 2 ^ (b % 32), 0)),
   (.shra, 0x1C, fun _ _ a b => (unsigned 32 (signed 32 a / (2 ^ (b % 32) : Int)), 0))]

/-- Rows of one source. -/
def unaryRows : List ((CoreId → CtxId → Instr) × Nat × (Nat → RMode → Nat → Nat × Flg)) :=
  [(.sqrt, 0x04, fun f md a => fsqrt (longFmt f) md a), (.rint, 0x0A, fun f md a => frint (longFmt f) md a),
   (.abs, 0x0B, fun f _ a => (a % (longFmt f).sgn, 0)),
   (.neg, 0x0C, fun f _ a => (if (longFmt f).neg a then a - (longFmt f).sgn else a + (longFmt f).sgn, 0)),
   (.mov, 0x0E, fun _ _ a => (a, 0)), (.not, 0x19, fun f _ a => ((2 ^ (8 * fmtWidth f) - 1) ^^^ a, 0)),
   (.exp2, 0x20, fun f _ a => approxIn (longFmt f) 0x20 a), (.exp, 0x21, fun f _ a => approxIn (longFmt f) 0x21 a),
   (.log2, 0x22, fun f _ a => approxIn (longFmt f) 0x22 a), (.log, 0x23, fun f _ a => approxIn (longFmt f) 0x23 a),
   (.rcp, 0x24, fun f _ a => approxIn (longFmt f) 0x24 a), (.rsqrt, 0x25, fun f _ a => approxIn (longFmt f) 0x25 a),
   (.tanh, 0x26, fun f _ a => approxIn (longFmt f) 0x26 a), (.sigm, 0x27, fun f _ a => approxIn (longFmt f) 0x27 a),
   (.sin, 0x28, fun f _ a => approxIn (longFmt f) 0x28 a), (.cos, 0x29, fun f _ a => approxIn (longFmt f) 0x29 a)]

/-- Reductions: command, operation code, leaf and combination in binary32 (Table 6.6). -/
def reduceRows : List ((CoreId → CtxId → Instr) × Nat × (RMode → Nat → Nat × Flg) × (RMode → Nat → Nat → Nat × Flg)) :=
  [(.redsum, 0x30, fun _ x => (x, 0), fun md a b => fadd b32 md a b),
   (.redssq, 0x31, fun md x => fmul b32 md x x, fun md a b => fadd b32 md a b),
   (.redmax, 0x32, fun _ x => (x, 0), fun _ a b => fminmax b32 true a b),
   (.redmin, 0x33, fun _ x => (x, 0), fun _ a b => fminmax b32 false a b),
   (.redamax, 0x34, fun _ x => (x % 2 ^ 31, 0), fun _ a b => fminmax b32 true a b)]

/-! ### Commands of the control processors and of the board -/

/-- Objects outside `ks` read as they did, but for the counters of reports and of occurrences that an event moves. -/
def SameObjs (s t : State) (ks : List Nat) : Prop :=
  ∀ k, k ∉ ks → k ≠ Obj.REPORTS_LOST → k ≠ Obj.FORWARDED → k ≠ Obj.OVERRUNS → t.obj k = s.obj k

/-- Memory, the cores, the flash and the torus are as they were. -/
def SameWork (s t : State) : Prop := t.mem = s.mem ∧ t.cores = s.cores ∧ t.flash = s.flash ∧ t.torus = s.torus

/-! ### Requests of a DAP session -/

/-- A datagram with body `b` that passes every check of R389: DAP is accepted and served where it arrives, its form is right, its session
lives, and its tag is the one that the session's key gives. -/
abbrev Valid (s : State) (h : DapHdr) (b : DapBody) : Prop :=
  s.dapOn = true ∧ s.dapServes h.port h.linkLocal = true ∧ dapFormOk h (bodyBytes b).2.length = true ∧
    (s.session (h.session.toNat % 8)).live = true ∧ (s.session (h.session.toNat % 8)).value (h.session.toNat % 8) = h.session.toNat ∧
    h.tag = (dapSeal ((s.session (h.session.toNat % 8)).key.take 32) (bodyBytes b).1 h.session.toNat h.seq.toNat (bodyBytes b).2).2

/-- Its turn has come: its SEQ is the next one, and no request is held (R392). -/
abbrev Due (s : State) (h : DapHdr) (b : DapBody) : Prop :=
  Valid s h b ∧ h.seq.toNat = (s.session (h.session.toNat % 8)).next ∧ (s.session (h.session.toNat % 8)).held = []

/-- The state in which a due request runs: its frame is counted, EV_DAP_RX raised, and its session follows the station (R389, R393). -/
def arrived (s : State) (h : DapHdr) (b : DapBody) : State :=
  let slot := h.session.toNat % 8
  let t := (s.frameIn h.port.val).raiseN Ev.DAP_RX slot
  let x := t.session slot
  t.setSession slot { x with
    peer := h.peer, peerPort := h.peerPort.toNat, port := h.port.val, last := t.now
    idle := if (bodyBytes b).1 = 8 then t.obj Obj.SESSION_IDLE else x.idle, held := [] }

/-- The response to a request, sealed, to the station that sent it (R393, R394). -/
def respMsg (s : State) (h : DapHdr) (b : DapBody) (status detail : Nat) (value : List Byte) : Msg :=
  let x := s.session (h.session.toNat % 8)
  let n := bodyName b
  let p := Resp.payload ⟨x.next, status, detail, n.1, n.2.1, n.2.2, value⟩
  let c := dapSeal (x.key.drop 32) 9 h.session.toNat x.next p
  .udp h.port.val h.peer h.peerPort.toNat (s.obj Obj.DAP_PORT) (dapHeader 9 h.session.toNat x.next p.length ++ c.1 ++ c.2)

/-- The last message sent is the request's response, and the session has gone on to the next SEQ, unless it has ended. -/
def Answered (s t : State) (h : DapHdr) (b : DapBody) (status detail : Nat) (value : List Byte) : Prop :=
  t.outbox.getLast? = some (respMsg s h b status detail value) ∧
    ((t.session (h.session.toNat % 8)).live = true →
      (t.session (h.session.toNat % 8)).next = (s.session (h.session.toNat % 8)).next + 1)

/-- Value that a request writes; an APPLY is a write of 1. -/
def written : DapBody → Nat
  | .write _ _ _ v => ofBe v
  | _ => 1

/-- A due request of the row of `key` and `v`, as an APPLY or as a write of the object's type, length and range, by a class that holds
the right, while the device accepts more than reads. -/
def Asked (s : State) (h : DapHdr) (b : DapBody) (key v : Nat) : Prop :=
  Due s h b ∧ s.obj Obj.GAUGE_STATE ≠ 3 ∧ rowOf b = some (key, v) ∧
    s.allows (s.session (h.session.toNat % 8)).cls key (written b) true = true ∧
    (match b with
     | .write ix sub ty val => ∃ d, Obj.find ix.toNat sub.toNat = some d ∧ ty.toNat = d.ty.code ∧ val.length = d.ty.bytes ∧
        d.rng.admits (ofBe val) = true
     | .apply _ _ _ => True
     | _ => False)

/-- An APPLY of a group of which something is staged and every candidate lies in its range. -/
def Applies (s : State) (h : DapHdr) (b : DapBody) (ix : Nat) : Prop :=
  Asked s h b (ix * 256 + 0xFF) 0 ∧ (s.session (h.session.toNat % 8)).stagedIn ix = true ∧ s.firstBad (h.session.toNat % 8) ix = none

/-! ### Torus, transport and collectives -/

/-- Memory, the cores and the flash are as they were. -/
def SameBase (s t : State) : Prop := t.mem = s.mem ∧ t.cores = s.cores ∧ t.flash = s.flash

/-- Of the whole state only torus port `p` differs, and messages may have left. -/
def OnlyPort (s t : State) (p : Nat) : Prop :=
  t = { s with torus := { s.torus with ports := t.torus.ports }, outbox := t.outbox } ∧ s.outbox <+: t.outbox ∧
    ∀ q, q ≠ p → t.port q = s.port q

/-- Flits of a collective packet to the neighbour on a port code (R226, R250, Table 10.5). -/
def collFlits (s : State) (p : PlanEntry) (code ty : Nat) (h : CollHdr) (data : List Byte) (marks : List Nat) : List Flit :=
  let hd : PktHdr := ⟨s.chipAt (s.hop s.myPos code), s.chip, s.obj Obj.SLICE_ID, 1, ty, 1 + ceilDiv data.length 256, 0x0DA, collBytes h⟩
  flitsOf (s.vcOf p code) (if s.wrapLink code then 1 else 0) (padTo 256 hd.bytes ++ data) marks

/-- The packet has been queued at the port on its code, in order; others may follow it. -/
def Queued (s t : State) (p : PlanEntry) (code ty : Nat) (h : CollHdr) (data : List Byte) (marks : List Nat) : Prop :=
  ((s.port (s.physOf code)).outq ++ collFlits s p code ty h data marks) <+: (t.port (s.physOf code)).outq

/-- State of a chunk on the hop on a port code (R251). -/
def hopAt (s : State) (p : PlanEntry) (ch : ChunkSt) (code : Nat) : Nat :=
  if code = (s.treeOf p).1 then ch.up else Sparse.get (fun _ => 0) ch.down code

/-- Other members of the slice in force. -/
def State.others (s : State) : List Nat := (s.membersOf s.sliceDef).filter (· != s.chip)

/-- A datagram of type `ty` passes the checks of R329 and its decryption: header `h`, payload `b`, and the state `t` in which the
message then acts. -/
abbrev Takes (s : State) (d : Dgram) (ty : Nat) (h : FxpHdr) (b : List Byte) (t : State) : Prop :=
  s.up = true ∧ (s.frameIn d.port.val).fxpTake d.bytes = (some (h, b), t) ∧ h.ty = ty

/-- A fragment that passes the checks makes its transfer whole: the byte string `bs`, and the state in which the message acts. -/
def Completes (s : State) (d : Dgram) (ty : Nat) (h : FxpHdr) (bs : List Byte) (t : State) : Prop :=
  ∃ b u, Takes s d ty h b u ∧ u.rxData (stationOf d h) h (d.bytes.drop 40) b = (some bs, t)

/-- The last message is a datagram to a peer: its type, flags, round and payload, with a header of Table 13.1. -/
def Sent (s t : State) (p : Peer) (ty flags round : Nat) (payload : List Byte) : Prop :=
  ∃ x, t.outbox.getLast? = some (.udp (s.ethFor p) p.addr p.port (s.obj Obj.UDP_PORT) ((s.fxpHdr p ty flags round x 0 1).datagram payload))

end Machine

end Sys2Proof
end

