-- ==== Sys2Proof/Certificates/Slice0/Obligations.lean ====
section
/-! DEFINITION. The statements for the provers. -/

open Sys2Proof Sys2Proof.Machine

/-- STEP_FRONT. A step takes the command at the front of the queue and runs exec on the state with the rest; the queue is
first in, first out. -/
def Obligations.StepTakesFront : Prop :=
  ∀ (c : Instr) (s : State), step { s with pending := c :: s.pending } = exec c s

/-- STEP_IDLE. With no command waiting a step answers a next state. While the device is held in reset nothing changes; else
the accumulator of the timebase takes one REFCLK cycle. The model's choice (DESIGN CHOICE, log 18). -/
def Obligations.StepIdles : Prop :=
  ∀ s : State, s.pending = [] →
    (s.boot.stage = .held → step s = .next s) ∧
    (s.boot.stage ≠ .held → ∃ t, step s = .next t ∧ t.tb = s.tb.cycle ∧ t.pending = [])

/-- STOPS. A command is refused never, and stops the block only where its payload has a length that no message of its kind
has; every other command answers a next state in every state. -/
def Obligations.StopsOnlyIllFormed : Prop :=
  ∀ (i : Instr) (s : State),
    (WellFormed i = true → ∃ t, exec i s = .next t) ∧ (WellFormed i = false → exec i s = .fault .illFormed)

/-- INVARIANT. Whatever command runs, and on an idle cycle, the memory keeps its canonical form. -/
def Obligations.StepKeepsMemoryForm : Prop :=
  ∀ s t : State, Inv s → step s = .next t → Inv t

/-- INVARIANT_AT_RESET. The memory at reset has the canonical form, and so has the memory that each operation on memory leaves:
a read, a write, a write of marked bytes, a zeroing, and clearing the Ledger. -/
def Obligations.ResetHasMemoryForm : Prop :=
  Inv State.reset ∧
  ∀ s : State, Inv s →
    (∀ a n m, Inv (s.readMem a n m).2.2) ∧ (∀ a bs m, Inv (s.writeMem a bs m)) ∧ (∀ a bs ps m, Inv (s.writePoison a bs ps m)) ∧
    (∀ a n, Inv (s.zeroMem a n)) ∧ Inv s.clearLedger

/-- VECTOR_BINARY. ADD to MAXN, CPS, the I32 and bitwise rows: every row of two sources gives each lane its result, ORs the
lanes' flags into FSTAT and goes on; nothing else changes. -/
def Obligations.VectorBinary : Prop :=
  ∀ row ∈ binaryRows, ∀ (s : State) (core : CoreId) (c : CtxId) (w fmt rm n gl tile : Nat) (d a b e : Opnd),
    Issues s core.val c (.va row.2.1 fmt rm n gl tile d a b e) w →
    vecReady s core.val c (.va row.2.1 fmt rm n gl tile d a b e) = true →
    DestOk s core.val c d →
    let x := srcOf s core.val c fmt n tile a
    let y := srcOf s core.val c fmt n tile b
    let lane := row.2.2 fmt (opMode rm (s.fmode core.val c))
    ∃ t, exec (row.1 core c) s = .next t ∧
      VecAnswer s t core.val c w fmt d ((x.1.zip y.1).map (fun p => (lane p.1 p.2).1))
        (Flg.union ((x.1.zip y.1).map (fun p => (lane p.1 p.2).2)) ||| x.2 ||| y.2)

/-- VECTOR_UNARY. SQRT, RINT, the sign rows, MOV, NOT and the approximations. -/
def Obligations.VectorUnary : Prop :=
  ∀ row ∈ unaryRows, ∀ (s : State) (core : CoreId) (c : CtxId) (w fmt rm n gl tile : Nat) (d a b e : Opnd),
    Issues s core.val c (.va row.2.1 fmt rm n gl tile d a b e) w →
    vecReady s core.val c (.va row.2.1 fmt rm n gl tile d a b e) = true →
    DestOk s core.val c d →
    let x := srcOf s core.val c fmt n tile a
    let lane := row.2.2 fmt (opMode rm (s.fmode core.val c))
    ∃ t, exec (row.1 core c) s = .next t ∧
      VecAnswer s t core.val c w fmt d (x.1.map (fun v => (lane v).1)) (Flg.union (x.1.map (fun v => (lane v).2)) ||| x.2)

/-- VECTOR_THREE. FMA rounds a × b + c once; SEL takes a where bit 0 of the mask element is 1 and b elsewhere; CMP writes a U8
mask under the predicate in RM; IOTA writes a + i × b modulo 2^32. -/
def Obligations.VectorThree : Prop :=
  ∀ (s : State) (core : CoreId) (c : CtxId) (w op fmt rm n gl tile : Nat) (d a b e : Opnd),
    Issues s core.val c (.va op fmt rm n gl tile d a b e) w →
    vecReady s core.val c (.va op fmt rm n gl tile d a b e) = true →
    DestOk s core.val c d →
    let x := srcOf s core.val c fmt n tile a
    let y := srcOf s core.val c fmt n tile b
    (op = 0x05 →
      let z := srcOf s core.val c fmt n tile e
      let r := (x.1.zip (y.1.zip z.1)).map (fun p => ffma (longFmt fmt) (opMode rm (s.fmode core.val c)) p.1 p.2.1 p.2.2)
      ∃ t, exec (.fma core c) s = .next t ∧
        VecAnswer s t core.val c w fmt d (r.map Prod.fst) (Flg.union (r.map Prod.snd) ||| x.2 ||| y.2 ||| z.2)) ∧
    (op = 0x0F →
      let z := srcOf s core.val c 6 n tile e
      ∃ t, exec (.sel core c) s = .next t ∧
        VecAnswer s t core.val c w fmt d ((x.1.zip (y.1.zip z.1)).map (fun p => if p.2.2 % 2 = 1 then p.1 else p.2.1))
          (x.2 ||| y.2 ||| z.2)) ∧
    (op = 0x10 →
      ∃ t, exec (.cmp core c) s = .next t ∧
        VecAnswer s t core.val c w 6 d ((x.1.zip y.1).map (fun p => (cmpEl fmt rm p.1 p.2).1))
          (Flg.union ((x.1.zip y.1).map (fun p => (cmpEl fmt rm p.1 p.2).2)) ||| x.2 ||| y.2)) ∧
    (op = 0x1D →
      let u := srcOf s core.val c fmt 1 tile a
      let v := srcOf s core.val c fmt 1 tile b
      ∃ t, exec (.iota core c) s = .next t ∧
        VecAnswer s t core.val c w fmt d ((List.range n).map (fun j => (nth 0 u.1 0 + j * nth 0 v.1 0) % 2 ^ 32)) 0)

/-- VECTOR_REDUCE. A reduction widens each element to binary32, forms its leaves and reduces each group of G lanes in the fixed
pairwise tree; REDARGMAX writes I32 indices of the maximum, or of the first NaN, of each group. -/
def Obligations.VectorReduce : Prop :=
  (∀ row ∈ reduceRows, ∀ (s : State) (core : CoreId) (c : CtxId) (w fmt rm n gl tile : Nat) (d a b e : Opnd),
    Issues s core.val c (.va row.2.1 fmt rm n gl tile d a b e) w →
    vecReady s core.val c (.va row.2.1 fmt rm n gl tile d a b e) = true →
    DestOk s core.val c d →
    let x := srcOf s core.val c fmt n tile a
    let md := RMode.ofCode (s.fmode core.val c % 8)
    let wd := mapFlags (widenEl fmt) x.1
    let lf := mapFlags (row.2.2.1 md) wd.1
    let r := (chunksOf (if gl = 0 then n else 2 ^ gl) n lf.1).map (treeFold (row.2.2.2 md) 13)
    ∃ t, exec (row.1 core c) s = .next t ∧
      VecAnswer s t core.val c w 4 d (r.map Prod.fst) (Flg.union (r.map Prod.snd) ||| x.2 ||| wd.2 ||| lf.2)) ∧
  (∀ (s : State) (core : CoreId) (c : CtxId) (w fmt rm n gl tile : Nat) (d a b e : Opnd),
    Issues s core.val c (.va 0x35 fmt rm n gl tile d a b e) w →
    vecReady s core.val c (.va 0x35 fmt rm n gl tile d a b e) = true →
    DestOk s core.val c d →
    let x := srcOf s core.val c fmt n tile a
    let wd := mapFlags (widenEl fmt) x.1
    ∃ t, exec (.redargmax core c) s = .next t ∧
      VecAnswer s t core.val c w 5 d ((chunksOf (if gl = 0 then n else 2 ^ gl) n wd.1).map argMax)
        (((wd.2 &&& Fl.NV) ||| Flg.on (fmt == 4 && x.1.any b32.isSNaN) Fl.NV) ||| x.2))

/-- VECTOR_CONVERT. CVT along the paths of Table 4.5: widening to binary32, I32 to binary32, narrowing of binary32 with SRSTATE
moved on by the draws, and both directions of a block-scaled operand. -/
def Obligations.VectorConvert : Prop :=
  ∀ (s : State) (core : CoreId) (c : CtxId) (w src dst rm n tile : Nat) (d a : Opnd),
    Issues s core.val c (.cvt src dst rm n tile d a) w →
    vecReady s core.val c (.cvt src dst rm n tile d a) = true →
    DestOk s core.val c d →
    let x := srcOf s core.val c src n tile a
    let y := (s.core core.val).ctx c
    let fm := y.regs.fmode.toNat
    (src = 5 → ∃ t, exec (.cvt core c) s = .next t ∧
      VecAnswer s t core.val c w dst d (x.1.map (fun v => (i32ToF (opMode rm fm) v).1))
        (Flg.union (x.1.map (fun v => (i32ToF (opMode rm fm) v).2)))) ∧
    (src < 5 ∧ dst = 4 → ∃ t, exec (.cvt core c) s = .next t ∧
      VecAnswer s t core.val c w 4 d (x.1.map (fun v => (widenEl src v).1)) (Flg.union (x.1.map (fun v => (widenEl src v).2)) ||| x.2)) ∧
    (src = 4 ∧ dst ≠ 4 ∧ dst ≠ 7 ∧ dst ≠ 8 →
      let r := convList (cvtSel rm fm dst) (fun m v => narrowEl dst (navOvf fm) m v) y.regs.srstate.toNat x.1
      ∃ t, exec (.cvt core c) s = .next t ∧
        OnlyCtx s t core.val c ({ y with regs := { y.regs.flag (r.2.1 ||| x.2) with srstate := BitVec.ofNat 64 r.2.2 } }.advance w) ∧
        Stored s t (opndAt s core.val c dst d) (fmtWidth dst) r.1) ∧
    (src = 4 ∧ (dst = 7 ∨ dst = 8) →
      let r := toBlocks (blockFmt dst) (navOvf fm) (cvtSel rm fm dst) y.regs.srstate.toNat (groups32 x.1)
      ∃ t, exec (.cvt core c) s = .next t ∧
        OnlyCtx s t core.val c ({ y with regs := { y.regs.flag (r.2.2.1 ||| x.2) with srstate := BitVec.ofNat 64 r.2.2.2 } }.advance w) ∧
        Stored s t (fun k => vbAddr core.val d.kind (opndOff s core.val c d).toNat + k) 1 (r.1 ++ r.2.1)) ∧
    (src = 7 ∨ src = 8 →
      let at_ := vbAddr core.val a.kind (opndOff s core.val c a).toNat
      let r := fromBlocks (blockFmt src) ((s.mem.read at_ n).map BitVec.toNat) ((s.mem.read (at_ + n) (n / 32)).map BitVec.toNat)
      ∃ t, exec (.cvt core c) s = .next t ∧ VecAnswer s t core.val c w dst d r.1 r.2)

/-- VECTOR_PERM. With every index below N, PERM writes a[idx[i]]. With an index out of range it writes 0 there when STRICT is 0,
counts the lanes and records the first; when STRICT is 1 it writes nothing and the context stops where it is. -/
def Obligations.VectorPerm : Prop :=
  ∀ (s : State) (core : CoreId) (c : CtxId) (w fmt n tile : Nat) (d a b : Opnd),
    Issues s core.val c (.perm fmt n tile d a b) w →
    vecReady s core.val c (.perm fmt n tile d a b) = true →
    DestOk s core.val c d →
    let x := srcOf s core.val c fmt n tile a
    let y := srcOf s core.val c 5 n tile b
    let bad := ((List.range n).zip y.1).filter (fun p => decide (n ≤ p.2))
    let strict := ((s.core core.val).ctx c).regs.rctl.toNat % 2
    (bad = [] → ∃ t, exec (.perm core c) s = .next t ∧
      VecAnswer s t core.val c w fmt d (y.1.map (fun j => if j < n then nth 0 x.1 j else 0)) (x.2 ||| y.2)) ∧
    (bad ≠ [] ∧ strict = 0 → ∃ t, exec (.perm core c) s = .next t ∧
      Stored s t (opndAt s core.val c fmt d) (fmtWidth fmt) (y.1.map (fun j => if j < n then nth 0 x.1 j else 0)) ∧
      (t.core core.val).permx = satAdd 32 (s.core core.val).permx bad.length ∧
      ((t.core core.val).ctx c).regs.rstat.toNat % 2 = 1) ∧
    (bad ≠ [] ∧ strict = 1 → ∃ t, exec (.perm core c) s = .next t ∧ SameBytes s t ∧
      ((t.core core.val).ctx c).stopped = true ∧ ((t.core core.val).ctx c).pc = ((s.core core.val).ctx c).pc)

/-- XR. XR_READ writes the low and the high 32 bits of TSTAT, TXR0, TXR1 or RSTAT as two I32 elements, once a tile's settle token
is there; XR_WRITE clears the W1C flags of TSTAT, or those of RSTAT, that the 64-bit value names. -/
def Obligations.ExceptionRecords : Prop :=
  ∀ (s : State) (core : CoreId) (c : CtxId) (w sel tile : Nat) (loc : Opnd),
    0 ≤ opndOff s core.val c loc →
    let y := (s.core core.val).tile c tile
    let z := (s.core core.val).ctx c
    let e := (s.readBuf core.val c 5 2 loc.kind (opndOff s core.val c loc) 1).1
    let v := nth 0 e 0 + nth 0 e 1 * 2 ^ 32
    (Issues s core.val c (.xr false sel tile loc) w → (sel = 3 ∨ y.settled = true) →
      let u := if sel = 0 then y.tstat else if sel = 1 then y.txr0.toNat else if sel = 2 then y.txr1 else z.regs.rstat.toNat
      ∃ t, exec (.xrRead core c) s = .next t ∧ OnlyCtx s t core.val c (z.advance w) ∧
        Stored s t (fun k => elemAddr core.val loc.kind 4 (opndOff s core.val c loc) 1 k) 4 [u % 2 ^ 32, u / 2 ^ 32]) ∧
    (Issues s core.val c (.xr true 0 tile loc) w → ∃ t, exec (.xrWrite core c) s = .next t ∧
      t = { s with cores := t.cores } ∧ (t.core core.val).ctx c = z.advance w ∧
      (t.core core.val).tile c tile = { y with flags := w1c Tf.W1C y.flags v }) ∧
    (Issues s core.val c (.xr true sel tile loc) w → sel ≠ 0 → ∃ t, exec (.xrWrite core c) s = .next t ∧
      OnlyCtx s t core.val c ({ z with regs := { z.regs with rstat := rstatW1C z.regs.rstat v } }.advance w) ∧ SameBytes s t)

/-- MODE_REGISTERS. MR_READ copies FMODE, FSTAT, SRSTATE or RCTL; MR_WRITE and MR_WRITE_IMMEDIATE write one, FSTAT as W1C; a
reserved rounding code leaves its field and sets NV. MARK records its immediate and the timebase. BREAK stops the context at an
armed breakpoint and goes on at another. -/
def Obligations.ModeRegisters : Prop :=
  ∀ (s : State) (core : CoreId) (c : CtxId) (w sel imm : Nat) (loc : Opnd),
    let z := (s.core core.val).ctx c
    let e := (s.readBuf core.val c 5 (if sel = 2 then 2 else 1) loc.kind (opndOff s core.val c loc) 1).1
    let v := nth 0 e 0 + nth 0 e 1 * 2 ^ 32
    let written := fun (n : Nat) (y : Ctx) =>
      (sel = 0 ∧ n % 8 ≤ 4 ∧ n / 32 % 4 ≤ 2 → y.regs.fmode.toNat = n / 128 % 2 * 128 + n / 32 % 4 * 32 + n % 8) ∧
      (sel = 0 ∧ 4 < n % 8 → y.regs.fmode.toNat % 8 = z.regs.fmode.toNat % 8 ∧ y.regs.fstat = z.regs.fstat ||| BitVec.ofNat 32 Fl.NV) ∧
      (sel = 1 → y.regs.fstat = BitVec.ofNat 32 (w1c 0x7F z.regs.fstat.toNat n)) ∧
      (sel = 2 → y.regs.srstate = BitVec.ofNat 64 (srStore n)) ∧ (sel = 3 → y.regs.rctl = BitVec.ofNat 32 (n % 2))
    (Issues s core.val c (.mr 0 sel loc imm) w → 0 ≤ opndOff s core.val c loc → ∃ t, exec (.mrRead core c) s = .next t ∧
      OnlyCtx s t core.val c (z.advance w) ∧
      Stored s t (fun k => elemAddr core.val loc.kind 4 (opndOff s core.val c loc) 1 k) 4
        (if sel = 0 then [z.regs.fmode.toNat] else if sel = 1 then [z.regs.fstat.toNat]
         else if sel = 2 then [z.regs.srstate.toNat % 2 ^ 32, z.regs.srstate.toNat / 2 ^ 32] else [z.regs.rctl.toNat])) ∧
    (Issues s core.val c (.mr 1 sel loc imm) w → ∃ t y, exec (.mrWrite core c) s = .next t ∧
      OnlyCtx s t core.val c (y.advance w) ∧ SameBytes s t ∧ written v y) ∧
    (Issues s core.val c (.mr 2 sel loc imm) w → ∃ t y, exec (.mrWriteImmediate core c) s = .next t ∧
      OnlyCtx s t core.val c (y.advance w) ∧ SameBytes s t ∧ written imm y) ∧
    (Issues s core.val c (.dbgMark imm) w → ∃ t, exec (.dbgMark core c) s = .next t ∧
      t = { s with cores := t.cores } ∧ (t.core core.val).mark = some (imm, s.now) ∧ (t.core core.val).ctx c = z.advance w) ∧
    (Issues s core.val c (.dbgBreak imm) w → ∃ t, exec (.dbgBreak core c) s = .next t ∧
      OnlyCtx s t core.val c (if (s.core core.val).bps.contains imm then { z with broken := true } else z.advance w) ∧ SameBytes s t)
/-- BED_MULTIPLY. MM puts its group sums behind what the tile's adder tree holds and counts its terms; with INIT the tile first
takes the anchor, its accumulators become zero, and its pins, poison marks, flags and counts are clear. -/
def Obligations.BedMultiply : Prop :=
  ∀ (s : State) (core : CoreId) (c : CtxId) (w mode tile k aoff axs boff bxs ald bld : Nat) (init : Bool) (E : Int),
    Issues s core.val c (.mm mode tile init E k aoff axs boff bxs ald bld) w →
    (s.core core.val).lent = false →
    let y := (s.core core.val).tile c tile
    let rg := ((s.core core.val).ctx c).regs
    let a := (s.mmRows core.val c (modeFmts mode).1 aoff (rg.x axs) ald k y.m).1
    let b := (s.mmRows core.val c (modeFmts mode).2 boff (rg.x bxs) bld k y.n).1
    (init = false → ∃ t, exec (.mm core c) s = .next t ∧ t = { s with cores := t.cores } ∧
      (t.core core.val).ctx c = ((s.core core.val).ctx c).advance w ∧ (t.core core.val).acc = (s.core core.val).acc ∧
      (t.core core.val).tile c tile =
        { y with tree := y.tree ++ mmItems y.e y.n y.terms k a b, terms := y.terms + 32 * ceilDiv k 32 }) ∧
    (init = true ∧ y.tree = [] → ∃ t, exec (.mm core c) s = .next t ∧ t = { s with cores := t.cores } ∧
      (t.core core.val).ctx c = ((s.core core.val).ctx c).advance w ∧
      (∀ i, i < y.m * y.n → (t.core core.val).accAt (y.base + i) = 0) ∧
      (t.core core.val).tile c tile =
        { y with live := true, e := E, segn := 0, flags := 0, txr0 := 0, terms := 32 * ceilDiv k 32, pcount := 0, pinned := []
                 poisoned := [], tree := mmItems E y.n 0 k a b })

/-- BED_PRELOAD. PLD on a settled tile makes it live on the new anchor and gives element (i, j) the grid value of its source: of
row i and column j of a tensor, or of element j of a bias vector. -/
def Obligations.BedPreload : Prop :=
  ∀ (s : State) (core : CoreId) (c : CtxId) (w sfmt tile soff sxs : Nat) (tensor : Bool) (E : Int),
    Issues s core.val c (.pld tensor sfmt tile E soff sxs) w →
    (s.core core.val).lent = false → ((s.core core.val).tile c tile).tree = [] →
    let y := (s.core core.val).tile c tile
    let n := if tensor then y.m * y.n else y.n
    let xs := (s.readElems core.val c sfmt (unitAddr core.val soff (((s.core core.val).ctx c).regs.x sxs)) n).1
    ∃ t, exec (.pld core c) s = .next t ∧ t.mem = s.mem ∧
      (t.core core.val).ctx c = ((s.core core.val).ctx c).advance w ∧
      ((t.core core.val).tile c tile).live = true ∧ ((t.core core.val).tile c tile).e = E ∧
      ((t.core core.val).tile c tile).segn = 0 ∧ ((t.core core.val).tile c tile).tree = [] ∧
      ∀ i j, i < y.m → j < y.n →
        (t.core core.val).accAt (y.base + i * y.n + j) =
          (preload E sfmt (nth 0 xs (if tensor then i * y.n + j else j))).1

/-- BED_DRAIN. DRN on a settled tile goes on past the instruction; with FREE the tile is no longer live and without it the tile is
as live as it was; the accumulators are as they were. Without scale, bias, activation, error term or closed segment, a drain to
binary32 writes each accumulator converted once, RNE, row by row. -/
def Obligations.BedDrain : Prop :=
  ∀ (s : State) (core : CoreId) (c : CtxId) (w tile act ofmt rm row0 rows : Nat) (free sc bi et : Bool) (dst etd scl bia : Loc),
    Issues s core.val c (.drn tile free act ofmt rm sc bi et row0 rows dst etd scl bia) w →
    (s.core core.val).lent = false → ((s.core core.val).tile c tile).tree = [] →
    let y := (s.core core.val).tile c tile
    ∃ t, exec (.drn core c) s = .next t ∧ t = { s with mem := t.mem, cores := t.cores } ∧
      ((t.core core.val).tile c tile).live = (y.live && !free) ∧ ((t.core core.val).tile c tile).e = y.e ∧
      (t.core core.val).acc = (s.core core.val).acc ∧
      ((t.core core.val).ctx c).pc = (((s.core core.val).ctx c).advance w).pc ∧
      (act = 0 ∧ ofmt = 4 ∧ sc = false ∧ bi = false ∧ et = false ∧ y.segn = 0 →
        Stored s t (fun k => locAddr core.val dst + 4 * k) 4
          ((rangeFrom (row0 * y.n) (rows * y.n)).map (fun i => (stage1 y (s.core core.val) i).1)))

/-- BED_TREE. GROUP_SUM_ADD takes the oldest group sum of an element out of the tree. A sum without poison joins an element that is
neither pinned nor poisoned: exactly within the 64-bit range; beyond it the element is set to the range's end, pinned, and SAT is
set. A sum with a poisoned product poisons the element. SEGMENT_CLOSURE at a mark counts one segment more, sets SEG, clears every
pin and zeroes every element. A residue mismatch whose repeat matches counts one corrected error of the core; one whose repeat fails
again poisons the element, sets RXE and counts one uncorrected error. -/
def Obligations.BedTree : Prop :=
  ∀ (s : State) (core : CoreId) (c : CtxId) (tile : TileId) (elem : Fin 8192),
    let y := (s.core core.val).tile c tile.val
    (∀ (v : Int) (fk : Option Nat) (i n : Nat) (ts : List TreeItem), takeSum elem.val y.tree = some (.sum elem.val v fk i n, ts) →
      ∃ t, exec (.groupSumAdd core c tile elem 0) s = .next t ∧ ((t.core core.val).tile c tile.val).tree = ts ∧ t.mem = s.mem ∧
        (fk = none ∧ i = 0 ∧ n = 0 ∧ elem.val ∉ y.pinned ∧ elem.val ∉ y.poisoned →
          let z := (s.core core.val).accAt (y.base + elem.val) + v
          (-(2 ^ 63) ≤ z ∧ z ≤ 2 ^ 63 - 1 → (t.core core.val).accAt (y.base + elem.val) = z) ∧
          (2 ^ 63 - 1 < z → (t.core core.val).accAt (y.base + elem.val) = 2 ^ 63 - 1) ∧
          (z < -(2 ^ 63) → (t.core core.val).accAt (y.base + elem.val) = -(2 ^ 63)) ∧
          (z < -(2 ^ 63) ∨ 2 ^ 63 - 1 < z → elem.val ∈ ((t.core core.val).tile c tile.val).pinned ∧
            ((t.core core.val).tile c tile.val).flags = y.flags ||| Tf.SAT)) ∧
        (fk ≠ none → elem.val ∈ ((t.core core.val).tile c tile.val).poisoned ∧
          (t.core core.val).accAt (y.base + elem.val) = (s.core core.val).accAt (y.base + elem.val))) ∧
    (∀ ts : List TreeItem, y.tree = .mark :: ts →
      ∃ t, exec (.segmentClosure core c tile) s = .next t ∧ ((t.core core.val).tile c tile.val).tree = ts ∧
        ((t.core core.val).tile c tile.val).segn = y.segn + 1 ∧ ((t.core core.val).tile c tile.val).pinned = [] ∧
        (∃ f, ((t.core core.val).tile c tile.val).flags = y.flags ||| Tf.SEG ||| f) ∧
        ∀ i, i < y.m * y.n → (t.core core.val).accAt (y.base + i) = 0) ∧
    (∀ (v : Int) (ts : List TreeItem), takeSum elem.val y.tree = some (.sum elem.val v none 0 0, ts) → elem.val ∉ y.pinned →
      elem.val ∉ y.poisoned →
      (∃ t, exec (.groupSumAdd core c tile elem 1) s = .next t ∧
        (t.core core.val).resCorr = satAdd 32 (s.core core.val).resCorr 1 ∧
        ((t.core core.val).tile c tile.val).poisoned = y.poisoned) ∧
      (∃ t, exec (.groupSumAdd core c tile elem 2) s = .next t ∧
        (t.core core.val).resUncorr = satAdd 32 (s.core core.val).resUncorr 1 ∧
        elem.val ∈ ((t.core core.val).tile c tile.val).poisoned ∧
        ∃ f, ((t.core core.val).tile c tile.val).flags = y.flags ||| f ||| Tf.RXE))

/-- BED_LOAN. The Blocking Unit takes a bed whose job context waits at a lend point with no tile live: the bed is lent and the
task is counted. BED_RETURN gives it back with every accumulator zero and every tile not live, its status word and record at
reset. DEBUG_DRAIN_LIMIT ends a waiting debug drain, UNSETTLED where the tile has no settle token. -/
def Obligations.BedLoan : Prop :=
  ∀ (s : State) (core : CoreId),
    (∀ id scope phase, (s.core core.val).job.wait = .bar id scope phase true → s.jobRuns = true →
      (∀ p ∈ (s.core core.val).tiles, p.2.live = false) → (s.core core.val).lent = false →
      ∃ t, exec (.buTileTask core) s = .next t ∧ (t.core core.val).lent = true ∧ t.mem = s.mem ∧
        t.obj Obj.BED_TASKS = counted Obj.BED_TASKS 64 (s.obj Obj.BED_TASKS + 1)) ∧
    ((s.core core.val).lent = true → ∃ t, exec (.bedReturn core) s = .next t ∧ t = { s with cores := t.cores } ∧
      (t.core core.val).lent = false ∧ (∀ i, (t.core core.val).accAt i = 0) ∧
      ∀ c j, ((t.core core.val).tile c j).live = false ∧ ((t.core core.val).tile c j).tstat = 0 ∧
        ((t.core core.val).tile c j).txr0 = 0 ∧ ((t.core core.val).tile c j).txr1 = 0) ∧
    (∀ q, s.dap.drain = some q → ∃ t, exec .debugDrainLimit s = .next t ∧ t.dap.drain = none ∧ t.cores = s.cores ∧ t.mem = s.mem ∧
      t.obj Obj.DDR_STATUS = (if ((s.core q.1).tile .job q.2.1).tree = [] then 5 else 7))

/-- MOVES. LDV copies whole units from the pocket to a vector buffer, STV from a vector buffer to the pocket; no other byte changes,
and nothing else but the program counter moves on. DMA and CORD, with their tag free and a descriptor of the swatch free, take the
descriptor, make the tag outstanding and go on; CORD takes its outputs' draws and the FMODE in force there (R81, R88); memory is
as it was. CORD_COMPLETE of work that holds the tag gives the descriptor
back and ends the tag. -/
def Obligations.MovesAndTransfers : Prop :=
  (∀ (s : State) (core : CoreId) (c : CtxId) (w vb vunit punit vxs pxs len : Nat) (store : Bool),
     Issues s core.val c (.copy store vb vunit punit vxs pxs len) w →
     let rg := ((s.core core.val).ctx c).regs
     let v := vbAddr core.val vb ((((vunit : Int) + rg.x vxs).toNat) * 64)
     let p := unitAddr core.val punit (rg.x pxs)
     let src := if store then v else p
     let dst := if store then p else v
     ∃ t, exec (if store then .stv core c else .ldv core c) s = .next t ∧
       OnlyCtx s t core.val c (((s.core core.val).ctx c).advance w) ∧
       (∀ k, k < len * 64 → t.mem.byte (dst + k) = s.mem.byte (src + k)) ∧
       ∀ a, a < dst ∨ dst + len * 64 ≤ a → t.mem.byte a = s.mem.byte a) ∧
  (∀ (s : State) (core : CoreId) (c : CtxId),
     let y := (s.core core.val).ctx c
     (∀ w slot pxs tag pf, Issues s core.val c (.dma slot pxs tag pf) w → tag ∉ y.xferTags → 0 < (s.descs (core.val / 64)).1 →
       ∃ t, exec (.dma core c) s = .next t ∧ t.mem = s.mem ∧
         t.xfer s.dma.nextXfer = some (s.dmaXfer core.val c slot tag pf (y.regs.x pxs)) ∧ t.dma.nextXfer = s.dma.nextXfer + 1 ∧
         (t.core core.val).ctx c = { y with xferTags := y.xferTags ++ [tag] }.advance w) ∧
     (∀ w slot tag, Issues s core.val c (.cord slot tag) w → tag ∉ y.xferTags → 0 < (s.descs (core.val / 64)).1 →
       let x := s.cordXfer core.val c slot tag
       ∃ t, exec (.cord core c) s = .next t ∧ t.mem = s.mem ∧ t.xfer s.dma.nextXfer = some x ∧ x.cord = true ∧
         x.tag = tag ∧ x.words = s.slotWords core.val c slot ∧ x.fmode = y.regs.fmode.toNat ∧
         (t.core core.val).ctx c = { y with
           xferTags := y.xferTags ++ [tag]
           regs := { y.regs with srstate := BitVec.ofNat 64 (srAfter ((CordDesc.of x.words).draws x.fmode) y.regs.srstate.toNat) }
           }.advance w) ∧
     (∀ (tag : Fin 32) i x, s.xferOf core.val c tag.val = some i → s.xfer i = some x → x.cord = true →
       ∃ t, exec (.cordComplete core c tag) s = .next t ∧ t.xfer i = none ∧
         ((t.core x.core).ctx x.ctx).xferTags = ((s.core x.core).ctx x.ctx).xferTags.filter (· != x.tag)))

/-- FLOW. JMP continues at its target; LOOP opens a loop of its count; SETX sets an index register; BRV, once the verdict of its
step is there, branches on a skip and goes on after a commit; END ends the Filler. Memory is as it was. -/
def Obligations.Flow : Prop :=
  ∀ (s : State) (core : CoreId) (c : CtxId) (w : Nat),
    let y := (s.core core.val).ctx c
    let z := (s.core core.val).job
    let skip := leAt (s.dom Obj.LAST_VERDICT) 16 1 = 2
    (∀ target, Issues s core.val c (.jmp target) w → ∃ t, exec (.jmp core c) s = .next t ∧
      OnlyCtx s t core.val c { y with pc := target } ∧ SameBytes s t) ∧
    (∀ count last xsel xstep, Issues s core.val c (.loop count last xsel xstep) w → ∃ t, exec (.loop core c) s = .next t ∧
      OnlyCtx s t core.val c { y with pc := y.pc + w, loops := ⟨y.pc + w, last, count, xsel, BitVec.ofNat 16 xstep⟩ :: y.loops } ∧
      SameBytes s t) ∧
    (∀ xsel v, Issues s core.val c (.setx xsel v) w → ∃ t, exec (.setx core c) s = .next t ∧
      OnlyCtx s t core.val c ({ y with regs := y.regs.setX xsel (BitVec.ofNat 16 v) }.advance w) ∧ SameBytes s t) ∧
    (∀ target mask, Issues s core.val .job (.brv target mask) w → z.attempt ≤ s.obj Obj.ATTEMPTS →
      ∃ t, exec (.brv core) s = .next t ∧ (skip → (t.core core.val).job.pc = target) ∧
        (¬ skip → OnlyCtx s t core.val .job (z.advance w) ∧ SameBytes s t)) ∧
    (Issues s core.val .filler .endF w → ∃ t, exec (.endFiller core) s = .next t ∧
      OnlyCtx s t core.val .filler { (s.core core.val).filler with ended := true } ∧ SameBytes s t)

/-- TAG_WAITS (R171). WAITD stays where it is while a tag of its mask has an outstanding transfer and goes on when none has; WAITC does
the same for collectives; a job context that runs and waits at neither a BAR nor a STEP keeps its core from the Filler. -/
def Obligations.TagWaits : Prop :=
  ∀ (s : State) (core : CoreId) (c : CtxId) (w mask : Nat),
    let y := (s.core core.val).ctx c
    (Issues s core.val c (.waitd mask) w →
      ((∃ tag ∈ y.xferTags, bit mask tag = true) → exec (.waitd core c) s = .next s) ∧
      ((∀ tag ∈ y.xferTags, bit mask tag = false) → ∃ t, exec (.waitd core c) s = .next t ∧ OnlyCtx s t core.val c (y.advance w) ∧
        SameBytes s t)) ∧
    (Issues s core.val c (.waitc mask) w →
      ((∃ tag ∈ y.collTags, bit mask tag = true) → exec (.waitc core c) s = .next s) ∧
      ((∀ tag ∈ y.collTags, bit mask tag = false) → ∃ t, exec (.waitc core c) s = .next t ∧ OnlyCtx s t core.val c (y.advance w) ∧
        SameBytes s t)) ∧
    (Issues s core.val .job (.waitd mask) w ∨ Issues s core.val .job (.waitc mask) w → (s.core core.val).job.wait = .none →
      ∃ t, exec (.contextSwitch core) s = .next t ∧ (t.core core.val).running = .job)

/-- BARS. A context with settled tiles arrives at its BAR and waits there for a join; a job context passes a BAR of its own core
alone (SCOPE 0) at once when its bed is not lent, no matrix work of its step holds its lend point (R290) and no hold is in force. BAR_JOIN_COMPLETE releases every core of a complete
join; those of the job context pass that may. -/
def Obligations.Bars : Prop :=
  ∀ (s : State) (core : CoreId) (c : CtxId),
    let y := (s.core core.val).ctx c
    (∀ w id scope lend phase, Issues s core.val c (.bar id scope lend phase) w → y.wait = .none →
      (s.core core.val).settled c = true →
      (scope ≠ 0 → ∃ t, exec (.bar core c) s = .next t ∧ SameBytes s t ∧ ((t.core core.val).ctx c).wait = .bar id scope phase lend ∧
        ((t.core core.val).ctx c).released = false ∧ ((t.core core.val).ctx c).pc = y.pc) ∧
      (scope = 0 ∧ c = .job ∧ (s.core core.val).lent = false ∧ s.barHeld .job = false ∧
        (lend = true → s.matrixDone (core.val / 3072) y.attempt = true) → ∃ t, exec (.bar core c) s = .next t ∧
        SameBytes s t ∧ ((t.core core.val).ctx c).wait = .none ∧ ((t.core core.val).ctx c).pc = (y.advance 1).pc ∧
        ((t.core core.val).ctx c).phase = (if phase = 7 then y.phase else phase))) ∧
    (∀ id scope phase lend, y.wait = .bar id scope phase lend → 0 < scope → s.jobRuns = true →
      s.joinReady c id scope (s.joinCores core.val c scope) = true →
      ∃ t, exec (.barJoinComplete core c) s = .next t ∧ t.mem = s.mem ∧ ∀ j ∈ s.joinCores core.val c scope,
        ((t.core j).ctx c).released = true ∨ (c = .job ∧ ((t.core j).ctx c).wait = .none))

/-- STEPS. STEP whose waits are not satisfied leaves the context waiting at it; satisfied, it begins the next step at ENTRY with no
loop open, one attempt on. CL ISSUE with its tag free starts the core's part of its plan entry and goes on. CONTEXT_SWITCH gives
the core its next context under Table 7.14 and reads or changes neither. -/
def Obligations.Steps : Prop :=
  ∀ (s : State) (core : CoreId) (w : Nat),
    let y := (s.core core.val).job
    let arrived := s.modCtx core.val .job (fun y => { y with wait := .step, reached := true })
    (Issues s core.val .job .step w → (y.wait ≠ .none ∨ (s.core core.val).settled .job = true) →
      (arrived.stepOk (arrived.core core.val).job = false → exec (.step core) s = .next arrived) ∧
      (arrived.stepOk (arrived.core core.val).job = true → ∃ t, exec (.step core) s = .next t ∧ t.mem = s.mem ∧
        (t.core core.val).job.pc = y.entry ∧ (t.core core.val).job.loops = [] ∧ (t.core core.val).job.attempt = y.attempt + 1 ∧
        (t.core core.val).job.wait = .none)) ∧
    (∀ entry tag xs p, Issues s core.val .job (.cl entry tag xs) w → tag ∉ y.collTags → s.coll.advance = none →
      s.plan entry = some p →
      exec (.clIssue core) s = .next (((s.modCtx core.val .job (fun z => { z with collTags := z.collTags ++ [tag] })).clIssue p core.val
        (64 * y.regs.x xs) tag).advance core.val .job w)) ∧
    (s.jobRuns = true → ∃ t, exec (.contextSwitch core) s = .next t ∧ t = { s with cores := t.cores } ∧
      (t.core core.val).running = s.nextCtx core.val (s.core core.val) ∧ (t.core core.val).job = y ∧
      (t.core core.val).filler = (s.core core.val).filler)
/-- TARGET. A request that passes the checks of R209 is served: a write stores exactly its bytes, a read of a class other than the
identity mirror answers the bytes that stand there; the answer is the last message sent. A request that fails one changes no byte,
is answered with the reason of the first check that fails, and is counted. The checks in order: a remote source outside the slice is
reason 4; a remote request when the device is not in open mode is reason 5; then a reserved class is reason 1; then an offset outside
the class's range is reason 2; then a right that the master lacks is reason 3. -/
def Obligations.MemoryTarget : Prop :=
  ∀ (s : State) (src : ChipId) (id : BitVec 32) (master : BitVec 12) (job write : Bool) (addr : BitVec 52) (len : Fin 257)
    (data : List Byte),
    WellFormed (.memoryRequest src id master job write addr len data [] []) = true →
    s.mem.poison = [] → s.mem.symErr = [] →
    let cmd : Instr := .memoryRequest src id master job write addr len data [] []
    let check := s.targetCheck src.toNat master.toNat job write addr.toNat len.val
    (check = none ∧ write = true → ∃ t, exec cmd s = .next t ∧
      t.outbox = s.outbox ++ [.memRep src.toNat id.toNat 0 0 [] []] ∧
      (∀ k, k < len.val → t.mem.byte (addr.toNat + k) = nth 0 data k) ∧
      ∀ a, a < addr.toNat ∨ addr.toNat + len.val ≤ a → t.mem.byte a = s.mem.byte a) ∧
    (check = none ∧ write = false ∧ clsOf addr.toNat ≠ 10 → ∃ t, exec cmd s = .next t ∧ t.mem = s.mem ∧
      t.outbox = s.outbox ++ [.memRep src.toNat id.toNat 0 0 (s.mem.read addr.toNat len.val) []]) ∧
    (∀ reason, check = some reason → ∃ t, exec cmd s = .next t ∧ SameBytes s t ∧
      t.outbox.getLast? = some (.memRep src.toNat id.toNat 1 reason [] []) ∧
      t.obj Obj.REFUSALS = counted Obj.REFUSALS 32 (s.obj Obj.REFUSALS + 1)) ∧
    (∀ (src m : Nat) (job write : Bool) (a n : Nat),
      let off := a % 2 ^ 47
      let reserved := clsOf a ∈ [5, 6, 7] ∨ 11 ≤ clsOf a
      (src ≠ s.chip ∧ s.inSlice src = false → s.targetCheck src m job write a n = some 4) ∧
      (src ≠ s.chip ∧ s.inSlice src = true ∧ s.isOpen = false → s.targetCheck src m job write a n = some 5) ∧
      (src = s.chip ∧ reserved → s.targetCheck src m job write a n = some 1) ∧
      (src = s.chip ∧ 1 ≤ n ∧ clsOf a < 4 ∧ 0x1800000000 < off + n → s.targetCheck src m job write a n = some 2) ∧
      (src = s.chip ∧ 1 ≤ n ∧ clsOf a = 9 ∧ off + n ≤ 0x2000000 ∧ write = true ∧ 0x010 ≤ m ∧ m ≤ 0x0CF →
        s.targetCheck src m job write a n = some 3))

/-- PATROL. The scrubber corrects a codeword with one symbol in error and counts it, poisons one with two and counts it, and leaves
every byte and every other codeword's marks as they were. -/
def Obligations.PatrolScrub : Prop :=
  ∀ (s : State) (u : Upset),
    let cw := cwOf u.addr.toNat
    let g := memGroup cw
    s.mem.isPoison cw = false → s.mem.symsAt cw = [] →
    (∀ x, u.symbols = [x] → ∃ t, exec (.scrubCodeword u) s = .next t ∧ SameBytes s t ∧ t.mem.symsAt cw = [] ∧
      t.mem.poison = s.mem.poison ∧
      Sparse.get (fun _ => 0) t.mem.corr g = satAdd 64 (Sparse.get (fun _ => 0) s.mem.corr g) 1 ∧
      ∀ cw', cw' ≠ cw → t.mem.symsAt cw' = s.mem.symsAt cw') ∧
    (∀ x y, u.symbols = [x, y] → x ≠ y → ∃ t, exec (.scrubCodeword u) s = .next t ∧ SameBytes s t ∧ t.mem.isPoison cw = true ∧
      Sparse.get (fun _ => 0) t.mem.uncorr g = satAdd 64 (Sparse.get (fun _ => 0) s.mem.uncorr g) 1 ∧
      ∀ cw', cw' ≠ cw → t.mem.isPoison cw' = s.mem.isPoison cw')

/-- DMA_REQUESTS. The engine issues the next request of an active transfer, at most 256 bytes and never across a row: to another chip
of an open slice with a route as a message, and in flight from then on; to this device at once, where a granted read's bytes reach
the pocket. The byte where the next request begins moves on by the request's length. The reply of a read in flight ends its flight,
and its bytes are written to the pocket. -/
def Obligations.DmaRequests : Prop :=
  (∀ (s : State) (core : CoreId) (c : CtxId) (tag : Fin 32) (i : Nat) (x : Xfer),
     s.xferOf core.val c tag.val = some i → s.xfer i = some x → x.cord = false → x.fault = none → x.issued < x.total →
     s.mem.poison = [] → s.mem.symErr = [] → x.write = false →
     let q := x.reqAt x.issued
     let chip := q.1 / 2 ^ 52 % 4096
     q.2.2 ≤ 256 ∧
     (chip ≠ s.chip → s.isOpen = true → s.inSlice chip = true → (s.unicast chip).isSome = true →
       ∃ t x', exec (.dmaRequestIssue core c tag) s = .next t ∧ t.xfer i = some x' ∧ x'.issued = x.issued + q.2.2 ∧ t.mem = s.mem ∧
         t.dma.flights = s.dma.flights ++ [⟨s.dma.nextReq, i, s.now⟩] ∧
         t.outbox = s.outbox ++ [.memReq chip s.dma.nextReq false q.1 x.master (x.ctx == .job) q.2.2 [] []]) ∧
     (chip = s.chip → s.targetCheck s.chip x.master (x.ctx == .job) false (q.1 % 2 ^ 52) q.2.2 = none →
       clsOf (q.1 % 2 ^ 52) ≠ 10 → x.issued + q.2.2 < x.total → x.poisonAt = none →
       ∃ t x', exec (.dmaRequestIssue core c tag) s = .next t ∧ t.xfer i = some x' ∧ x'.issued = x.issued + q.2.2 ∧
         (∀ k, k < q.2.2 → t.mem.byte (pocketAddr x.core q.2.1 + k) = s.mem.byte (q.1 % 2 ^ 52 + k)) ∧
         ∀ a, a < pocketAddr x.core q.2.1 ∨ pocketAddr x.core q.2.1 + q.2.2 ≤ a → t.mem.byte a = s.mem.byte a)) ∧
  (∀ (s : State) (id : BitVec 32) (f : Flight) (x : Xfer) (r : DmaReq) (data : List Byte),
     s.dma.flights.find? (fun g => g.id == id.toNat) = some f → s.xfer f.xfer = some x →
     x.reqs.find? (fun q => q.id == id.toNat) = some r → s.mem.poison = [] → s.mem.symErr = [] → x.fault = none →
     (x.write = false → x.issued < x.total → data.length = r.len →
       let a := pocketAddr x.core (x.reqAt r.at_).2.1
       ∃ t, exec (.dmaReply id false 0 data []) s = .next t ∧ (∀ g ∈ t.dma.flights, g.id ≠ id.toNat) ∧
         (∀ k, k < r.len → t.mem.byte (a + k) = nth 0 data k) ∧ ∀ b, b < a ∨ a + r.len ≤ b → t.mem.byte b = s.mem.byte b))

/-- LATE_REPLY (R230). A request in flight whose reply has not come in time ends as target unreachable: its transfer's fault has STATUS 5
at the request's bytes, and where no other request of it is in flight the transfer ends, with STATUS 5 in its completion record. A
reply that comes when no request of its number is in flight is discarded and counted in ROUTE_MISS. -/
def Obligations.LateReply : Prop :=
  (∀ (s : State) (id : BitVec 32) (f : Flight) (x : Xfer) (r : DmaReq),
    s.dma.flights.find? (fun g => g.id == id.toNat) = some f → s.xfer f.xfer = some x →
    x.reqs.find? (fun q => q.id == id.toNat) = some r → s.mem.poison = [] → s.mem.symErr = [] → x.fault = none → x.cord = false →
    ∃ t, exec (.requestTimeout id) s = .next t ∧ (∀ g ∈ t.dma.flights, g.id ≠ id.toNat) ∧
      ((∃ g ∈ s.dma.flights, g.xfer = f.xfer ∧ g.id ≠ id.toNat) → ∃ x', t.xfer f.xfer = some x' ∧
        x'.fault = some (r.at_, 5, 0, (x.reqAt r.at_).1)) ∧
      ((∀ g ∈ s.dma.flights, g.xfer = f.xfer → g.id = id.toNat) → t.xfer f.xfer = none ∧
        x.tag ∉ ((t.core x.core).ctx x.ctx).xferTags ∧
        ∃ done, t.mem.read (pocketAddr x.core ((((s.core x.core).ctx x.ctx).descBase + x.slot) * 64 + 32)) 8 =
          leBytes 8 (done * 2 ^ 32 + 5 * 2 ^ 24 + 1))) ∧
  (∀ (s : State) (id : BitVec 32) (refused : Bool) (reason : Byte) (data : List Byte) (marks : List Nat),
    (∀ g ∈ s.dma.flights, g.id ≠ id.toNat) → ∃ t, exec (.dmaReply id refused reason data marks) s = .next t ∧
      t.obj Obj.ROUTE_MISS = counted Obj.ROUTE_MISS 32 (s.obj Obj.ROUTE_MISS + 1) ∧ SameObjs s t [Obj.ROUTE_MISS] ∧
      t = { s with objs := t.objs })

/-- POWER_PERIOD. The rows of R53 on the sample as P_SAMPLE holds it, the mean as P_AVG holds it, and the target after a lowered
VCORE_MAX; the climb below VCORE_MIN; a peak trip; the hold of a hot junction; what begins and ends a bar hold (R55). While Gauge
runs the target stays. Memory, cores, flash and torus are as they were. -/
def Obligations.PowerPeriod : Prop :=
  ∀ (s : State) (x : PowerSample), s.up = true →
    let p := min 3000 (x.mw.toNat / 1000)
    let avg := meanOf ((p :: s.pwr.samples).take 20)
    let cap := s.obj Obj.PCAP
    let vmin := s.obj Obj.VCORE_MIN
    let vmax := s.obj Obj.VCORE_MAX
    let t0 := min (s.obj Obj.VCORE_NOW) vmax
    ∃ t, exec (.powerLoopPeriod x) s = .next t ∧ SameWork s t ∧ t.obj Obj.P_SAMPLE = p ∧ t.obj Obj.P_AVG = avg ∧
      t.obj Obj.P_PEAK = max (s.obj Obj.P_PEAK) p ∧ t.obj Obj.VIN = x.vin.toNat ∧ t.obj Obj.TPLATE = x.plate.toNat ∧
      (s.gauge.run.isSome = true → t.obj Obj.VCORE_NOW = s.obj Obj.VCORE_NOW) ∧
      (s.gauge.run = none → s.pwr.thermHold = false →
        (2400 < p → t.obj Obj.VCORE_NOW = 620 ∧ t.obj Obj.CAP_STATE = 3 ∧
          t.obj Obj.PEAK_TRIPS = counted Obj.PEAK_TRIPS 32 (s.obj Obj.PEAK_TRIPS + 1)) ∧
        (p ≤ 2400 → t0 < vmin → cap < p → t.obj Obj.VCORE_NOW = t0) ∧
        (p ≤ 2400 → t0 < vmin → p ≤ cap → t.obj Obj.VCORE_NOW = min vmin (t0 + 5)) ∧
        (p ≤ 2400 → vmin ≤ t0 → 105 * cap < 100 * p → t.obj Obj.VCORE_NOW = max vmin (t0 - 20)) ∧
        (p ≤ 2400 → vmin ≤ t0 → cap < p → 100 * p ≤ 105 * cap → t.obj Obj.VCORE_NOW = max vmin (t0 - 10)) ∧
        (vmin ≤ t0 → p ≤ cap → p ≤ 2400 → 100 * avg ≤ 97 * cap → t.obj Obj.VCORE_NOW = min vmax (t0 + 5)) ∧
        (vmin ≤ t0 → p ≤ cap → p ≤ 2400 → 97 * cap < 100 * avg → t.obj Obj.VCORE_NOW = t0)) ∧
      (s.gauge.run = none → s.pwr.thermHold = true → t.obj Obj.VCORE_NOW ≤ vmin) ∧
      (s.gauge.run = none → p ≤ cap → t.pwr.hold = false) ∧
      (s.gauge.run = none → cap < p → s.pwr.hold = false → s.pwr.armed = true →
        t.pwr.hold = true ∧ t.pwr.heldNow = true ∧ t.pwr.holdJob = false)

/-- ROW_COUNTERS. Every panel's reported rate is at least the guaranteed one of its rail voltage and junction, and is the measured
one where that is no less; FABRIC_RATE is no panel's rate exceeded. The rails settle at the target. -/
def Obligations.RowCounters : Prop :=
  ∀ (s : State) (r0 r1 r2 r3 : Word32),
    (s.up = true → ∃ t, exec (.rowCounterPeriod r0 r1 r2 r3) s = .next t ∧ SameWork s t ∧ t.pwr = s.pwr ∧
      (∀ q ∈ [(0, r0), (1, r1), (2, r2), (3, r3)],
        let g := guaranteed s.pwr.railMv (s.obj (Obj.PANEL_TJ + q.1))
        f32Key g ≤ f32Key (t.obj (Obj.PANEL_RATE + q.1)) ∧
        (f32IsNaN q.2.toNat = false → f32Key g ≤ f32Key q.2.toNat → t.obj (Obj.PANEL_RATE + q.1) = q.2.toNat) ∧
        f32Key (t.obj Obj.FABRIC_RATE) ≤ f32Key (t.obj (Obj.PANEL_RATE + q.1))) ∧
      SameObjs s t [Obj.PANEL_RATE, Obj.PANEL_RATE + 1, Obj.PANEL_RATE + 2, Obj.PANEL_RATE + 3, Obj.FABRIC_RATE]) ∧
    ∃ t, exec .vcoreSettled s = .next t ∧ t.pwr.railMv = s.obj Obj.VCORE_NOW ∧ t = { s with pwr := { s.pwr with railMv := t.pwr.railMv } }

/-- SECOND_EDGES. Without REFCLK PPS_IN is not sampled. Else an edge is kept with its time; where PPS_IN disciplines the timebase (no mode of site time) INC stays
within 200 ppm of nominal, the time shown does not move, and TB_STATE reads 2 while REFCLK counts. A missing edge sets PPS_LOST and
starts the holdover with INC kept. An exchange with the followed grandmaster labels the newest edge. What INC becomes is free. -/
def Obligations.SecondEdges : Prop :=
  ∀ (s : State), s.boot.stage ≠ .held →
    (s.tb.onOsc = true → ∀ e : Fin 8, exec (.ppsEdge e) s = .next s) ∧
    (s.tb.onOsc = false → ∀ e : Fin 8, ∃ t, exec (.ppsEdge e) s = .next t ∧
      t.tb.lastPps = ((s.tb.acc + BitVec.ofNat 96 (s.tb.present * e.val / 8)) >>> 16).setWidth 80 ∧
      (s.obj Obj.PPS_ENABLE = 0 → t.tb.inc = s.tb.inc ∧ t.tb.acc = s.tb.acc ∧ t.objs = s.objs) ∧
      (s.obj Obj.PPS_ENABLE = 1 → s.tb.mode ≠ 1 → minInc ≤ t.tb.inc.toNat ∧ t.tb.inc.toNat ≤ maxInc ∧ t.tb.acc = s.tb.acc ∧
        t.tb.ppsLive = true ∧ t.obj Obj.TB_STATE = 2)) ∧
    (s.obj Obj.PPS_ENABLE = 1 → s.tb.ppsLost = false → ∃ t, exec .ppsLost s = .next t ∧ t.tb.ppsLost = true ∧ t.tb.inc = s.tb.inc ∧
      t.tb.acc = s.tb.acc ∧ bit (t.obj Obj.TB_FLAGS) 1 = true ∧ (s.tb.onOsc = false → t.obj Obj.TB_STATE = 3) ∧
      (s.tb.mode = 1 → t.obj Obj.TIME_STATE = 4)) ∧
    (∀ (port : EthId) (domain : Byte) (gm time : BitVec 64), s.up = true → s.obj (Obj.PTP_EN + 256 * port.val) = 1 → s.tb.mode = 1 →
      s.obj Obj.TOD_SRC = 0 → domain.toNat = s.obj Obj.PTP_DOMAIN → s.dom Obj.PTP_GM_ID = beBytes 8 gm.toNat →
      gm ≠ 0 →
      ∃ t, exec (.ptpMessage port domain gm time) s = .next t ∧ t.tb.gm = some (beBytes 8 gm.toNat) ∧
        (s.tb.ppsLive = true → ∀ n : Nat, time.toNat = n * 1000000000 + (s.now - nsOf s.tb.lastPps) → t.tb.label = some n))

/-- REFCLK. Without REFCLK the timebase goes on from where it stands with the on-collar oscillator, INC is kept, TB_STATE reads 4,
REFCLK_LOST is set, the torus ports in use enter state 4 and the Ethernet ports LINK_STATE 0. When it returns there is no step, and
TB_STATE reads 3 with an enabled source and 1 without. -/
def Obligations.Refclk : Prop :=
  ∀ (s : State),
    (s.boot.stage ≠ .held → s.tb.onOsc = false → ∃ t, exec .refclkLost s = .next t ∧ t.tb.onOsc = true ∧ t.tb.inc = s.tb.inc ∧
      t.tb.acc = s.tb.acc ∧ t.obj Obj.TB_STATE = 4 ∧ bit (t.obj Obj.TB_FLAGS) 0 = true ∧
      t.obj Obj.LINK_STATE = 0 ∧ t.obj (Obj.LINK_STATE + 256) = 0 ∧
      ∀ p, p < 6 → (s.port p).st ≠ 0 → (t.port p).st = 4) ∧
    (s.tb.onOsc = true → ∃ t, exec .refclkReturn s = .next t ∧ t.tb.onOsc = false ∧ t.tb.inc = s.tb.inc ∧ t.tb.acc = s.tb.acc ∧
      t.obj Obj.TB_STATE = (if s.obj Obj.PPS_ENABLE = 1 ∨ s.tb.mode ≠ 0 then 3 else 1) ∧
      ∀ p, p < 6 → (s.port p).st = 4 → bit (s.obj Obj.PORT_ENABLE) p = true → (t.port p).st = 1 ∧ (t.port p).trying = true)

/-- TIME_TRANSFER. TIME_MODE acts at the start of an interval, with the reference unknown and no offset accepted; an interval of
two-way transfer sends four probes to the reference's station, in the clear where FED_FLAGS says so; ten silent intervals give
TIME_STATE 4 and the holdover; a probe goes to every station that is probed. -/
def Obligations.TimeTransfer : Prop :=
  ∀ (s : State), s.up = true →
    (s.tb.mode ≠ s.obj Obj.TIME_MODE → s.obj Obj.TIME_MODE ≠ 2 → ∃ t, exec .twttInterval s = .next t ∧ t.tb.mode = s.obj Obj.TIME_MODE ∧
      t.tb.accepted = false ∧ t.obj Obj.REF_MEMBER = 0xFF ∧ t.obj Obj.TIME_STATE = (if s.obj Obj.TIME_MODE = 0 then 0 else 1) ∧
      t.tb.acc = s.tb.acc ∧ t.tb.inc = s.tb.inc) ∧
    (∀ m p, s.tb.mode = 2 → s.obj Obj.TIME_MODE = 2 → s.obj Obj.FED_STATE ≠ 0 → s.tb.burst = [] → s.refMember = some m →
      s.refPeer m = some p → bit (s.obj Obj.FED_FLAGS) 1 = false →
      ∃ t, exec .twttInterval s = .next t ∧ t.obj Obj.REF_MEMBER = m ∧ t.outbox.length = s.outbox.length + 4 ∧
        t.tb.acc = s.tb.acc ∧ t.tb.inc = s.tb.inc) ∧
    (s.tb.mode = 2 → 10 ≤ s.tb.silent → s.obj Obj.TIME_STATE ≠ 4 → ∃ t, exec .referenceSilent s = .next t ∧ t.obj Obj.TIME_STATE = 4 ∧
      (s.tb.onOsc = false → t.obj Obj.TB_STATE = 3) ∧ t.tb.inc = s.tb.inc ∧ t.tb.acc = s.tb.acc) ∧
    (bit (s.obj Obj.FED_FLAGS) 1 = false → ∃ t, exec .probeInterval s = .next t ∧
      t.outbox.length = s.outbox.length + s.probed.length ∧ t.tb.acc = s.tb.acc ∧ SameWork s t)

/-- INPUT_POWER. What loss of input power, overvoltage, its end, good power and a thermal trip do to the regulators, and that the
device is in reset after each of the first two and after the trip; the trip is counted in the flash and makes the next start full. -/
def Obligations.InputPower : Prop :=
  ∀ (s : State),
    (∃ t, exec .inputUndervoltage s = .next t ∧ t.boot.stage = .held ∧ t.board.inputOk = false ∧ t.board.regsOn = false ∧
      t.board.tripped = false ∧ t.flash = s.flash ∧ t.gauge.passed = false ∧ t.cores = [] ∧ t.mem.bytes = []) ∧
    (∃ t, exec .inputOvervoltage s = .next t ∧ t.boot.stage = .held ∧ t.board.overvolt = true ∧ t.board.regsOn = false ∧
      t.flash = s.flash ∧ t.cores = []) ∧
    (s.board.overvolt = true → ∃ t, exec .inputOvervoltageCleared s = .next t ∧ t.board.overvolt = false ∧
      t.board.regsOn = (s.board.inputOk && !s.board.tripped) ∧ t = { s with board := t.board }) ∧
    (s.board.inputOk = false → ∃ t, exec .inputPowerGood s = .next t ∧ t.board.inputOk = true ∧ t.board.tripped = false ∧
      t.board.regsOn = !s.board.overvolt ∧ t = { s with board := t.board }) ∧
    (s.board.regsOn = true → ∃ t, exec .thermalTrip s = .next t ∧ t.boot.stage = .held ∧ t.board.tripped = true ∧
      t.board.tripUnread = true ∧ t.board.regsOn = false ∧ t.flash.forceFull = true ∧
      t.flash.thermTrips = counted Obj.THERM_TRIPS 32 (s.flash.thermTrips + 1) ∧ t.flash.records = s.flash.records)

/-- TEMPERATURE_AND_BOARD. The alert pin and the hold at VCORE_MIN follow the thresholds of R477, each with its own release; between the
thresholds each stays as it is. One byte sets the I²C pointer; a read returns the register that the pointer names and advances the
pointer; what PART, PIN, PCAP and the pointers past the table show; PPS_OUT rises on a whole second while it is enabled and the
timebase marks seconds. -/
def Obligations.TemperatureAndBoard : Prop :=
  ∀ (s : State), s.up = true →
    let plate := f32Key (s.obj Obj.TPLATE)
    (∃ t, exec .thermAlert s = .next t ∧ SameWork s t ∧ SameObjs s t [Obj.THERM_STATE] ∧
      (c95 ≤ s.hottest ∨ c60 ≤ plate → t.board.thermAlert = true ∧ t.obj Obj.THERM_STATE = (if s.pwr.thermHold then 2 else 1)) ∧
      (s.hottest < c92 → plate < c57 → t.board.thermAlert = false) ∧
      (s.hottest < c95 → plate < c60 → c92 ≤ s.hottest ∨ c57 ≤ plate → t.board.thermAlert = s.board.thermAlert)) ∧
    (∃ t, exec .thermalHold s = .next t ∧ SameWork s t ∧ SameObjs s t [Obj.THERM_STATE] ∧
      (c100 ≤ s.hottest → t.pwr.thermHold = true ∧ t.obj Obj.THERM_STATE = 2) ∧
      (s.hottest < c97 → t.pwr.thermHold = false) ∧
      (c97 ≤ s.hottest → s.hottest < c100 → t.pwr.thermHold = s.pwr.thermHold)) ∧
    (∀ p : Byte, ∃ t, exec (.i2cPointerWrite p) s = .next t ∧ t.board.i2cPtr = p.toNat ∧ SameWork s t ∧ SameObjs s t []) ∧
    (∃ t, exec .i2cRead s = .next t ∧ t.board.i2cPtr = (s.board.i2cPtr + 1) % 256 ∧ t.objs = s.objs ∧ SameWork s t ∧
      ∃ v, t.outbox = s.outbox ++ [.i2c v] ∧ (s.board.i2cPtr = 0 → v = 0x5C04) ∧ (s.board.i2cPtr = 4 → v = s.obj Obj.P_AVG) ∧
        (s.board.i2cPtr = 8 → v = s.obj Obj.PCAP) ∧ (9 ≤ s.board.i2cPtr → v = 0)) ∧
    (s.board.ppsOutEn = true → 1 ≤ s.obj Obj.TB_STATE → s.obj Obj.TB_STATE ≤ 4 → ∃ t, exec .ppsOutPulse s = .next t ∧
      t = { s with board := { s.board with ppsOut := true } })

/-- RESET_PINS. A reset ends every job, session, slice and federation role and keeps the flash; the device leaves it only when
RESET_N and FL_PROG_N are high, the regulators are in regulation and no trip holds it, and then takes CHIP from the straps; a
reserved BOOT_SEL stops the start. The flash's banks are on the pins while both pins are low. -/
def Obligations.ResetPins : Prop :=
  ∀ (s : State),
    (∀ pin, ∃ t, exec (.reset pin) s = .next t ∧ t.boot.stage = .held ∧ t.flash = s.flash ∧ t.jobState = JOB_EMPTY ∧
      t.job = JobSt.reset ∧ t.sliceState = SLICE_NONE ∧ t.obj Obj.FED_STATE = 0 ∧ (∀ i, (t.session i).live = false) ∧
      t.tb.acc = 0 ∧ t.tb.inc = incNominal ∧ t.cores = [] ∧
      t.board.flashPins = (!t.board.resetN && !t.board.flProgN) ∧ (pin = true → t.board.resetN = false ∧ t.board.tripped = false) ∧
      (pin = false → t.board.regsOk = false)) ∧
    (∀ straps : BitVec 16, s.boot.stage = .held → s.board.flProgN = true → s.board.inputOk = true → s.board.regsOn = true →
      s.board.regsOk = true → s.board.tripped = false → ∃ t, exec (.resetRelease straps) s = .next t ∧ t.board.resetN = true ∧
        t.obj Obj.TB_STATE = 1 ∧ t.obj Obj.CHIP = straps.toNat % 4096 ∧ t.flash = s.flash ∧
        t.boot.stage = (if straps.toNat / 4096 % 4 = 3 then .failed else .rom)) ∧
    (∀ straps : BitVec 16, s.board.flProgN = false → ∃ t, exec (.resetRelease straps) s = .next t ∧
      t = { s with board := { s.board with resetN := true, flashPins := false } }) ∧
    (∀ straps : BitVec 16, s.boot.stage = .held → s.board.resetN = true → s.board.flProgN = true → s.board.inputOk = true →
      s.board.regsOn = true → s.board.tripped = false → ∃ t, exec (.regulatorsInRegulation straps) s = .next t ∧
        t.board.regsOk = true ∧ t.boot.stage = (if straps.toNat / 4096 % 4 = 3 then .failed else .rom)) ∧
    (∀ straps : BitVec 16, s.board.resetN = false → ∃ t, exec (.flProgN false straps) s = .next t ∧
      t = { s with board := { s.board with flProgN := false, flashPins := true } }) ∧
    (∀ straps : BitVec 16, s.boot.stage = .held → s.board.resetN = true → s.board.inputOk = true → s.board.regsOn = true →
      s.board.regsOk = true → s.board.tripped = false → ∃ t, exec (.flProgN true straps) s = .next t ∧
        t.boot.stage = (if straps.toNat / 4096 % 4 = 3 then .failed else .rom))

/-- BANK_FALLBACK (R447). With no valid bank BOOT_SEL 0b01 goes on with an Ethernet boot; BOOT_SEL 0b00 gives STATUS 0b000, and the
retry begins the whole sequence again; BOOT_SEL 0b10 skips the flash, whatever the banks hold. -/
def Obligations.BankFallback : Prop :=
  ∀ s : State,
    let none_ := s.flash.order.find? (fun k => s.fwReason false (s.bankBytes k) == 0) = none
    (s.boot.stage = .rom → s.bootSel = 1 → none_ → exec .firmwareVerify s = .next { s with boot := { s.boot with stage := .ethBoot } }) ∧
    (s.boot.stage = .rom → s.bootSel = 0 → none_ → ∃ t, exec .firmwareVerify s = .next t ∧ t.statusPins = 0 ∧
      t = { s with boot := { s.boot with stage := .failed } } ∧
      exec .bootRetry t = .next { t with boot := { t.boot with stage := .rom } }) ∧
    (s.boot.stage = .rom → s.bootSel = 2 → exec .firmwareVerify s = .next { s with boot := { s.boot with stage := .ethBoot } })

/-- BOOT. The mask ROM boots the first valid bank in the order pending, active, other; the request, the first offer at or above the
floor, the segments; and a whole image that is valid starts the firmware from Ethernet, while one that is not makes the device wait
for a new offer. -/
def Obligations.Boot : Prop :=
  ∀ (s : State),
    (s.boot.stage = .rom → s.bootSel ≠ 2 → ∃ t, exec .firmwareVerify s = .next t ∧
      (∀ n, n < 2 → s.flash.order.find? (fun k => s.fwReason false (s.bankBytes k) == 0) = some n →
        t.boot.stage = .firmware ∧ t.obj Obj.BOOT_SOURCE = n ∧ t.obj Obj.RUNNING_SECVER = leAt (s.bankBytes n) 16 4 ∧
        (s.flash.pending = some n → t.flash.active = n ∧ t.flash.pending = none) ∧
        (s.flash.pending ≠ some n → t.flash.active = s.flash.active ∧ t.flash.pending = s.flash.pending))) ∧
    (s.boot.stage = .ethBoot → s.boot.offer = none → ∃ t, exec .bootReq s = .next t ∧ t.boot = s.boot ∧
      t.outbox.getLast? = some (.udp 0 bootGroup 47212 47212 (withCrc (bootMagic 1 ++ beBytes 8 (s.obj Obj.ID_REV) ++
        padTo 32 Config.serial ++ beBytes 4 s.flash.floorSecver)))) ∧
    (∀ (d : Dgram) (b : List Byte), d.port.val = 0 → s.boot.stage = .ethBoot → s.boot.offer = none → bootBody 2 d.bytes = some b → b.length = 8 →
      s.flash.floorSecver ≤ beAt b 4 4 → ∃ t, exec (.bootOffer d) s = .next t ∧
        t.boot.offer = some ⟨d.peer, d.peerPort.toNat, beAt b 0 4⟩ ∧ t.boot.segs = [] ∧ SameWork s t) ∧
    (∀ (d : Dgram) (b : List Byte) (o : BootOffer), d.port.val = 0 → s.boot.stage = .ethBoot → s.boot.offer = some o → bootBody 3 d.bytes = some b →
      d.peer = o.peer → 5 ≤ b.length → b.length ≤ 8196 → beAt b 0 4 + (b.length - 4) ≤ o.total →
      ∃ t, exec (.bootSeg d) s = .next t ∧ t.boot.segs = s.boot.segs ++ [(beAt b 0 4, b.drop 4)] ∧ t.boot.offer = some o ∧ SameWork s t) ∧
    (∀ o : BootOffer, s.boot.stage = .ethBoot → s.boot.offer = some o →
      let gaps := missing s.boot.segs o.total (2 * s.boot.segs.length + 2) 0
      let img := assemble s.boot.segs o.total
      ∃ t, exec .bootMissTimer s = .next t ∧
        (gaps ≠ [] → t.boot = s.boot ∧ t.outbox.length = s.outbox.length + gaps.length) ∧
        (gaps = [] → s.fwReason false img = 0 → t.boot.stage = .firmware ∧ t.obj Obj.BOOT_SOURCE = 2 ∧ t.flash.banks = s.flash.banks) ∧
        (gaps = [] → s.fwReason false img ≠ 0 → t = { s with boot := { s.boot with offer := none, segs := [] } })) ∧
    (s.boot.stage = .ethBoot → s.bootSel ≠ 1 → ∃ t, exec .ethernetBootTimeout s = .next t ∧ t.boot.offer = none ∧ t.boot.segs = [] ∧
      t.boot.stage = .ethBoot ∧ t.outbox.length = s.outbox.length + 1) ∧
    (s.boot.stage = .ethBoot → s.bootSel = 1 → ∃ t, exec .ethernetBootTimeout s = .next t ∧ t.boot.offer = none ∧ t.boot.segs = [] ∧
      t.boot.stage = (if (s.flash.order.find? (fun k => s.fwReason false (s.bankBytes k) == 0)).isSome then .firmware else .ethBoot))

/-- START_TEST. DRAM_TRAINED zeroes memory and makes a quick start only where R455's list holds; a full start begins a Gauge run
whose record says interrupted, or is skipped below 1,500 W; each die's end starts the next, and the last one's decides the result;
100 °C ends the run, and a shutdown that waited for a test then makes its own; READY is step 10. -/
def Obligations.StartTest : Prop :=
  ∀ (s : State),
    (s.boot.stage = .firmware → ∃ t, exec .dramTrained s = .next t ∧ t.obj Obj.START_KIND = s.startKind ∧
      (∀ a, t.mem.byte a = 0) ∧
      (s.startKind = 0 → t.boot.stage = .memory ∧ t.gauge = s.gauge ∧ t.flash = s.flash) ∧
      (s.startKind ≠ 0 → t.flash.forceFull = false ∧
        (1500 ≤ s.obj Obj.PCAP → t.boot.stage = .fullStart ∧ t.gauge.run.isSome = true ∧
          (t.flash.records.head?.map (fun r => leAt r.1 5 1)) = some 2) ∧
        (s.obj Obj.PCAP < 1500 → t.boot.stage = .memory ∧ t.gauge.run = s.gauge.run ∧
          (t.flash.records.head?.map (fun r => leAt r.1 5 1)) = some 3))) ∧
    (∀ (d : DieResult) (r : GaugeRun), s.gauge.run = some r →
      (r.die + 1 < 5 → ∃ t, exec (.gaugeDieDone d) s = .next t ∧ t.obj Obj.GAUGE_DIE = r.die + 1 ∧ t.flash = s.flash ∧ t.mem = s.mem ∧
        t.gauge.run.map GaugeRun.die = some (r.die + 1)) ∧
      (5 ≤ r.die + 1 → s.sliceState = SLICE_NONE → ∃ t, exec (.gaugeDieDone d) s = .next t ∧ t.gauge.run = none ∧ t.gauge.passed = true ∧
        t.obj Obj.GAUGE_DIE = 0xFF ∧ t.mem.bytes = [] ∧
        t.obj Obj.DEGRADED = (if r.fails = [] ∧ d.fails = [] then 0 else 1))) ∧
    (∀ r : GaugeRun, s.gauge.run = some r → ∃ t, exec .gaugeTemperatureStop s = .next t ∧
      t.gauge.passed = s.gauge.passed ∧ t.obj Obj.DEGRADED = s.obj Obj.DEGRADED ∧
      (s.gauge.shut = false ∨ (r.trigger ≠ 3 ∧ r.trigger ≠ 5) → t.gauge.run = none ∧
        (t.flash.records.head?.map (fun q => leAt q.1 5 1)) = some 2) ∧
      (s.gauge.shut = true → r.trigger = 3 ∨ r.trigger = 5 → 1500 ≤ s.obj Obj.PCAP →
        t.gauge.run.map GaugeRun.trigger = some s.gauge.trig)) ∧
    (s.boot.stage = .memory → s.gauge.run = none → s.obj Obj.GAUGE_STATE ≠ 3 → s.boot.shutAtReady = false →
      s.board.shutdownReqN = true → ∃ t, exec .ready s = .next t ∧ t.boot.stage = .ready ∧
      t.obj Obj.BOOT_TIME = s.now / 1000000 ∧ SameWork s t)

/-- SHUTDOWN. SHUTDOWN_REQ_N low starts the shutdown, which stops a running job; a release changes nothing; during a start it waits
for step 10. The end of the grace aborts a job still running. The end of SERVICE returns the device to FIELD with memory zeroed
and the key slots empty. -/
def Obligations.Shutdown : Prop :=
  ∀ (s : State),
    (∃ t, exec (.shutdownReqN true) s = .next t ∧ t = { s with board := { s.board with shutdownReqN := true } }) ∧
    (s.boot.stage = .ready → s.gauge.shut = false → s.boot.shutAtReady = false → s.gauge.run = none → ∃ t, exec (.shutdownReqN false) s = .next t ∧
      t.gauge.shut = true ∧ t.gauge.trig = 1 ∧ t.obj Obj.GAUGE_STATE ≠ 0 ∧ t.boot.stage = .ready ∧ t.board.shutdownReqN = false) ∧
    (s.boot.stage = .memory → s.gauge.shut = false → s.boot.shutAtReady = false → ∃ t, exec (.shutdownReqN false) s = .next t ∧
      t.boot.shutAtReady = true ∧ t.gauge = { s.gauge with trig := 1 } ∧ t.objs = s.objs) ∧
    (s.gauge.shut = true → s.gauge.grace = true → s.obj Obj.GAUGE_STATE = 1 → ∃ t, exec .shutdownGrace s = .next t ∧
      t.gauge.grace = false ∧ (s.committing = false → s.moving = false →
        t.jobState ≠ JOB_STARTING ∧ t.jobState ≠ JOB_RUNNING ∧ t.jobState ≠ JOB_STOPPING)) ∧
    (s.service.isSome = true → s.flash.lc = 3 → ∃ t, exec .serviceExpiry s = .next t ∧ t.flash.lc = 2 ∧ t.service = none ∧
      (∀ a, t.mem.byte a = 0) ∧ t.mem.poison = [] ∧ t.cipher.slots = [] ∧ t.obj Obj.DEBUG_EN = 0 ∧ t.obj Obj.DEBUG_GRANT = 0)

/-- DAP_SESSIONS. HELLO draws a CHALLENGE with a fresh handshake number, or REFUSE 4 in RETIRED; a PROOF whose tag, key and signature
are right takes the lowest free slot with its key's class; a CHALLENGE that has waited too long draws REFUSE 6; an idle session ends;
unacknowledged reports are sent again. -/
def Obligations.DapSessions : Prop :=
  ∀ (s : State) (h : DapHdr),
    (∀ hello : List Byte, hello.length = 104 → s.dapOn = true → s.obj Obj.GAUGE_STATE ≠ 3 → dapFormOk h 104 = true → h.session = 0 →
      let n := s.dap.handshakes % 2 ^ 29
      (s.flash.lc ≠ 4 → s.dapServes h.port h.linkLocal = true → ∃ t c, exec (.hello h hello) s = .next t ∧
        t.dap.handshakes = s.dap.handshakes + 1 ∧ t.dap.challenges.getLast? = some c ∧ c.number = n ∧ c.hello = hello ∧
        t.outbox.getLast? = some (.udp h.port.val h.peer h.peerPort.toNat (s.obj Obj.DAP_PORT)
          (dapHeader 1 (8 * n) 0 c.chal.length ++ c.chal)) ∧ t.dap.sessions = s.dap.sessions ∧ SameWork s t) ∧
      (s.flash.lc = 4 → ∃ t, exec (.hello h hello) s = .next t ∧ t.dap = s.dap ∧ SameWork s t ∧
        t.outbox.getLast? = some (.udp h.port.val h.peer h.peerPort.toNat (s.obj Obj.DAP_PORT) (dapHeader 4 0 0 8 ++ beBytes 1 4 ++ zeros 7)))) ∧
    (∀ (pub sig : List Byte) (c : Challenge) (cls i : Nat), pub.length = 57 → sig.length = 114 → s.dapOn = true →
      s.obj Obj.GAUGE_STATE ≠ 3 → s.dapServes h.port h.linkLocal = true → dapFormOk h 176 = true → h.session.toNat = 8 * c.number →
      s.dap.challenges.find? (fun q => decide (8 * q.number = h.session.toNat)) = some c →
      h.tag = (dapSeal ((agreeKeys c).take 32) 2 h.session.toNat h.seq.toNat (pub ++ sig ++ zeros 5)).2 →
      s.classOf pub = some cls → (List.range 8).find? (fun k => !(s.session k).live) = some i →
      ∃ t, exec (.proof h pub sig) s = .next t ∧ SameWork s t ∧
        (keyIdOf pub = slice c.hello 88 8 → ed448Verify pub (ascii "DAP1-P" ++ agreeH c) sig = true →
          (t.session i).live = true ∧ (t.session i).cls = cls ∧ (t.session i).key = agreeKeys c ∧ (t.session i).next = Session.free.next ∧
          (∀ q ∈ t.dap.challenges, q.number ≠ c.number)) ∧
        (keyIdOf pub ≠ slice c.hello 88 8 ∨ ed448Verify pub (ascii "DAP1-P" ++ agreeH c) sig = false →
          (t.session i).live = false ∧ t.dap.challenges = s.dap.challenges ∧
          t.obj Obj.HANDSHAKE_FAILS = counted Obj.HANDSHAKE_FAILS 32 (s.obj Obj.HANDSHAKE_FAILS + 1))) ∧
    (∀ (number : BitVec 29) (c : Challenge), s.dap.challenges.find? (fun q => q.number == number.toNat) = some c →
      ∃ t, exec (.challengeTimeout number) s = .next t ∧ (∀ q ∈ t.dap.challenges, q.number ≠ c.number) ∧ SameWork s t ∧
        t.dap.sessions = s.dap.sessions ∧
        t.outbox.getLast? = some (.udp c.port c.peer c.peerPort (s.obj Obj.DAP_PORT) (dapHeader 4 (8 * c.number) 0 8 ++ beBytes 1 6 ++ zeros 7))) ∧
    (∀ i : Fin 8, (s.session i.val).live = true → ∃ t, exec (.sessionIdleTimeout i) s = .next t ∧ t.session i.val = Session.free ∧
      (∀ j, j ≠ i.val → t.session j = s.session j) ∧ t = { s with dap := t.dap }) ∧
    (∀ i : Fin 8, (s.session i.val).live = true → s.dapOn = true → ∃ t, exec (.reportResend i) s = .next t ∧ t.dap = s.dap ∧
      t.outbox.length = s.outbox.length + (s.session i.val).reports.length ∧ t.objs = s.objs ∧ SameWork s t)

/-- DAP_DATA. READ and the attestation report answer what the object shows; WRITE gives an RW object its value and stages an ST one;
block transfers open, fill, close and read; SUBSCRIBE, KEEPALIVE, CLOSE and REPORT_ACK do what they say. A request whose SEQ has been
executed draws its stored response again and is not executed. -/
def Obligations.DapData : Prop :=
  ∀ (s : State) (h : DapHdr) (ix : BitVec 16) (sub ty : Byte),
    let slot := h.session.toNat % 8
    let x := s.session slot
    (∀ (d : ObjDef), Obj.find ix.toNat sub.toNat = some d → Due s h (.read ix sub ty false) → s.allows x.cls d.key 0 (d.acc == .RC) = true →
      let b := DapBody.read ix sub ty false;
      let v := (arrived s h b).shows slot d
      v.length ≤ 8192 →
      (ix.toNat * 256 + sub.toNat ≠ Obj.ATT_REPORT → ∃ t, exec (.read h b) s = .next t ∧ Answered s t h b 0 0 v ∧
        (d.acc ≠ .RC → SameObjs s t [] ∧ SameWork s t) ∧
        (d.acc = .RC → ObjDef.isBytes d = false → errOf d.key = none → t.obj d.key = 0)) ∧
      (ix.toNat * 256 + sub.toNat = Obj.ATT_REPORT → ∃ t, exec (.attReport h b) s = .next t ∧
        Answered s t h b 0 0 ((arrived s h b).attReport slot) ∧ SameObjs s t [] ∧ SameWork s t)) ∧
    (∀ (d : ObjDef) (val : List Byte), let b := DapBody.write ix sub ty val;
      Obj.find ix.toNat sub.toNat = some d → Due s h b → s.obj Obj.GAUGE_STATE ≠ 3 → rowOf b = none →
      s.allows x.cls d.key (ofBe val) true = true → ty.toNat = d.ty.code → ObjDef.isBytes d = false → val.length = d.ty.bytes →
      d.rng.admits (ofBe val) = true → (d.ty = .bool → ofBe val ≤ 1) →
      (d.acc = .ST → ∃ t, exec (.write h b) s = .next t ∧ Answered s t h b 0 0 [] ∧ (t.session slot).stagedAt d.key = some val ∧
        SameObjs s t [] ∧ SameWork s t) ∧
      (d.acc = .RW → s.directBarred d.key = false → d.key ≠ Obj.PPS_ENABLE → d.key ≠ Obj.FORCE_FULL →
        ∃ t, exec (.write h b) s = .next t ∧ Answered s t h b 0 0 [] ∧ t.obj d.key = ofBe val ∧ SameObjs s t [d.key] ∧ SameWork s t) ∧
      (d.acc = .RO → ∃ t, exec (.write h b) s = .next t ∧ Answered s t h b St.ACCESS_DENIED 0 [] ∧ SameObjs s t [] ∧ SameWork s t)) ∧
    (∀ (d : ObjDef) (total : BitVec 64), let b := DapBody.blkWopen ix sub ty total;
      Obj.find ix.toNat sub.toNat = some d → Due s h b → s.obj Obj.GAUGE_STATE ≠ 3 → s.allows x.cls d.key 0 true = true →
      d.acc = .ST ∨ d.acc = .RW ∨ d.acc = .WO → d.ty = .domain → total.toNat ≤ ObjDef.maxBytes d → s.admitsBytes d.key = St.OK →
      (∀ i, i < 8 → i ≠ slot → ∀ w, (s.session i).wopen = some w → w.key ≠ d.key) →
      ∃ t, exec (.blkWopen h b) s = .next t ∧ Answered s t h b 0 0 [] ∧ (t.session slot).wopen = some ⟨d.key, total.toNat, []⟩ ∧ SameWork s t) ∧
    (∀ (o : BitVec 64) (data : List Byte) (w : BlkWrite), let b := DapBody.blkWdata ix sub ty o data;
      Due s h b → s.obj Obj.GAUGE_STATE ≠ 3 → 1 ≤ data.length → data.length ≤ 8192 → x.wopen = some w → o.toNat + data.length ≤ w.total →
      ∃ t, exec (.blkWdata h b) s = .next t ∧ Answered s t h b 0 0 [] ∧ SameWork s t ∧
        (t.session slot).wopen = some { w with segs := w.segs ++ [(o.toNat, data)] }) ∧
    (∀ (w : BlkWrite) (d : ObjDef), let bytes := assemble w.segs w.total;
      let b := DapBody.blkWclose ix sub ty (digest64 bytes);
      Due s h b → s.obj Obj.GAUGE_STATE ≠ 3 → x.wopen = some w → missing w.segs w.total (2 * w.segs.length + 2) 0 = [] →
      Obj.find (w.key / 256) (w.key % 256) = some d →
      (d.acc = .ST → ∃ t, exec (.blkWclose h b) s = .next t ∧ Answered s t h b 0 0 [] ∧ (t.session slot).wopen = none ∧
        (t.session slot).stagedAt w.key = some bytes ∧ SameWork s t) ∧
      (d.acc ≠ .ST → s.admitsBytes w.key = St.OK → ∃ t, exec (.blkWclose h b) s = .next t ∧ Answered s t h b 0 0 [] ∧
        (t.session slot).wopen = none ∧ t.dom w.key = bytes ∧ SameWork s t)) ∧
    (∀ (d : ObjDef), let b := DapBody.blkRopen ix sub ty;
      Obj.find ix.toNat sub.toNat = some d → Due s h b → s.allows x.cls d.key 0 (d.acc == .RC) = true →
      let v := (arrived s h b).shows slot d
      v.length ≤ 16777216 → ∃ t, exec (.blkRopen h b) s = .next t ∧ Answered s t h b 0 0 (beBytes 8 v.length) ∧
        (t.session slot).ropen = some v) ∧
    (∀ (o : BitVec 64) (n : BitVec 16) (v : List Byte), let b := DapBody.blkRdata ix sub ty o n;
      Due s h b → x.ropen = some v → 1 ≤ n.toNat → n.toNat ≤ 8192 → o.toNat < v.length →
      ∃ t, exec (.blkRdata h b) s = .next t ∧ Answered s t h b 0 0 (slice v o.toNat n.toNat) ∧ SameWork s t) ∧
    (∀ v : List Byte, let b := DapBody.blkRclose ix sub ty;
      Due s h b → x.ropen = some v → ∃ t, exec (.blkRclose h b) s = .next t ∧ Answered s t h b 0 0 [] ∧ (t.session slot).ropen = none) ∧
    (∀ mask : List Byte, let b := DapBody.subscribe ix sub ty mask;
      Due s h b → s.obj Obj.GAUGE_STATE ≠ 3 → mask.length = 64 → ∃ t, exec (.subscribe h b) s = .next t ∧ Answered s t h b 0 0 [] ∧
        (t.session slot).mask = maskSources mask ∧ ∀ r ∈ (t.session slot).reports, r.source ∈ maskSources mask) ∧
    (let b := DapBody.keepalive ix sub ty;
      (Due s h b → s.obj Obj.GAUGE_STATE ≠ 3 → ∃ t, exec (.keepalive h b) s = .next t ∧ Answered s t h b 0 0 [] ∧ SameObjs s t [] ∧
        SameWork s t) ∧
      (∀ r, Valid s h b → h.seq.toNat < x.next → x.stored.find? (fun q => q.seq == h.seq.toNat) = some r →
        ∃ t, exec (.keepalive h b) s = .next t ∧ (t.session slot).next = x.next ∧ SameWork s t ∧
          t.obj Obj.REPEATS = counted Obj.REPEATS 32 (s.obj Obj.REPEATS + 1)) ∧
      (Valid s h b → x.next + 64 ≤ h.seq.toNat → ∃ t, exec (.keepalive h b) s = .next t ∧ (t.session slot).next = x.next ∧
        (t.session slot).held = x.held ∧ SameObjs s t [] ∧ SameWork s t)) ∧
    (Due s h .close → ∃ t, exec (.dapClose h .close) s = .next t ∧ t.session slot = Session.free ∧ SameObjs s t [] ∧ SameWork s t) ∧
    (∀ n : BitVec 64, Due s h (.reportAck n) → s.obj Obj.GAUGE_STATE ≠ 3 → ∃ t, exec (.reportAck h (.reportAck n)) s = .next t ∧
      (∀ r ∈ (t.session slot).reports, n.toNat < r.seq) ∧ (t.session slot).next = x.next + 1 ∧ SameObjs s t [] ∧ SameWork s t)

/-- JOB_COMMANDS. LOAD, START, STOP, ABORT and UNLOAD in the states that admit them, and their refusal in a state that does not. -/
def Obligations.JobCommands : Prop :=
  ∀ (s : State) (h : DapHdr) (b : DapBody),
    let j := s.jobState
    (Asked s h b Obj.JOB_COMMAND 1 → s.flash.lc = 2 ∨ s.flash.lc = 3 →
      (j = JOB_EMPTY ∨ j = JOB_LOADED ∨ j = JOB_STOPPED ∨ j = JOB_REFUSED → s.obj Obj.DEGRADED ≠ 1 →
        s.sliceState = SLICE_CREATED ∨ s.sliceState = SLICE_OPEN → ∃ t, exec (.load h b) s = .next t ∧ Answered s t h b 0 0 [] ∧
        t.jobState = JOB_CHECKING ∧ t.job = JobSt.reset ∧ t.upd = UpdSt.reset ∧ t.obj Obj.COMMITTED = 0 ∧ t.obj Obj.FIRST_TRAP = 0xFFFF ∧
        t.ev.prio = [] ∧ t.ev.targets = []) ∧
      (j = JOB_CHECKING ∨ j = JOB_STARTING ∨ j = JOB_RUNNING ∨ j = JOB_STOPPING → ∃ t, exec (.load h b) s = .next t ∧
        Answered s t h b St.WRONG_STATE 0 [] ∧ SameObjs s t [] ∧ t.job = s.job ∧ SameWork s t)) ∧
    (Asked s h b Obj.JOB_COMMAND 2 →
      (j = JOB_LOADED ∨ (j = JOB_STOPPED ∧ s.obj Obj.TRAPPED = 0) → s.isOpen = true → s.job.starts = [] →
        ∃ t, exec (.start h b) s = .next t ∧ Answered s t h b 0 0 [] ∧ t.mem = s.mem ∧ t.job.prior = j ∧
          t.jobState = (if (s.membersOf s.sliceDef).filter (· != s.chip) = [] then JOB_RUNNING else JOB_STARTING)) ∧
      (j ≠ JOB_LOADED → j ≠ JOB_STOPPED → ∃ t, exec (.start h b) s = .next t ∧ Answered s t h b St.WRONG_STATE 0 [] ∧ SameObjs s t [] ∧
        t.job = s.job ∧ SameWork s t)) ∧
    (Asked s h b Obj.JOB_COMMAND 3 →
      (j = JOB_RUNNING → ∃ t, exec (.stop h b) s = .next t ∧ Answered s t h b 0 0 [] ∧ t.jobState = JOB_STOPPING ∧ SameWork s t ∧
        (s.isAnchor = true → t.job.stopMark = true) ∧ (s.isAnchor = false → .mgmt s.anchorChip 0 .stop ∈ t.outbox)) ∧
      (j ≠ JOB_RUNNING → ∃ t, exec (.stop h b) s = .next t ∧ Answered s t h b St.WRONG_STATE 0 [] ∧ SameObjs s t [] ∧ SameWork s t)) ∧
    (Asked s h b Obj.JOB_COMMAND 4 → j = JOB_STARTING ∨ j = JOB_RUNNING ∨ j = JOB_STOPPING →
      (s.committing = false → s.moving = false → ∃ t, exec (.abort h b) s = .next t ∧ Answered s t h b 0 0 [] ∧ t.jobState = JOB_STOPPED ∧
        t.obj Obj.ABORTED = 1 ∧ t.upd.shadows = [] ∧ t.upd.journal = [] ∧ t.coll.issues = []) ∧
      (s.committing = true → ∃ t, exec (.abort h b) s = .next t ∧ Answered s t h b 0 0 [] ∧ t.jobState = j ∧ t.job.abortWaits = true ∧
        t.upd.journal = [])) ∧
    (Asked s h b Obj.JOB_COMMAND 5 →
      (j = JOB_LOADED ∨ j = JOB_STOPPED ∨ j = JOB_REFUSED → ∃ t, exec (.unload h b) s = .next t ∧ Answered s t h b 0 0 [] ∧
        t.jobState = JOB_EMPTY ∧ t.job = JobSt.reset ∧ t.upd = UpdSt.reset ∧ t.coll.issues = []) ∧
      (j = JOB_EMPTY ∨ j = JOB_RUNNING → ∃ t, exec (.unload h b) s = .next t ∧ Answered s t h b St.WRONG_STATE 0 [] ∧ SameObjs s t [] ∧
        t.job = s.job ∧ SameWork s t))

/-- GROUP_COMMANDS. OPEN, CLOSE and DISSOLVE of a slice; FOUND, JOIN and LEAVE of a federation; NOW and CANCEL of a snapshot. -/
def Obligations.GroupCommands : Prop :=
  ∀ (s : State) (h : DapHdr) (b : DapBody),
    (Asked s h b Obj.SLICE_COMMAND 1 →
      (s.sliceState = SLICE_CREATED → s.coordinator s.sliceDef ≠ s.chip → ∃ t, exec (.openSlice h b) s = .next t ∧
        Answered s t h b 0 0 [] ∧ .mgmt (s.coordinator s.sliceDef) 0 .openReq ∈ t.outbox ∧ SameObjs s t [] ∧ SameWork s t) ∧
      (s.sliceState = SLICE_CREATED → s.coordinator s.sliceDef = s.chip → s.inSlice s.chip = true → s.torus.opening = false →
        s.chip ∈ s.membersOf s.sliceDef → ∃ t, exec (.openSlice h b) s = .next t ∧ Answered s t h b 0 0 [] ∧
        (t.sliceState = SLICE_OPENING ∨ t.sliceState = SLICE_OPEN)) ∧
      (s.sliceState ≠ SLICE_CREATED → ∃ t, exec (.openSlice h b) s = .next t ∧ Answered s t h b St.WRONG_STATE 0 [] ∧ SameObjs s t [] ∧
        SameWork s t)) ∧
    (Asked s h b Obj.SLICE_COMMAND 2 → s.sliceState = SLICE_OPENING ∨ s.sliceState = SLICE_OPEN → s.committing = false → s.moving = false →
      ∃ t, exec (.close h b) s = .next t ∧ Answered s t h b 0 0 [] ∧ t.sliceState = SLICE_CREATED ∧ t.obj Obj.OPEN = 0 ∧
        t.upd.shadows = [] ∧ t.coll.issues = []) ∧
    (Asked s h b Obj.SLICE_COMMAND 3 →
      (s.sliceState = SLICE_CREATED → s.jobIdle = true → ∃ t, exec (.dissolve h b) s = .next t ∧ Answered s t h b 0 0 [] ∧
        t.sliceState = SLICE_NONE ∧ t.obj Obj.SLICE_SIZE = 0 ∧ t.obj Obj.DEVICE_INDEX = 0xFFFF ∧ t.dom Obj.SLICE_MAP = zeros 512 ∧
        t.mem = s.mem) ∧
      (s.jobIdle = false → ∃ t, exec (.dissolve h b) s = .next t ∧ Answered s t h b St.WRONG_STATE 0 [] ∧ SameObjs s t [] ∧ SameWork s t)) ∧
    (Asked s h b Obj.COMMAND_4000 1 →
      (s.mayBegin = true → s.exchOk = true → ∃ t, exec (.found h b) s = .next t ∧ Answered s t h b 0 0 [] ∧ t.obj Obj.FED_STATE = 3 ∧
        t.obj Obj.HEAD_ROUND = 0 ∧ t.obj Obj.FLOOR_ROUND = 0 ∧ t.obj Obj.LIVE_MASK = 2 ^ s.selfId) ∧
      (s.mayBegin = true → s.exchOk = false → ∃ t, exec (.found h b) s = .next t ∧ Answered s t h b St.INCONSISTENT 7 [] ∧ SameWork s t)) ∧
    (Asked s h b Obj.COMMAND_4000 2 → s.mayBegin = true → s.exchOk = true → ∃ t, exec (.fedJoin h b) s = .next t ∧ Answered s t h b 0 0 [] ∧
      t.obj Obj.FED_STATE = 1 ∧ t.obj Obj.JOIN_REASON = 0 ∧ t.mem = s.mem) ∧
    (Asked s h b Obj.COMMAND_4000 3 →
      (s.obj Obj.FED_STATE ≠ 0 → ∃ t, exec (.fedLeave h b) s = .next t ∧ Answered s t h b 0 0 [] ∧ t.obj Obj.FED_STATE = 0 ∧
        t.obj Obj.LIVE_MASK = 0 ∧ t.fed = FedSt.reset ∧ t.mem = s.mem) ∧
      (s.obj Obj.FED_STATE = 0 → ∃ t, exec (.fedLeave h b) s = .next t ∧ Answered s t h b St.WRONG_STATE 0 [] ∧ SameObjs s t [] ∧
        SameWork s t)) ∧
    (Asked s h b Obj.SNAP_COMMAND 1 → s.snap.ident = none → s.job.image.isSome = true →
      (s.isAnchor = true → ∃ t, exec (.snapNow h b) s = .next t ∧ Answered s t h b 0 0 [] ∧ t.obj Obj.SNAP_AT = s.obj Obj.COMMITTED + 2 ∧
        t.obj Obj.SNAP_STATE = 1 ∧ t.snap.agreed = true ∧ SameWork s t) ∧
      (s.isAnchor = false → ∃ t, exec (.snapNow h b) s = .next t ∧ Answered s t h b 0 0 [] ∧
        .mgmt s.anchorChip 0 (.cpMail .snapRequest) ∈ t.outbox ∧ SameObjs s t [] ∧ SameWork s t)) ∧
    (Asked s h b Obj.SNAP_COMMAND 2 → s.snap.ident.isSome = true ∨ s.snap.agreed = true → ∃ t, exec (.snapCancel h b) s = .next t ∧
      Answered s t h b 0 0 [] ∧ t.obj Obj.SNAP_STATE = 5 ∧ t.snap.ident = none ∧ t.snap.held = [] ∧ t.snap.agreed = false ∧ SameWork s t)

/-- DEVICE_COMMANDS. CLEAR, the firmware commands, Gauge's commands, TOD_NEXT, CLOSE_SLOT and the write of PORT_ENABLE. -/
def Obligations.DeviceCommands : Prop :=
  ∀ (s : State) (h : DapHdr) (b : DapBody),
    (Asked s h b Obj.CLEAR 0 → ∃ t, exec (.clear h b) s = .next t ∧ Answered s t h b 0 0 [] ∧ t.obj Obj.STEPS = 0 ∧ t.ten.figs = [] ∧
      t.ten.bins = [] ∧ SameObjs s t [Obj.STEPS] ∧ SameWork s t) ∧
    (Asked s h b Obj.FW_COMMAND 1 → let r := s.fwReason false (s.dom Obj.FW_IMAGE);
      (r = 0 → ∃ t, exec (.fwStage h b) s = .next t ∧ Answered s t h b 0 0 [] ∧ t.obj Obj.FW_STATE = 3 ∧
        t.flash.pending = some (1 - s.flash.active) ∧ t.bankBytes (1 - s.flash.active) = s.dom Obj.FW_IMAGE ∧
        t.flash.active = s.flash.active ∧ t.bankBytes s.flash.active = s.bankBytes s.flash.active) ∧
      (r ≠ 0 → ∃ t, exec (.fwStage h b) s = .next t ∧ Answered s t h b 0 0 [] ∧ t.obj Obj.FW_STATE = 4 ∧ t.obj Obj.FW_REASON = r ∧
        SameWork s t)) ∧
    (Asked s h b Obj.FW_COMMAND 2 →
      (s.flash.pending = none → ∃ t, exec (.fwCommit h b) s = .next t ∧ Answered s t h b 0 0 [] ∧
        t.flash = { s.flash with floorSecver := max s.flash.floorSecver (s.obj Obj.RUNNING_SECVER) } ∧ SameObjs s t []) ∧
      (s.flash.pending ≠ none → ∃ t, exec (.fwCommit h b) s = .next t ∧ Answered s t h b St.WRONG_STATE 0 [] ∧ SameObjs s t [] ∧
        SameWork s t)) ∧
    (Asked s h b Obj.FW_COMMAND 3 → ∃ t, exec (.fwCancel h b) s = .next t ∧ Answered s t h b 0 0 [] ∧ t.obj Obj.FW_STATE = 0 ∧
      t.flash = { s.flash with pending := none }) ∧
    (Asked s h b Obj.GAUGE_COMMAND 1 → s.gauge.shut = false → s.boot.shutAtReady = false → s.gauge.run = none →
      (s.boot.stage = .ready → ∃ t, exec (.gaugeShutdown h b) s = .next t ∧ Answered s t h b 0 0 [] ∧ t.gauge.shut = true ∧
        t.gauge.trig = 2 ∧ t.obj Obj.GAUGE_STATE ≠ 0) ∧
      (s.boot.stage = .memory → ∃ t, exec (.gaugeShutdown h b) s = .next t ∧ Answered s t h b 0 0 [] ∧ t.boot.shutAtReady = true ∧
        t.gauge = { s.gauge with trig := 2 } ∧ SameWork s t)) ∧
    (Asked s h b Obj.GAUGE_COMMAND 2 →
      (s.gaugeFree = true → 1500 ≤ s.obj Obj.PCAP → ∃ t, exec (.gaugeTest h b) s = .next t ∧ Answered s t h b 0 0 [] ∧
        t.gauge.run.map GaugeRun.trigger = some 3 ∧ t.obj Obj.GAUGE_STATE = 2) ∧
      (s.gaugeFree = true → s.obj Obj.PCAP < 1500 → ∃ t, exec (.gaugeTest h b) s = .next t ∧ Answered s t h b St.INCONSISTENT 0 [] ∧
        t.gauge = s.gauge ∧ (t.flash.records.head?.map (fun r => leAt r.1 5 1)) = some 3) ∧
      (s.gaugeFree = false → ∃ t, exec (.gaugeTest h b) s = .next t ∧ Answered s t h b St.WRONG_STATE 0 [] ∧ SameObjs s t [] ∧
        SameWork s t)) ∧
    (Asked s h b Obj.GAUGE_COMMAND 3 →
      (s.flash.lc = 0 ∨ s.flash.lc = 3 → s.gaugeFree = true → ∃ t, exec (.runCustom h b) s = .next t ∧
        (s.fwReason true (s.dom Obj.CUSTOM_PROG) = 0 → 1500 ≤ s.obj Obj.PCAP → Answered s t h b 0 0 [] ∧
          t.gauge.run.map GaugeRun.trigger = some 5 ∧ t.obj Obj.GAUGE_STATE = 2) ∧
        (s.fwReason true (s.dom Obj.CUSTOM_PROG) ≠ 0 → Answered s t h b St.INCONSISTENT (s.fwReason true (s.dom Obj.CUSTOM_PROG)) [] ∧
          SameWork s t)) ∧
      (s.flash.lc ≠ 0 → s.flash.lc ≠ 3 → ∃ t, exec (.runCustom h b) s = .next t ∧ Answered s t h b St.ACCESS_DENIED 0 [] ∧
        SameObjs s t [] ∧ SameWork s t)) ∧
    (Asked s h b Obj.TOD_NEXT 0 → ∃ t, exec (.todNext h b) s = .next t ∧ Answered s t h b 0 0 [] ∧ t.tb.tod = some (written b, s.now) ∧
      SameObjs s t [] ∧ SameWork s t) ∧
    (Asked s h b Obj.CLOSE_SLOT 0 → ∃ t, exec (.closeSlot h b) s = .next t ∧ Answered s t h b 0 0 [] ∧
      (t.session (written b)).live = false ∧ SameObjs s t [] ∧ SameWork s t) ∧
    (Asked s h b Obj.PORT_ENABLE 0 → ∃ t, exec (.portEnableWrite h b) s = .next t ∧ Answered s t h b 0 0 [] ∧
      t.obj Obj.PORT_ENABLE = written b ∧
      ∀ p, p < 6 → (bit (written b) p = false → (t.port p).st = 0 ∧ (t.port p).trying = false) ∧
        (bit (written b) p = true → s.portBarred p = false → (s.port p).st = 0 → (s.port p).trying = false →
          (t.port p).st = 1 ∧ (t.port p).trying = true))

/-- APPLY_TAKES. An accepted APPLY makes every field of its group what the session staged, or leaves what it did not stage, in one
action; the session's staging of the group is empty then, and no other object changes. -/
def Obligations.ApplyTakes : Prop :=
  ∀ (s : State) (h : DapHdr) (b : DapBody),
    let c := s.cand (h.session.toNat % 8)
    let cb := s.candB (h.session.toNat % 8)
    let takes := fun (row : DapHdr → DapBody → Instr) (ix : Nat) (check : Prop) (nums doms : List Nat) =>
      Applies s h b ix → check →
        ∃ t, exec (row h b) s = .next t ∧ Answered s t h b 0 0 [] ∧ SameWork s t ∧ (t.session (h.session.toNat % 8)).stagedIn ix = false ∧
          (∀ k ∈ nums, t.obj k = c k) ∧ (∀ k ∈ doms, t.dom k = cb k) ∧ SameObjs s t nums
    takes .applyVoltagePower 0x2000 (c Obj.VCORE_MIN ≤ c Obj.VCORE_MAX ∧ c Obj.VCORE_MAX % 5 = 0 ∧ c Obj.VCORE_MIN % 5 = 0)
      [Obj.VCORE_MAX, Obj.VCORE_MIN, Obj.PCAP] [] ∧
    takes .applyBoard 0x2003 True [Obj.EVENT_EN, Obj.EVENT_LEVEL, Obj.PPS_OUT_EN] [] ∧
    takes .applyDapSession 0x1100 True [Obj.DAP_PORT, Obj.SESSION_IDLE] [] ∧
    takes .applyNormPolicy 0x3300 (fGt (c Obj.CLIP) (c Obj.ABS_LIMIT) = false) [Obj.CLIP, Obj.ABS_LIMIT, Obj.CLIP_MODE] [] ∧
    takes .applyCompression 0x4100 (c Obj.TOPK ≤ s.obj Obj.K_LIMIT) [Obj.FORM, Obj.TOPK, Obj.EF_ENABLE] [] ∧
    takes .applyOuterRule 0x4200 True [Obj.ETA_O, Obj.MU_O, Obj.LAMBDA, Obj.S_MAX] [] ∧
    takes .applyFeed 0x3100 (∀ im, s.job.image = some im → ∀ x ∈ im.sources, x.kind = 0 → x.endpoint < 16 →
        allZero ((cb (Obj.ENDPOINT + x.endpoint)).take 16) = false)
      [Obj.FEED_TIMEOUT, Obj.FEED_RETRY_LIMIT, Obj.FETCH_AHEAD]
      ((List.range 16).map (Obj.ENDPOINT + ·)) ∧
    takes .applySiteTime 0x1300 ((c Obj.TIME_MODE = 1 → s.obj Obj.PPS_ENABLE ≠ 0) ∧ (c Obj.TIME_MODE = 2 → s.obj Obj.FED_STATE ≠ 0))
      [Obj.TIME_MODE, Obj.TOD_SRC, Obj.PTP_DOMAIN, Obj.TWTT_INTERVAL, Obj.PROBE_INTERVAL] [Obj.PTP_GM_ID, Obj.ASYM] ∧
    takes .applyExport 0x5000 ((s.jobState = JOB_EMPTY ∨ s.jobState = JOB_LOADED ∨ s.jobState = JOB_REFUSED ∨
          ∀ k ∈ [Obj.STREAM_MODE, Obj.STREAM_CONTENT, Obj.STREAM_RING], c k = s.obj k) ∧
        (c Obj.STREAM_MODE ≠ 0 → allZero (cb Obj.STREAM_EP) = false) ∧
        (c Obj.STREAM_KEY_SLOT ≠ 0xFF → s.slotAllows (c Obj.STREAM_KEY_SLOT) 2 = true) ∧
        (c Obj.SNAP_EVERY ≠ 0 → allZero (cb Obj.SNAP_EP) = false ∧ s.slotAllows (c Obj.SNAP_KEY_SLOT) 1 = true))
      exportNums [Obj.STREAM_EP, Obj.SNAP_EP] ∧
    takes .applyFederation 0x4000 (s.obj Obj.FED_STATE = 0 ∧
        s.candF (h.session.toNat % 8) Obj.H_MIN ≤ s.candF (h.session.toNat % 8) Obj.H_MAX)
      (fedFixed ++ fedTimers) [Obj.SEEDS, Obj.EXCH_AREA] ∧
    takes .applyTorus 0x2100 (let m := c Obj.AXIS_MAP
        let axis := fun a => bits m (3 * a + 1) (3 * a)
        let size := fun a => nth 0 [c Obj.JERSEY_X, c Obj.JERSEY_Y, c Obj.JERSEY_Z] a
        s.sliceState = SLICE_NONE ∧ m < 512 ∧ size 0 * size 1 * size 2 ≤ 2048 ∧ axis 0 ≠ axis 1 ∧ axis 0 ≠ axis 2 ∧ axis 1 ≠ axis 2 ∧
        ∀ a, a < 3 → axis a ≠ 3 ∧ nib s.chip (axis a) < size a ∧ (bit (c Obj.JERSEY_WRAP) a = true → 3 ≤ size a))
      [Obj.JERSEY_X, Obj.JERSEY_Y, Obj.JERSEY_Z, Obj.JERSEY_WRAP, Obj.AXIS_MAP] []

/-- APPLY_ACTS. The groups whose APPLY does more than take its fields: an Ethernet port, an event source, hyperparameters, Tension, enrolled
keys, a key slot, a lifecycle transition, a re-shard plan, a slice, and the two debug reads; and, for the voltages, that a failed check
keeps every field. -/
def Obligations.ApplyActs : Prop :=
  ∀ (s : State) (h : DapHdr) (b : DapBody),
    let slot := h.session.toNat % 8
    let c := s.cand slot
    (∀ e : EthId, Applies s h b (0x1200 + e.val) →
      let f := fun k => c (ethKey k e.val)
      let a6 := ofBe (padTo 16 (s.candB slot (ethKey Obj.IPV6_ADDR e.val)))
      let g6 := ofBe (padTo 16 (s.candB slot (ethKey Obj.IPV6_GW e.val)))
      (f Obj.SPEED = 0 → f Obj.MEDIA ≠ 1) → (a6 ≠ 0 → 1 ≤ f Obj.IPV6_PREFIX ∧ f Obj.IPV6_PREFIX ≤ 128) →
      (f Obj.IPV4_ADDR ≠ 0 → 1 ≤ f Obj.IPV4_MASK ∧ f Obj.IPV4_MASK ≤ 32) → (g6 ≠ 0 → inPrefix 128 (f Obj.IPV6_PREFIX) a6 g6 = true) →
      (f Obj.IPV4_GW ≠ 0 → inPrefix 32 (f Obj.IPV4_MASK) (f Obj.IPV4_ADDR) (f Obj.IPV4_GW) = true) →
      s.obj Obj.FRAG_PAYLOAD + 110 ≤ f Obj.MAX_FRAME → (f Obj.PTP_EN = 1 → s.obj (ethKey Obj.PTP_EN (1 - e.val)) ≠ 1) →
      ∃ t, exec (.applyEthernetPort e h b) s = .next t ∧ Answered s t h b 0 0 [] ∧ (∀ k ∈ ethNums e.val, t.obj k = c k) ∧
        (∀ k ∈ ethDoms e.val, t.dom k = s.candB slot k) ∧ SameWork s t ∧
        (s.tb.onOsc = false → f Obj.SPEED ≠ s.obj (ethKey Obj.SPEED e.val) ∨ f Obj.MEDIA ≠ s.obj (ethKey Obj.MEDIA e.val) →
          t.obj (ethKey Obj.LINK_STATE e.val) = 1) ∧
        (f Obj.SPEED = s.obj (ethKey Obj.SPEED e.val) → f Obj.MEDIA = s.obj (ethKey Obj.MEDIA e.val) →
          t.obj (ethKey Obj.LINK_STATE e.val) = s.obj (ethKey Obj.LINK_STATE e.val))) ∧
    (Applies s h b 0x4000 → s.obj Obj.FED_STATE ≠ 0 →
      s.candF slot Obj.H_MIN ≤ s.candF slot Obj.H_MAX → (∀ k ∈ fedFixed, c k = s.obj k) →
      (∀ k ∈ [Obj.SEEDS, Obj.EXCH_AREA], s.candB slot k = s.dom k) → ∃ t, exec (.applyFederation h b) s = .next t ∧
        Answered s t h b 0 0 [] ∧ (∀ k ∈ fedTimers, t.accepted k = s.candF slot k) ∧ SameObjs s t [] ∧ SameWork s t) ∧
    (Applies s h b 0x2400 →
      (Ev.listed (c Obj.EVT_SRC) = true → 0x40 ≤ c Obj.EVT_SRC → ∃ t, exec (.applyEventSource h b) s = .next t ∧ Answered s t h b 0 0 [] ∧
        t.ev.prioOf (c Obj.EVT_SRC) = c Obj.EVT_PRIORITY ∧ t.ev.targetsOf (c Obj.EVT_SRC) = c Obj.EVT_TARGETS ∧
        (∀ k, k ≠ c Obj.EVT_SRC → t.ev.prioOf k = s.ev.prioOf k ∧ t.ev.targetsOf k = s.ev.targetsOf k) ∧ SameWork s t) ∧
      (Ev.listed (c Obj.EVT_SRC) = false → ∃ t, exec (.applyEventSource h b) s = .next t ∧ Answered s t h b St.INCONSISTENT 0x10 [] ∧
        t.ev.prio = s.ev.prio ∧ SameObjs s t [] ∧ SameWork s t)) ∧
    (Applies s h b 0x3200 → ∃ t, exec (.applyHyperparameters h b) s = .next t ∧ Answered s t h b 0 0 [] ∧
      t.hpSet (c Obj.HP_SET) = hpObjs.map (s.candHp slot) ∧ (∀ k, k ≠ c Obj.HP_SET → t.hpSet k = s.hpSet k) ∧ SameWork s t) ∧
    (Applies s h b 0x6000 → (c Obj.TENSION_EXPORT = 1 → allZero (s.dom Obj.STREAM_EP) = false) → ∃ t, exec (.applyTension h b) s = .next t ∧ Answered s t h b 0 0 [] ∧
      SameWork s t ∧
      (s.jobRuns = true → t.ten.next = some (c Obj.XCH_TARGET, c Obj.TENSION_EXPORT, c Obj.TENSION_BATCH) ∧ SameObjs s t []) ∧
      (s.jobRuns = false → t.obj Obj.XCH_TARGET = c Obj.XCH_TARGET ∧ t.obj Obj.TENSION_EXPORT = c Obj.TENSION_EXPORT ∧
        t.obj Obj.TENSION_BATCH = c Obj.TENSION_BATCH)) ∧
    (Applies s h b 0x1002 →
      let pub := padTo 57 (s.candB slot Obj.KEY_PUB)
      s.job.image = none → s.flash.lc = 0 ∨ c Obj.KEY_ROLE = 1 ∨ s.flash.hasRole 1 (c Obj.KEY_SLOT) = true →
      (c Obj.KEY_ROLE ≠ 0 → ed448Valid pub = true ∧ ∀ j, j < 16 → j ≠ c Obj.KEY_SLOT → (s.flash.keyAt j).role ≠ 0 →
        (s.flash.keyAt j).key ≠ pub) → ∃ t, exec (.applyKeys h b) s = .next t ∧ Answered s t h b 0 0 [] ∧
        t.flash.keyAt (c Obj.KEY_SLOT) = (if c Obj.KEY_ROLE = 0 then KeySlot.empty else ⟨c Obj.KEY_ROLE, pub⟩) ∧ t.mem = s.mem ∧
        ∀ j, j ≠ c Obj.KEY_SLOT → t.flash.keyAt j = s.flash.keyAt j) ∧
    (Applies s h b 0x5100 → ((s.session slot).stagedAt Obj.KS_SLOT).isSome = true → bit (s.obj Obj.FED_FLAGS) 1 = false →
      s.obj Obj.STREAM_MODE = 0 → s.snap.ident = none →
      (c Obj.KS_CLEAR = 1 → ∃ t, exec (.applyKeySlot h b) s = .next t ∧ Answered s t h b 0 0 [] ∧
        t.keySlot (c Obj.KS_SLOT) = CipherSlot.empty ∧ SameWork s t) ∧
      (c Obj.KS_CLEAR = 0 → let r := s.unwrapKey (c Obj.KS_SLOT) (s.candB slot Obj.KS_BLOB) (s.ownId slot)
        ∃ t, exec (.applyKeySlot h b) s = .next t ∧ (r.1 = 0 → Answered s t h b 0 0 [] ∧ t.cipher = r.2.cipher ∧ t.flash = r.2.flash) ∧
          (r.1 ≠ 0 → Answered s t h b St.INCONSISTENT 2 [] ∧ t.cipher = s.cipher ∧ SameWork s t))) ∧
    (Applies s h b 0x1001 → s.flash.lc = 1 → c Obj.LC_TARGET = 2 →
      ((s.session slot).cls = 2 → s.flash.hasRole 2 16 = true → s.jobState = JOB_EMPTY → s.candB slot Obj.LC_TOKEN = [] →
        ∃ t, exec (.applyLifecycle h b) s = .next t ∧ Answered s t h b 0 0 [] ∧ t.flash.lc = 2 ∧ t.cipher.slots = [] ∧
          t.obj Obj.DEBUG_EN = 0 ∧ t.obj Obj.DEBUG_GRANT = 0 ∧ t.mem = s.mem ∧ t.flash.keys = s.flash.keys) ∧
      ((s.session slot).cls ≠ 2 → ∃ t, exec (.applyLifecycle h b) s = .next t ∧ Answered s t h b St.ACCESS_DENIED 0 [] ∧ SameObjs s t [] ∧
        SameWork s t)) ∧
    (Applies s h b 0x1001 → s.flash.lc = 2 → c Obj.LC_TARGET = 2 → ∃ t, exec (.applyLifecycle h b) s = .next t ∧
      Answered s t h b St.WRONG_STATE 0 [] ∧ SameObjs s t [] ∧ SameWork s t) ∧
    (∀ im : Image, Applies s h b 0x3102 → s.job.image = some im → let p := rsPlanOf (s.candB slot Obj.RS_PLAN);
      (s.jobState = JOB_LOADED ∨ s.jobState = JOB_RUNNING ∨ s.jobState = JOB_STOPPED → s.resh.phase < 3 → p.whole = true →
        s.obj Obj.COMMITTED + (if s.jobState = JOB_RUNNING then 2 else 0) ≤ p.stepAt → p.epoch ≠ s.obj Obj.EPOCH →
        p.roots.all (s.rootOk im) = true → (∀ o ∈ p.outs, o.moves.all im.moveOk = true ∧ s.outOk im o = true) → s.arrivalsOk im p = true → ∃ t, exec (.applyReshard h b) s = .next t ∧ Answered s t h b 0 0 [] ∧
        t.obj Obj.RS_AT = p.stepAt ∧ t.obj Obj.RS_STATE = 1 ∧ t.resh = ReshSt.reset ∧ SameWork s t) ∧
      (s.jobState = JOB_CHECKING → ∃ t, exec (.applyReshard h b) s = .next t ∧ Answered s t h b St.WRONG_STATE 0 [] ∧ SameObjs s t [] ∧
        SameWork s t)) ∧
    (Applies s h b 0x2200 → s.obj Obj.DEGRADED = 0 →
      (s.sliceState ≠ SLICE_NONE → ∃ t, exec (.applySlice h b) s = .next t ∧ Answered s t h b St.WRONG_STATE 6 [] ∧
        t.obj Obj.SLICE_REASON = 6 ∧ SameObjs s t [Obj.SLICE_REASON] ∧ SameWork s t) ∧
      (∀ r, s.sliceState = SLICE_NONE → s.sliceCheck (s.candSlice slot) = some r → ∃ t, exec (.applySlice h b) s = .next t ∧
        Answered s t h b St.INCONSISTENT r [] ∧ t.obj Obj.SLICE_REASON = r ∧ SameObjs s t [Obj.SLICE_REASON] ∧ SameWork s t) ∧
      (s.sliceState = SLICE_NONE → s.sliceCheck (s.candSlice slot) = none → s.coordinator (s.candSlice slot) ≠ s.chip →
        ∃ t, exec (.applySlice h b) s = .next t ∧ Answered s t h b 0 0 [] ∧ t.sliceState = SLICE_PROPOSED ∧
          .mgmt (s.coordinator (s.candSlice slot)) 4 (.slicePropose (s.candSlice slot)) ∈ t.outbox ∧ t.mem = s.mem)) ∧
    (Applies s h b 0xC010 → c Obj.DDR_CORE < 12288 → c Obj.DDR_TILE < 16 →
      let y := (s.core (c Obj.DDR_CORE)).tile .job (c Obj.DDR_TILE);
      y.live = true → c Obj.DDR_FIRST + c Obj.DDR_COUNT ≤ y.size → ∃ t, exec (.applyDebugDrain h b) s = .next t ∧ Answered s t h b 0 0 [] ∧
        SameWork s t ∧ (y.settled = true → t.obj Obj.DDR_STATUS = 5 ∧ t.dap.drain = none) ∧
        (y.settled = false → t.obj Obj.DDR_STATUS = 0 ∧ t.dap.drain.isSome = true)) ∧
    (Applies s h b 0xC020 → c Obj.VBR_CORE < 12288 → c Obj.VBR_FIRST + c Obj.VBR_COUNT ≤ 16384 → ∃ t, exec (.applyVbRead h b) s = .next t ∧
      Answered s t h b 0 0 [] ∧ SameWork s t ∧
      t.dom Obj.VBR_DATA = s.mem.read (vbAddr (c Obj.VBR_CORE) (c Obj.VBR_BUF) (c Obj.VBR_FIRST)) (c Obj.VBR_COUNT)) ∧
    (Applies s h b 0x2000 → c Obj.VCORE_MAX < c Obj.VCORE_MIN → ∃ t, exec (.applyVoltagePower h b) s = .next t ∧
      Answered s t h b St.INCONSISTENT 2 [] ∧ SameObjs s t [] ∧ SameWork s t)

/-- PORT_TRAINING. A torus port trains in the order of Table 9.1: signal, identity, qualification; it goes down when a step fails, shows
state 3 when another port than the expected one answers, retries after 1 s, and retrains when flit lock is lost. A lost port of a
slice in open mode ends open mode. -/
def Obligations.PortTraining : Prop :=
  ∀ (s : State) (p : PortId),
    let x := s.port p.val
    (x.trying = true → x.signal = false → ∃ t, exec (.signalDetected p) s = .next t ∧ OnlyPort s t p.val ∧
      t.port p.val = { x with signal := true, st := 1 }) ∧
    (x.trying = true → x.signal = false → x.st = 1 → ∃ t, exec (.signalTimeout p) s = .next t ∧ (t.port p.val).st = 4 ∧
      (t.port p.val).trying = false ∧ (∀ q, q ≠ p.val → t.port q = s.port q) ∧ SameObjs s t [] ∧ SameBase s t) ∧
    (x.st = 4 → x.trying = false → s.tb.onOsc = false → ∃ t, exec (.linkRetry p) s = .next t ∧ OnlyPort s t p.val ∧
      t.port p.val = { x with trying := true, signal := false, ident := false }) ∧
    (∀ (chip pos : BitVec 12) (role : Fin 8), x.signal = true → x.st = 1 →
      let code := s.roleOf p.val
      (s.expectedPeer code = some pos.toNat → role.val = oppositeRole code → ∃ t, exec (.identityExchange p chip pos role) s = .next t ∧
        OnlyPort s t p.val ∧ t.port p.val = { x with peer := chip.toNat * 2 ^ 16 + role.val, ident := true, trying := true }) ∧
      (s.expectedPeer code ≠ some pos.toNat ∨ role.val ≠ oppositeRole code → ∃ t, exec (.identityExchange p chip pos role) s = .next t ∧
        (t.port p.val).st = 3 ∧ (t.port p.val).peer = chip.toNat * 2 ^ 16 + role.val ∧ (∀ q, q ≠ p.val → t.port q = s.port q) ∧
        SameObjs s t [] ∧ SameBase s t)) ∧
    (x.st = 1 → x.ident = true →
      (∃ t, exec (.qualificationComplete p true) s = .next t ∧ t.port p.val = { x.fresh with st := 2, trying := false, retry := false } ∧
        (∀ k, (t.port p.val).credit k = creditsFull k) ∧ (∀ q, q ≠ p.val → t.port q = s.port q) ∧ SameBase s t) ∧
      (∃ t, exec (.qualificationComplete p false) s = .next t ∧ (t.port p.val).st = 4 ∧ (∀ q, q ≠ p.val → t.port q = s.port q) ∧
        SameObjs s t [] ∧ SameBase s t)) ∧
    (x.st = 2 → ∃ t, exec (.flitLockLost p) s = .next t ∧ OnlyPort s t p.val ∧
      t.port p.val = { x with st := 5, retrains := x.retrains + 1, naks := [] }) ∧
    (x.st = 5 → ∃ t, exec (.retrainComplete p) s = .next t ∧ OnlyPort s t p.val ∧ t.port p.val = { x with st := 2 }) ∧
    (x.st = 5 →
      (s.sliceState < 3 → ∃ t, exec (.retrainTimeout p) s = .next t ∧ (t.port p.val).st = 4 ∧ (t.port p.val).downs = x.downs + 1 ∧
        (t.port p.val).replay = [] ∧ (∀ q, q ≠ p.val → t.port q = s.port q) ∧ SameObjs s t [] ∧ SameBase s t) ∧
      (s.sliceState = SLICE_OPEN → (s.slicePorts s.sliceDef).contains p.val = true → s.committing = false → s.moving = false →
        ∃ t, exec (.retrainTimeout p) s = .next t ∧ (t.port p.val).st = 4 ∧ t.sliceState = SLICE_CREATED ∧ t.obj Obj.OPEN = 0 ∧
          t.obj Obj.FAULT_CHIP = s.chip ∧ t.coll.issues = [] ∧ t.mem = s.mem))

/-- FLITS_AND_PACKETS. A port that is up sends a flit that is to be sent again, or the next waiting flit that its credits admit, or an
idle flit; a received flit with a wrong CRC is dropped and draws a NAK; one out of sequence draws a NAK; one in sequence joins its
packet. The Purl router takes the oldest packet of a port: a packet that the checks of R229 refuse is discarded and counted; a slice
unicast for another chip goes on by its route; a management message waits for room in the receive queue of 64, and enters it oldest
first. -/
def Obligations.FlitsAndPackets : Prop :=
  ∀ (s : State),
    (∀ p : PortId,
    let x := s.port p.val
    x.st = 2 →
    (x.nak = false → x.naks.length < 32 →
      let tot := Sparse.get chan0 x.totalTx x.rot + Sparse.get chan0 x.freed x.rot
      let oldest := (x.txSeq + 4096 - x.replay.length % 4096) % 4096
      (x.resend = none → x.pick = none → ∃ t, exec (.flitSent p) s = .next t ∧ OnlyPort s t p.val ∧ (t.port p.val).txSeq = x.txSeq ∧
        (t.port p.val).sent = x.sent ∧
        t.outbox = s.outbox ++ [.flit p.val (flitBytes (flitHead 0 0 false false true false 0 x.rxSeq) [] x.rot tot) []]) ∧
      (∀ f, x.resend = none → x.pick = some f → ∃ t, exec (.flitSent p) s = .next t ∧ OnlyPort s t p.val ∧
        (t.port p.val).txSeq = (x.txSeq + 1) % 4096 ∧ (t.port p.val).replay = x.replay ++ [f] ∧ (t.port p.val).outq = x.outq.erase f ∧
        (t.port p.val).sent = x.sent + 1 ∧ (t.port p.val).credit f.chan = x.credit f.chan - 1 ∧
        t.outbox = s.outbox ++
          [.flit p.val (flitBytes (flitHead f.vc f.cls f.first f.last false false x.txSeq x.rxSeq) f.payload x.rot tot) f.marks]) ∧
      (∀ i f, x.resend = some i → x.replay[i]? = some f → ∃ t, exec (.flitSent p) s = .next t ∧ OnlyPort s t p.val ∧
        (t.port p.val).txSeq = x.txSeq ∧ (t.port p.val).replay = x.replay ∧ (t.port p.val).resends = x.resends + 1 ∧
        t.outbox = s.outbox ++
          [.flit p.val (flitBytes (flitHead f.vc f.cls f.first f.last false false (oldest + i) x.rxSeq) f.payload x.rot tot) f.marks])) ∧
    (∀ (bs : List Byte) (marks : List Nat), bs.length = 272 →
      let head := beAt bs 0 8
      let good := crc32c (bs.take 264 ++ slice bs 268 4) = beAt bs 264 4;
      ∃ t, exec (.flitReceived p bs marks) s = .next t ∧ OnlyPort s t p.val ∧ t.outbox = s.outbox ∧
        (¬ good → t.port p.val = { x with crcFails := x.crcFails + 1, nak := true }) ∧
        (good → bit head 58 = true → (t.port p.val).rxSeq = x.rxSeq ∧ (t.port p.val).inbox = x.inbox ∧ (t.port p.val).nak = x.nak) ∧
        (good → bit head 58 = false → bits head 56 45 ≠ x.rxSeq → (t.port p.val).nak = true ∧ (t.port p.val).rxSeq = x.rxSeq ∧
          (t.port p.val).inbox = x.inbox) ∧
        (good → bit head 58 = false → bits head 56 45 = x.rxSeq → (t.port p.val).rxSeq = (x.rxSeq + 1) % 4096 ∧
          (t.port p.val).rcvd = x.rcvd + 1 ∧ (t.port p.val).nak = x.nak ∧
          (bit head 59 = false → (t.port p.val).inbox = x.inbox) ∧
          (bit head 59 = true → bit head 60 = true →
            (t.port p.val).inbox = x.inbox ++ [[⟨bits head 63 62, bits head 61 61, true, true, slice bs 8 256, marks⟩]])))) ∧
    (∀ (p : PortId) (f : Flit) (fs : List Flit) (rest : List (List Flit)), (s.port p.val).inbox = (f :: fs) :: rest →
      let h := PktHdr.of f.payload
      (¬ (h.kind = 0 ∧ h.dest = s.chip) → s.admits h f.vc = false → ∃ t, exec (.packetArrival p) s = .next t ∧
        (t.port p.val).inbox = rest ∧ t.obj Obj.ROUTE_MISS = counted Obj.ROUTE_MISS 32 (s.obj Obj.ROUTE_MISS + 1) ∧
        t.dom Obj.LAST_MISS = h.stored ∧ SameObjs s t [Obj.ROUTE_MISS] ∧ SameBase s t) ∧
      (h.kind = 0 → h.dest ≠ s.chip → s.admits h f.vc = true → ∃ t gs, exec (.packetArrival p) s = .next t ∧
        (t.port p.val).inbox = rest ∧ (t.port (s.physOf (s.onward h).1)).outq = (s.port (s.physOf (s.onward h).1)).outq ++ gs ∧
        gs.map (fun g => (g.vc, g.first, g.last, g.payload, g.marks)) =
          (f :: fs).map (fun g => (g.vc, g.first, g.last, g.payload, g.marks)) ∧ t.objs = s.objs ∧ SameBase s t) ∧
      (h.kind = 0 → h.dest = s.chip → f.vc = 3 → s.ofSlice h = true → ∃ t, exec (.packetArrival p) s = .next t ∧
        (t.port p.val).inbox = rest ∧ t.torus.mgmtQ = s.torus.mgmtQ ∧
        t.torus.mgmtWait = s.torus.mgmtWait ++ [⟨h.src, h.ty, p.val, f.chan, (f :: fs).length⟩] ∧ t.objs = s.objs ∧ SameBase s t)) ∧
    (∀ (m : MgmtIn) (ms : List MgmtIn), s.torus.mgmtWait = m :: ms →
      (s.torus.mgmtQ.length < 64 → ∃ t, exec .mgmtQueue s = .next t ∧ t.torus.mgmtQ = s.torus.mgmtQ ++ [m] ∧ t.torus.mgmtWait = ms ∧
        SameObjs s t [] ∧ SameBase s t) ∧
      (64 ≤ s.torus.mgmtQ.length → exec .mgmtQueue s = .next s))

/-- SLICE_MESSAGES. Proposals meet at the coordinator, which commits or refuses them; members open their slice together; a close or a
fault floods the slice and ends open mode; mail of the control processors waits for them. -/
def Obligations.SliceMessages : Prop :=
  ∀ (s : State) (src : ChipId),
    let own := s.sliceDef
    let co := s.coordinator own
    let ms := s.membersOf own
    let created := fun (t : State) => t.sliceState = SLICE_CREATED ∧ t.obj Obj.SLICE_SIZE = sliceSize own ∧
      t.obj Obj.DEVICE_INDEX = indexOfPos own (s.posOfChip s.chip) ∧ t.dom Obj.SLICE_MAP = s.mapFor own ∧ t.torus.proposals = [] ∧
      SameObjs s t [Obj.SLICE_STATE, Obj.SLICE_SIZE, Obj.DEVICE_INDEX] ∧ SameBase s t
    let refused := fun (t : State) (reason : Nat) => t.sliceState = SLICE_NONE ∧ t.obj Obj.SLICE_REASON = reason ∧
      SameObjs s t [Obj.SLICE_STATE, Obj.SLICE_REASON] ∧ SameBase s t
    let closed := fun (t : State) => t.sliceState = SLICE_CREATED ∧ t.obj Obj.OPEN = 0 ∧ t.coll.issues = [] ∧ t.upd.shadows = [] ∧ t.mem = s.mem
    (s.sliceState = SLICE_PROPOSED → co = s.chip → (∀ q ∈ s.torus.proposals, q.2 = own ∧ q.1 ≠ src.toNat) →
      ((∃ m ∈ ms, m ≠ src.toNat ∧ ∀ q ∈ s.torus.proposals, q.1 ≠ m) → ∃ t, exec (.slicePropose src own) s = .next t ∧
        t.torus.proposals = s.torus.proposals ++ [(src.toNat, own)] ∧ t.objs = s.objs ∧ t.outbox = s.outbox ∧ SameBase s t) ∧
      ((∀ m ∈ ms, m = src.toNat ∨ ∃ q ∈ s.torus.proposals, q.1 = m) → s.chip ∈ ms → ∃ t, exec (.slicePropose src own) s = .next t ∧
        created t ∧ ∀ m ∈ s.others, .mgmt m 4 (.sliceCommit own) ∈ t.outbox)) ∧
    (s.sliceState = SLICE_PROPOSED → src.toNat = co → ∃ t, exec (.sliceCommit src own) s = .next t ∧ created t ∧
      t.torus.routes = putRoutes s.torus.routes 0 4096 (s.sliceEntries own)) ∧
    (∀ reason, s.sliceState = SLICE_PROPOSED → src.toNat = co → ∃ t, exec (.sliceRefuse src reason) s = .next t ∧ refused t reason.toNat) ∧
    (s.sliceState = SLICE_PROPOSED → co = s.chip → s.chip ∈ s.torus.proposals.map Prod.fst → ∃ t, exec .sliceProposeTimeout s = .next t ∧
      refused t 8 ∧ ∀ q ∈ s.torus.proposals, q.1 ≠ s.chip → .mgmt q.1 4 (.sliceRefuse 8) ∈ t.outbox) ∧
    (s.sliceState = SLICE_PROPOSED → ∃ t, exec .sliceMemberTimeout s = .next t ∧ refused t 8) ∧
    (co = s.chip → s.inSlice src.toNat = true → s.sliceState = SLICE_CREATED → s.torus.opening = false → ∃ t, exec (.openReq src) s = .next t ∧
      SameBase s t ∧ (∀ m ∈ s.others, .mgmt m 0 .openCheck ∈ t.outbox) ∧ (s.chip ∈ ms → t.sliceState = SLICE_OPENING ∨ t.sliceState = SLICE_OPEN)) ∧
    (s.sliceState = SLICE_CREATED → src.toNat = co → co ≠ s.chip → ∃ t, exec (.openCheck src) s = .next t ∧ t.sliceState = SLICE_OPENING ∧
      (s.slicePortsUp = true → t.outbox = s.outbox ++ [.mgmt co 0 .openReady]) ∧ (s.slicePortsUp = false → t.outbox = s.outbox) ∧
      SameObjs s t [Obj.SLICE_STATE] ∧ SameBase s t) ∧
    (s.torus.opening = true → co = s.chip → s.inSlice src.toNat = true →
      ((∃ m ∈ ms, m ≠ src.toNat ∧ m ∉ s.torus.ready) → ∃ t, exec (.openReady src) s = .next t ∧ src.toNat ∈ t.torus.ready ∧
        t.torus.opening = true ∧ t.objs = s.objs ∧ SameBase s t) ∧
      ((∀ m ∈ ms, m = src.toNat ∨ m ∈ s.torus.ready) → s.chip ∈ ms → s.sliceState = SLICE_OPENING → ∃ t, exec (.openReady src) s = .next t ∧
        t.sliceState = SLICE_OPEN ∧ t.obj Obj.OPEN = 1 ∧ SameBase s t ∧ ∀ m ∈ s.others, .mgmt m 0 .openGo ∈ t.outbox)) ∧
    (s.sliceState = SLICE_OPENING → src.toNat = co →
      (∃ t, exec (.openGo src) s = .next t ∧ t.sliceState = SLICE_OPEN ∧ t.obj Obj.OPEN = 1 ∧ SameObjs s t [Obj.SLICE_STATE, Obj.OPEN] ∧
        SameBase s t) ∧
      (∃ t, exec (.openFail src) s = .next t ∧ t.sliceState = SLICE_CREATED ∧ t.obj Obj.SLICE_REASON = 9 ∧
        SameObjs s t [Obj.SLICE_STATE, Obj.SLICE_REASON] ∧ SameBase s t)) ∧
    (s.torus.opening = true → co = s.chip → s.chip ∈ ms → s.sliceState = SLICE_OPENING → ∃ t, exec .openTimeout s = .next t ∧
      t.sliceState = SLICE_CREATED ∧ t.obj Obj.SLICE_REASON = 9 ∧ (∀ m ∈ s.others, .mgmt m 0 .openFail ∈ t.outbox) ∧ SameBase s t) ∧
    (s.inSlice src.toNat = true → s.sliceState = SLICE_OPENING ∨ s.sliceState = SLICE_OPEN → s.job.closeWaits = none → s.committing = false →
      s.moving = false →
      (∃ t, exec (.closeFlood src) s = .next t ∧ closed t ∧ ∀ p ∈ s.slicePorts own, .flood p .close ∈ t.outbox) ∧
      (∀ (fault : ChipId) (port : PortId), ∃ t, exec (.sliceFault src fault port) s = .next t ∧ closed t ∧ t.obj Obj.FAULT_CHIP = fault.toNat ∧
        ∀ p ∈ s.slicePorts own, .flood p (.sliceFault fault.toNat port.val) ∈ t.outbox)) ∧
    (∀ b : List Byte, b.length ≤ 992 → ∃ t, exec (.cpMail src (.raw b)) s = .next t ∧ t.torus.mail.getLast? = some (src.toNat, b) ∧
      t.torus.mail.length ≤ 64 ∧ t.objs = s.objs ∧ t.outbox = s.outbox ∧ SameBase s t)

/-- ETHERNET_FRAMES. A port answers a request for an address it holds, and discards and counts any other; a frame whose FCS fails is
counted; a link comes up at the speed that the port is set to, and goes down. -/
def Obligations.EthernetFrames : Prop :=
  ∀ (s : State) (e : EthId), s.boot.stage ≠ .held →
    let x := s.ethSt e.val
    let only := fun (t : State) => t = { s with eth := t.eth, outbox := t.outbox } ∧ (t.ethSt e.val).rcvd = x.rcvd + 1
    let answers := fun (cmd : Instr) (mine : Bool) (m : Msg) => ∃ t, exec cmd s = .next t ∧ only t ∧
      (mine = true → t.outbox = s.outbox ++ [m] ∧ (t.ethSt e.val).sent = x.sent + 1 ∧ (t.ethSt e.val).dropped = x.dropped) ∧
      (mine = false → t.outbox = s.outbox ∧ (t.ethSt e.val).dropped = x.dropped + 1)
    (∀ a, answers (.arpRequest e a) (s.holdsV4 e a) (.arp e.val a (macOf e))) ∧
    (∀ a, answers (.neighbourSolicitation e a) (s.holdsV6 e a) (.neighbour e.val a (macOf e))) ∧
    (∀ peer a data, answers (.echoRequest e peer a data) (s.holdsAddr e a) (.echo e.val peer a data)) ∧
    (∀ fcs, ∃ t, exec (.frameDiscard e fcs) s = .next t ∧ only t ∧ t.outbox = s.outbox ∧
      (t.ethSt e.val).fcs = (if fcs then x.fcs + 1 else x.fcs) ∧ (t.ethSt e.val).dropped = (if fcs then x.dropped else x.dropped + 1)) ∧
    (∀ mode : Fin 3, let k := ethKey Obj.LINK_STATE e.val
      let sp := s.obj (ethKey Obj.SPEED e.val)
      (s.tb.onOsc = false → s.obj k < 2 → sp = 0 ∨ sp = mode.val + 1 → ∃ t, exec (.ethernetLinkUp e mode) s = .next t ∧
        t = s.setObj k (mode.val + 2)) ∧
      (s.obj k < 2 → sp ≠ 0 → sp ≠ mode.val + 1 → exec (.ethernetLinkUp e mode) s = .next s)) ∧
    (let k := Obj.LINK_STATE + 256 * e.val
     let n := Obj.LINK_DOWNS + 256 * e.val;
     s.obj k ≠ 0 → ∃ t, exec (.ethernetLinkDown e) s = .next t ∧ t.obj k = 0 ∧ t.obj n = counted n 32 (s.obj n + 1) ∧
      (∀ j, j ≠ k → j ≠ n → t.obj j = s.obj j) ∧ t = { s with objs := t.objs })

/-- COLLECTIVE_HOPS. CREQ takes a reserved slot that is free and draws CGNT, or waits; SLOT_GRANT serves the next waiting CREQ; CGNT and
CNAK make the sender send its chunk; CHUNK is checked, then kept and acknowledged, or refused with CNAK; CACK ends the hop. -/
def Obligations.CollectiveHops : Prop :=
  ∀ (s : State) (port : PortId) (h : CollHdr) (p : PlanEntry) (x : Issue),
    let e := h.entry.toNat
    let n := h.issue.toNat
    let c := h.chunk.toNat
    let code := s.roleOf port.val
    let up := (s.treeOf p).1
    let ch := x.chunk c
    s.isOpen = true → s.plan e = some p → s.issueOf e n = some x → (∀ y ∈ s.coll.issues, y.entry = e → y.num = n → y = x) →
    s.mem.poison = [] → s.mem.symErr = [] →
    (s.coll.waiting = [] → (∀ r ∈ s.coll.slots, r.2.port ≠ port.val) →
      let q : Creq := ⟨port.val, e, p.stream, h.epoch.toNat, n, c⟩
      (s.freeReserved p.stream = none → s.freeShared = none → ∃ t, exec (.creq port h) s = .next t ∧ t.coll.waiting = [q] ∧
        t.obj Obj.SLOT_WAITS = counted Obj.SLOT_WAITS 32 (s.obj Obj.SLOT_WAITS + 1) ∧ t.torus = s.torus ∧ SameBase s t) ∧
      (∀ i, x.started p = true → p.stream < 32 → s.freeReserved p.stream = some i → ∃ t, exec (.creq port h) s = .next t ∧
        t.coll.waiting = [] ∧ t.coll.slot i = ⟨e, p.stream, if up = code then 3 else 1, n, c, h.epoch.toNat, port.val⟩ ∧
        Queued s t p code T_CGNT (chunkHdr p h.epoch.toNat n c) [] [] ∧ t.objs = s.objs ∧ SameBase s t)) ∧
    (∀ (q : Creq) (i : Nat) (r : PlanEntry), s.nextGrant = some (q, i) → s.plan q.entry = some r → ∃ t, exec .slotGrant s = .next t ∧
      t.coll.waiting = s.coll.waiting.erase q ∧
      t.coll.slot i = ⟨q.entry, q.stream, if (s.treeOf r).1 = s.roleOf q.port then 3 else 1, q.issue, q.chunk, q.epoch, q.port⟩ ∧
      Queued s t r (s.roleOf q.port) T_CGNT (chunkHdr r q.epoch q.issue q.chunk) [] [] ∧ t.objs = s.objs ∧ SameBase s t) ∧
    (∀ ready v u, s.hopOf p x c code = some (1, ready) → s.sendVal p x c code = some (v, u) → ∃ t x', exec (.cgnt port h) s = .next t ∧
      t.issueOf e n = some x' ∧ hopAt s p (x'.chunk c) code = 2 ∧ t.mem = s.mem ∧
      t.obj Obj.CHUNKS_OUT = counted Obj.CHUNKS_OUT 64 (s.obj Obj.CHUNKS_OUT + 1) ∧
      Queued s t p code T_CHUNK (valHdr p x.epoch x.num c v false (code == up && ch.redo)) v.bytes v.marks) ∧
    (∀ ready v u, s.hopOf p x c code = some (2, ready) → s.sendVal p x c code = some (v, u) → ∃ t x', exec (.cnak port h) s = .next t ∧
      t.issueOf e n = some x' ∧ hopAt s p (x'.chunk c) code = 2 ∧ t.mem = s.mem ∧
      Queued s t p code T_CHUNK (valHdr p x.epoch x.num c v true (code == up && ch.redo)) v.bytes v.marks) ∧
    (∀ (i : Nat) (data : List Byte) (marks : List Nat), s.slotOf e n c (fun r => r.port == port.val && (r.role == 1 || r.role == 3)) = some i →
      code ≠ up → Sparse.get (fun _ => none) ch.ops code = none →
      (resOf data = h.res.toNat → p.elemsIn c * fmtWidth h.form.toNat ≤ data.length → h.epoch.toNat = x.epoch →
        ∃ t x', exec (.chunk port h data marks) s = .next t ∧ t.issueOf e n = some x' ∧
          Sparse.get (fun _ => none) (x'.chunk c).ops code = some ⟨h.form.toNat, elemsOf (fmtWidth h.form.toNat) (p.elemsIn c) data,
            badOf h.form.toNat (p.elemsIn c) marks, bit h.flags.toNat 0, h.poisonChip.toNat, h.aflags.toNat⟩ ∧
          t.obj Obj.CHUNKS_IN = counted Obj.CHUNKS_IN 64 (s.obj Obj.CHUNKS_IN + 1) ∧
          Queued s t p code T_CACK (chunkHdr p x.epoch x.num c) [] [] ∧ SameObjs s t [Obj.CHUNKS_IN] ∧ SameBase s t) ∧
      (resOf data ≠ h.res.toNat → Sparse.get (fun _ => 0) ch.fails code + 1 < s.obj Obj.RESEND_LIMIT →
        ∃ t x', exec (.chunk port h data marks) s = .next t ∧ t.issueOf e n = some x' ∧
          Sparse.get (fun _ => none) (x'.chunk c).ops code = none ∧ t.obj Obj.RES_FAIL = counted Obj.RES_FAIL 32 (s.obj Obj.RES_FAIL + 1) ∧
          Queued s t p code T_CNAK (chunkHdr p x.epoch n c) [] [] ∧ SameObjs s t [Obj.RES_FAIL] ∧ SameBase s t)) ∧
    (∀ ready, s.hopOf p x c code = some (2, ready) → ∃ t x', exec (.cack port h) s = .next t ∧ t.issueOf e n = some x' ∧
      hopAt s p (x'.chunk c) code = 3 ∧ t.objs = s.objs ∧ SameBase s t)

/-- FOLDING. OPERAND_ADD adds the next operand of a chunk to the sum in the order of R243; a fault corrected is counted, an uncorrected
one poisons the chunk; the last operand completes the fold, at the root as the result. A late check at a fused root begins a
retraction; RETRACT and RESOLVE hold and release the verdict; CRED begins the chunk anew. A completed tag leaves its cores. -/
def Obligations.Folding : Prop :=
  ∀ (s : State) (entry : BitVec 16) (issue chunk : BitVec 32) (p : PlanEntry) (x : Issue),
    let e := entry.toNat
    let n := issue.toNat
    let c := chunk.toNat
    let ch := x.chunk c
    let ops := s.operands p c
    s.plan e = some p → s.issueOf e n = some x → (∀ y ∈ s.coll.issues, y.entry = e → y.num = n → y = x) →
    s.mem.poison = [] → s.mem.symErr = [] →
    (s.isOpen = true → x.started p = true → s.isLeaf p c = false → c < p.nChunks → s.foldTurn p e n c = true → ch.used < ops.length →
      let code := nth 0 ops ch.used
      (code = 0 → ch.acc = none → ch.used + 1 < ops.length → ∃ t x', exec (.operandAdd entry issue chunk 0) s = .next t ∧
        t.issueOf e n = some x' ∧ (x'.chunk c).acc = some (s.localVal p x c).1 ∧ (x'.chunk c).used = ch.used + 1 ∧ t.mem = s.mem) ∧
      (∀ v a, code ≠ 0 → Sparse.get (fun _ => none) ch.ops code = some v → ch.acc = some a →
        (ch.used + 1 < ops.length →
          (∃ t x', exec (.operandAdd entry issue chunk 0) s = .next t ∧ t.issueOf e n = some x' ∧ (x'.chunk c).acc = some (addVals a v) ∧
            (x'.chunk c).used = ch.used + 1 ∧ t.objs = s.objs ∧ SameBase s t) ∧
          (∃ t x', exec (.operandAdd entry issue chunk 1) s = .next t ∧ t.issueOf e n = some x' ∧ (x'.chunk c).acc = some (addVals a v) ∧
            t.obj Obj.ADD_REPEAT = counted Obj.ADD_REPEAT 32 (s.obj Obj.ADD_REPEAT + 1) ∧ SameObjs s t [Obj.ADD_REPEAT] ∧ SameBase s t) ∧
          (∃ t x' w, exec (.operandAdd entry issue chunk 2) s = .next t ∧ t.issueOf e n = some x' ∧ (x'.chunk c).acc = some w ∧
            w.poison = true ∧ w.bad = List.range (p.elemsIn c) ∧ t.poisonHere = true ∧
            t.obj Obj.UNCORRECTED = counted Obj.UNCORRECTED 32 (s.obj Obj.UNCORRECTED + 1) ∧ SameBase s t)) ∧
        (ch.used + 1 = ops.length → 1 ≤ ch.used → s.isRoot p = false → ∃ t x', exec (.operandAdd entry issue chunk 0) s = .next t ∧
          t.issueOf e n = some x' ∧ (x'.chunk c).acc = some ((addVals a v).convert p.pfmt) ∧ (x'.chunk c).used = ops.length ∧
          t.objs = s.objs ∧ SameBase s t) ∧
        (ch.used + 1 = ops.length → s.isRoot p = true → ch.kept = none → ∃ t x', exec (.operandAdd entry issue chunk 0) s = .next t ∧
          t.issueOf e n = some x' ∧ (x'.chunk c).val = some ((addVals a v).convert p.ofmt) ∧ (x'.chunk c).done = true ∧
          t.obj Obj.ARITH_FLAGS = s.obj Obj.ARITH_FLAGS ||| ((addVals a v).convert p.ofmt).afl % 16))) ∧
    (∀ i, s.isOpen = true → s.slotOf e n c (fun r => r.role == 2) = some i → p.fuse = true → p.kind = 2 → s.isRoot p = true → ch.done = true →
      ch.kept = none → ∃ t x', exec (.fusedCheckFail entry issue chunk) s = .next t ∧ t.issueOf e n = some x' ∧ (x'.chunk c).redo = true ∧
        (x'.chunk c).kept = ch.val ∧ (x'.chunk c).done = false ∧ (t.coll.slot i).role = 4 ∧ t.mem = s.mem ∧
        t.obj Obj.RETRACTS = counted Obj.RETRACTS 32 (s.obj Obj.RETRACTS + 1) ∧
        (s.chipOfIndex (s.obj Obj.NORM_ANCHOR) = s.chip → t.coll.withheld = true ∧ (s.chip, e, n, c) ∈ t.coll.retracts)) ∧
    (∀ (src : ChipId) (h : CollHdr), s.isOpen = true → h.entry = entry → h.issue = issue → h.chunk = chunk →
      (s.obj Obj.NORM_ANCHOR = s.deviceIndex → ∃ t, exec (.retract src h) s = .next t ∧ t.coll.withheld = true ∧
        (src.toNat, e, n, c) ∈ t.coll.retracts ∧ SameObjs s t [Obj.RETRACT_HOLDS] ∧ SameBase s t) ∧
      (∃ t, exec (.resolve src h) s = .next t ∧ t = { s with coll := { s.coll with retracts := s.coll.retracts.erase (src.toNat, e, n, c) } }) ∧
      (∀ port : PortId, s.roleOf port.val = (s.treeOf p).1 → ops ≠ [] → ∃ t x', exec (.cred port h) s = .next t ∧ t.issueOf e n = some x' ∧
        x'.done = false ∧ (x'.chunk c).redo = true ∧ (x'.chunk c).acc = none ∧ (x'.chunk c).used = 0 ∧ t.objs = s.objs ∧ SameBase s t)) ∧
    (x.done = false → s.rolesDone p x = true → ∃ t x', exec (.collectiveTagComplete entry issue) s = .next t ∧ t.issueOf e n = some x' ∧
      x'.done = true ∧ x'.tags = [] ∧ (∀ q ∈ x.tags, q.2 ∉ ((t.core q.1).job).collTags) ∧
      Sparse.get (fun _ => 0) t.coll.streamDone p.stream = Sparse.get (fun _ => 0) s.coll.streamDone p.stream + 1)

/-- STEP_VERDICT. The norm leaf carries a device's share of the norm; the norm-anchor device forms the verdict from the sum; the verdict
is checked, and skips the step or begins its commit; a Blocking Unit forms a shadow; a layer's blocks flip together when no pin, no
snapshot and no lack of ring space holds them, and the last layer commits the step. -/
def Obligations.StepVerdict : Prop :=
  ∀ (s : State), s.mem.poison = [] → s.mem.symErr = [] →
    (s.leafReady = true → s.upd.journal = [] → ∃ t, exec .normLeaf s = .next t ∧ t.mem = s.mem ∧ t.upd.leaf = true ∧ t.poisonHere = false ∧
      t.coll.norm = s.normParts.1.1 :: (fmInt s.normParts.2.1).1 :: (fmInt s.upd.skews).1 :: List.replicate 61 0 ∧
      t.coll.normPoison = (s.poisonHere || decide (0 < s.normParts.2.1)) ∧ ∃ y ∈ t.coll.issues, y.entry = 0xFFFE) ∧
    (∀ v, s.coll.normSum = some v → s.obj Obj.NORM_ANCHOR = s.deviceIndex → s.coll.retracts = [] → s.upd.leaf = true →
      let r := verdictOf v.poison (nth 0 v.els 0) (nth 0 v.els 1) (nth 0 v.els 2) (s.obj Obj.CLIP) (s.obj Obj.ABS_LIMIT) (s.obj Obj.CLIP_MODE)
      ∃ t, exec .verdictForm s = .next t ∧ t.coll.normSum = none ∧ t.coll.withheld = false ∧ t.job.stopMark = false ∧
        leAt t.coll.verdict 0 8 = s.attempt % 2 ^ 64 ∧ leAt t.coll.verdict 8 8 = s.obj Obj.COMMITTED % 2 ^ 64 ∧
        leAt t.coll.verdict 16 1 = r.1 ∧ leAt t.coll.verdict 17 1 = r.2.1 ∧ leAt t.coll.verdict 24 4 = r.2.2.2.1 % 2 ^ 32 ∧
        leAt t.coll.verdict 28 4 = r.2.2.2.2 % 2 ^ 32 ∧ (∃ y ∈ t.coll.issues, y.entry = 0xFFFF) ∧ t.objs = s.objs ∧ SameBase s t) ∧
    (∀ v, s.coll.verdictIn = some v → s.upd.lost = false → s.jobRuns = true → s.committing = false → s.moving = false →
      let bs := bytesOfElems 4 v.els
      (v.poison = true ∨ v.bad ≠ [] ∨ leAt bs 8 8 ≠ s.obj Obj.COMMITTED → ∃ t, exec .verdictReceived s = .next t ∧ t.upd.lost = true ∧
        t.obj Obj.VERDICT_LOST = counted Obj.VERDICT_LOST 32 (s.obj Obj.VERDICT_LOST + 1) ∧ t.obj Obj.COMMITTED = s.obj Obj.COMMITTED ∧
        t.obj Obj.ATTEMPTS = s.obj Obj.ATTEMPTS ∧ t.mem = s.mem) ∧
      (v.poison = false → v.bad = [] → leAt bs 8 8 = s.obj Obj.COMMITTED →
        (leAt bs 16 1 = 2 → ∃ t, exec .verdictReceived s = .next t ∧ t.obj Obj.ATTEMPTS = s.obj Obj.ATTEMPTS + 1 ∧
          t.obj Obj.COMMITTED = s.obj Obj.COMMITTED ∧ t.obj Obj.SKIPPED = counted Obj.SKIPPED 64 (s.obj Obj.SKIPPED + 1) ∧
          t.upd.shadows = [] ∧ t.upd.verdict = none ∧ t.dom Obj.LAST_VERDICT = bs.take 64 ∧ t.feed.replay = bit (leAt bs 18 1) 0 ∧
          SameBase s t) ∧
        (leAt bs 16 1 ≠ 2 → s.layers ≠ [] → ∃ t, exec .verdictReceived s = .next t ∧ t.obj Obj.ATTEMPTS = s.obj Obj.ATTEMPTS + 1 ∧
          t.obj Obj.COMMITTED = s.obj Obj.COMMITTED ∧ t.upd.verdict = some (leAt bs 16 1, leAt bs 24 4) ∧ t.upd.committed = [] ∧
          t.dom Obj.LAST_VERDICT = bs.take 64 ∧ t.feed.taken = 0 ∧ SameBase s t))) ∧
    (∀ (layer : Fin 524288) (l : Layer), s.layers.find? (fun k => k.layer == layer.val) = some l →
      (l.gradIssues ≤ Sparse.get (fun _ => 0) s.coll.rootDone l.gradEntry → (∀ q ∈ s.upd.shadows, q.1 ≠ layer.val) → s.upd.leaf = false →
        s.committing = false → s.jobRuns = true → (∀ k ∈ s.earlier l, ∃ q ∈ s.upd.shadows, q.1 = k.layer) →
        ∃ t, exec (.buUpdateStart layer) s = .next t ∧ (layer.val, fOne) ∈ t.upd.shadows ∧ (∀ q ∈ s.upd.shadows, q ∈ t.upd.shadows) ∧
          t.obj Obj.COMMITTED = s.obj Obj.COMMITTED ∧ t.cores = s.cores ∧ t.flash = s.flash) ∧
      (∀ scale f, s.upd.verdict = some (0, scale) → layer.val ∉ s.upd.committed → (∀ k ∈ s.earlier l, k.layer ∈ s.upd.committed) →
        (s.upd.shadows.find? (fun q => q.1 == layer.val)).map Prod.snd = some f →
        let live := s.liveRecs l
        let pinned := live.filter (fun i => 0 < Rec.pins (s.record i))
        (∀ i rest, pinned = i :: rest →
          (recField (s.record i) 0 0 0 = 0 → ∃ t, exec (.layerCommit layer) s = .next t ∧ t.upd.stalled = [i] ∧
            t.upd.committed = s.upd.committed ∧ t.obj Obj.COMMITTED = s.obj Obj.COMMITTED) ∧
          (recField (s.record i) 0 0 0 = 1 → exec (.layerCommit layer) s = .next s)) ∧
        (pinned = [] → live.any s.heldBySnap = false → s.obj Obj.STREAM_MODE ≠ 1 →
          ((∃ k ∈ s.layers, k.layer ≠ layer.val ∧ k.layer ∉ s.upd.committed) → ∃ t, exec (.layerCommit layer) s = .next t ∧
            t.upd.committed = s.upd.committed ++ [layer.val] ∧ t.obj Obj.COMMITTED = s.obj Obj.COMMITTED ∧
            t.mem = (live.foldl (fun s i => s.regenBlock l i) (live.foldl (fun s i => (s.flip i).2) s)).mem) ∧
          ((∀ k ∈ s.layers, k.layer = layer.val ∨ k.layer ∈ s.upd.committed) → ∃ t, exec (.layerCommit layer) s = .next t ∧
            t.obj Obj.COMMITTED = s.obj Obj.COMMITTED + 1 ∧ t.upd.verdict = none ∧ t.upd.shadows = [] ∧ t.upd.committed = [])))) ∧
    (∀ i : Fin 1048576, i.val ∈ s.upd.stalled → ∃ t, exec (.commitStall i) s = .next t ∧ i.val ∉ t.upd.stalled ∧ SameObjs s t [] ∧
      SameBase s t)

/-- AGREEMENT. What the devices of a slice settle with each other about a job: the checks of a received image end; START begins when every
device shows the same image and step; STOP and ABORT arrive; a re-shard's plan is agreed, goes ahead or is dropped, its moves are issued
once the old epoch has drained, and it ends with the new epoch. -/
def Obligations.Agreement : Prop :=
  ∀ (s : State) (src : ChipId),
    let refused := fun (t : State) => t.jobState = s.job.prior ∧ t.job.starts = [] ∧ t.dom Obj.REFUSAL = (hdrAt.no 0x2C 0 0).bytes ∧
      SameObjs s t [Obj.JOB_STATE] ∧ SameBase s t
    (s.jobState = JOB_CHECKING → let img := s.dom Obj.IMAGE
      let check := (s.setDom Obj.DIGEST (imgDigest img)).checkImage img
      ∃ t, exec .loadCheckDone s = .next t ∧ t.dom Obj.DIGEST = imgDigest img ∧
        (check = none → t.jobState = JOB_LOADED ∧ t.flash = s.flash ∧ t.torus.ports = s.torus.ports) ∧
        (∀ r, check = some r → t.jobState = JOB_REFUSED ∧ t.dom Obj.REFUSAL = r.bytes ∧ SameObjs s t [Obj.JOB_STATE] ∧ SameWork s t)) ∧
    (∀ (digest : List Byte) (committed : BitVec 64), digest.length = 64 → s.inSlice src.toNat = true →
      (s.jobState ≠ JOB_STARTING → ∃ t, exec (.startDigest src digest committed) s = .next t ∧
        (src.toNat, digest, committed.toNat, s.now) ∈ t.job.starts ∧ SameObjs s t [] ∧ SameBase s t) ∧
      (s.jobState = JOB_STARTING → digest ≠ s.dom Obj.DIGEST ∨ committed.toNat ≠ s.obj Obj.COMMITTED →
        ∃ t, exec (.startDigest src digest committed) s = .next t ∧ refused t) ∧
      (s.jobState = JOB_STARTING → digest = s.dom Obj.DIGEST → committed.toNat = s.obj Obj.COMMITTED →
        (∀ q ∈ s.job.starts, q.2.1 = digest ∧ q.2.2.1 = committed.toNat ∧ s.now < q.2.2.2 + 10000000000) →
        (∀ c ∈ s.others, c = src.toNat ∨ ∃ q ∈ s.job.starts, q.1 = c) → ∃ t, exec (.startDigest src digest committed) s = .next t ∧
          t.jobState = JOB_RUNNING ∧ t.job.starts = [] ∧ t.mem = s.mem ∧ t.flash = s.flash)) ∧
    (s.jobState = JOB_STARTING → ∃ t, exec .startTimeout s = .next t ∧ refused t) ∧
    (s.inSlice src.toNat = true → s.isAnchor = true → s.jobRuns = true → ∃ t, exec (.stopMessage src) s = .next t ∧ t.job.stopMark = true ∧
      t.objs = s.objs ∧ SameBase s t) ∧
    (s.inSlice src.toNat = true → s.jobState = JOB_STARTING ∨ s.jobState = JOB_RUNNING ∨ s.jobState = JOB_STOPPING → s.committing = false →
      s.moving = false → ∃ t, exec (.abortMessage src) s = .next t ∧ t.jobState = JOB_STOPPED ∧ t.obj Obj.ABORTED = 1 ∧ t.upd.shadows = [] ∧
        t.upd.journal = [] ∧ t.coll.issues = []) ∧
    (s.obj Obj.RS_STATE = 1 → s.resh.phase = 0 → s.obj Obj.COMMITTED = s.obj Obj.RS_AT → s.atBoundary = true → s.isOpen = true →
      let d := digest64 (s.dom Obj.RS_PLAN)
      (s.isAnchor = false → ∃ t, exec .reshardBoundary s = .next t ∧ t.outbox = s.outbox ++ [.mgmt s.anchorChip 0 (.cpMail (.rsDigest d))] ∧
        t.resh = { s.resh with phase := 1 } ∧ t.objs = s.objs ∧ SameWork s t) ∧
      (s.isAnchor = true → s.resh.digests = [] → (∃ c ∈ s.membersOf s.sliceDef, c ≠ s.chip) → ∃ t, exec .reshardBoundary s = .next t ∧
        t.resh = { s.resh with phase := 1, digests := [(s.chip, d)] } ∧ t.outbox = s.outbox ∧ t.objs = s.objs ∧ SameWork s t)) ∧
    (src.toNat = s.anchorChip → s.obj Obj.RS_STATE = 1 → s.resh.phase = 1 → ∃ t, exec (.reshardGo src) s = .next t ∧
      t.obj Obj.RS_STATE = 2 ∧ t.resh.phase = 3 ∧ t.coll.advance = some s.rsPlan.epoch ∧ SameObjs s t [Obj.RS_STATE] ∧ SameWork s t) ∧
    (src.toNat = s.anchorChip → s.obj Obj.RS_STATE = 1 → ∃ t, exec (.reshardNogo src) s = .next t ∧ t.obj Obj.RS_STATE = 5 ∧
      t.resh = ReshSt.reset ∧ SameObjs s t [Obj.RS_STATE] ∧ SameWork s t) ∧
    (s.isAnchor = true → s.obj Obj.RS_STATE = 1 → s.resh.phase = 1 → ∃ t, exec .reshardDigestTimeout s = .next t ∧
      t.obj Obj.RS_STATE = 5 ∧ (∀ c ∈ s.others, .mgmt c 0 (.cpMail .rsNogo) ∈ t.outbox) ∧ SameObjs s t [Obj.RS_STATE] ∧ SameWork s t) ∧
    (∀ ep, s.coll.advance = some ep → s.drained = true → s.resh.phase = 3 → ∃ t, exec .epochAdvance s = .next t ∧
      t.obj Obj.RS_STATE = 3 ∧ t.resh.phase = 5 ∧ t.obj Obj.EPOCH = s.obj Obj.EPOCH ∧ SameObjs s t [Obj.RS_STATE] ∧ SameBase s t) ∧
    (s.resh.phase = 6 → s.allDone = true → ∃ t, exec .reshardMoveDone s = .next t ∧ t.obj Obj.RS_STATE = 4 ∧ t.obj Obj.EPOCH = s.rsPlan.epoch ∧
      t.resh = ReshSt.reset) ∧
    (s.resh.phase = 5 → s.movesDone = false → exec .reshardMoveDone s = .next s)

/-- MEMBERSHIP. A datagram that fails a check of R329 is counted and does nothing else. A member joins, is refused, or gives up; owner
maps and heartbeats are kept; a silent member leaves the view; a LEAVE is noted; a time probe is answered and its reply measured. -/
def Obligations.Membership : Prop :=
  ∀ (s : State) (d : Dgram), bit (s.obj Obj.FED_FLAGS) 1 = false →
    (∀ cmd : Instr, (cmd = .join d ∨ cmd = .joinAccept d ∨ cmd = .joinRefuse d ∨ cmd = .ownerMap d ∨ cmd = .heartbeat d ∨ cmd = .leave d ∨
        cmd = .delta d ∨ cmd = .parity d ∨ cmd = .sack d ∨ cmd = .deltaReq d ∨ cmd = .deltaGone d ∨ cmd = .contribDone d ∨
        cmd = .roundClose d ∨ cmd = .chainReq d ∨ cmd = .forkClose d ∨ cmd = .stateReq d ∨ cmd = .stateFrag d ∨ cmd = .timeProbe d ∨
        cmd = .timeReply d ∨ cmd = .feedReply d ∨ cmd = .streamAck d ∨ cmd = .streamResume d ∨ cmd = .snapDone d) → s.up = true →
      let h := FxpHdr.of d.bytes
      let form := 40 ≤ d.bytes.length ∧ h.length = (d.bytes.drop 40).length ∧ h.magic = 0x4658 ∧ h.version = 1
      let crc := h.crc = fxpCrc (d.bytes.take 36) (d.bytes.drop 40)
      let dropped := fun (k : Nat) => ∃ t, exec cmd s = .next t ∧ t.obj k = counted k 32 (s.obj k + 1) ∧ (∀ j, j ≠ k → t.obj j = s.obj j) ∧
        t = { s with eth := t.eth, objs := t.objs }
      (¬ form → dropped Obj.FOREIGN_DROPPED) ∧ (form → ¬ crc → dropped Obj.CRC_FAIL) ∧
      (form → crc → s.fedOk h = false ∨ s.dstOk h = false ∨ h.ty ∉ fxpTypes → dropped Obj.FOREIGN_DROPPED)) ∧
    (∀ ty h b t, Takes s d ty h b t → ty ≠ 0x60 → SameObjs s t [] ∧ SameWork s t ∧ t.fed = s.fed ∧ t.fxp = s.fxp) ∧
    (s.up = true → s.isAnchor = true → s.obj Obj.FED_STATE = 1 →
      (∃ t, exec .joinResend s = .next t ∧ t.outbox.length = s.outbox.length + s.seeds.length ∧ t.fxp.incarn = s.newIncarn ∧
        t.objs = s.objs ∧ t.fed = s.fed ∧ SameWork s t) ∧
      (∃ t, exec .joinTimeout s = .next t ∧ t.obj Obj.FED_STATE = 0 ∧ t.obj Obj.JOIN_REASON = 5 ∧ t.fed = FedSt.reset ∧ SameWork s t)) ∧
    (∀ h b t, Takes s d 0x01 h b t → t.speaks = true → h.srcMember < 64 →
      let p : Peer := ⟨h.srcMember, h.srcChip, BitVec.ofNat 128 (beAt b 28 16), beAt b 26 2, none⟩
      (∀ r, t.refuseReason h b = some r → ∃ v, exec (.join d) s = .next v ∧ Sent t v p 0x03 0 0 (beBytes 1 r ++ zeros 3) ∧ v.fed = t.fed ∧
        v.objs = t.objs ∧ SameWork t v) ∧
      (t.refuseReason h b = none → ∃ v, exec (.join d) s = .next v ∧ h.srcMember ∈ v.fed.joins ∧ (v.member h.srcMember).peer = p ∧
        (v.member h.srcMember).weight = beAt b 20 4 ∧ SameWork t v)) ∧
    (∀ h bs t, Completes s d 0x02 h bs t → t.isAnchor = true → t.obj Obj.FED_STATE = 1 → ∃ v, exec (.joinAccept d) s = .next v ∧
      v.obj Obj.FED_STATE = 2 ∧ v.obj Obj.HEAD_ROUND = beAt bs 0 4 ∧ v.dom Obj.HEAD_DIGEST = slice bs 4 16 ∧ v.obj Obj.FLOOR_ROUND = beAt bs 20 4 ∧
      v.obj Obj.LIVE_MASK = beAt bs 24 8 ∧ v.obj Obj.DEPARTED_MASK = beAt bs 32 8 ∧ v.mem = t.mem) ∧
    (∀ h b t, Takes s d 0x03 h b t → t.isAnchor = true → t.obj Obj.FED_STATE = 1 → ∃ v, exec (.joinRefuse d) s = .next v ∧
      v.obj Obj.FED_STATE = 0 ∧ v.obj Obj.JOIN_REASON = beAt b 0 1 ∧ v.fed = FedSt.reset ∧ SameWork t v) ∧
    (∀ h bs t, Completes s d 0x04 h bs t → t.isAnchor = true → t.obj Obj.FED_STATE = 3 → h.srcMember < 64 → h.srcMember ≠ t.selfId →
      (t.member h.srcMember).peer.addr ≠ 0 → bit (t.obj Obj.DEPARTED_MASK) h.srcMember = false → ∃ v, exec (.ownerMap d) s = .next v ∧
        (v.member h.srcMember).map = mapOf bs ∧ v.mem = t.mem) ∧
    (s.up = true → s.isAnchor = true → 2 ≤ s.obj Obj.FED_STATE → ∃ t, exec .heartbeatTimer s = .next t ∧
      t.outbox.length = s.outbox.length + s.knownMembers.length ∧ t.objs = s.objs ∧ t.fed = s.fed ∧ SameWork s t) ∧
    (∀ h b t, Takes s d 0x05 h b t → t.isAnchor = true → 2 ≤ t.obj Obj.FED_STATE → t.knownMembers.contains h.srcMember = true →
      t.isLiveMember h.srcMember = true → t.fed.chain = [] → beAt b 0 4 = t.obj Obj.HEAD_ROUND → slice b 4 16 = t.dom Obj.HEAD_DIGEST →
      t.coordinates = false → ∃ v, exec (.heartbeat d) s = .next v ∧
        (v.member h.srcMember).head = some (beAt b 0 4, slice b 4 16, beAt b 20 4, beAt b 32 1) ∧ v.objs = t.objs ∧ v.outbox = t.outbox ∧
        SameWork t v) ∧
    (∀ m : Fin 64, s.up = true → s.isAnchor = true → s.isLiveMember m.val = true → m.val ≠ s.selfId → s.fed.own = none →
      coordIn (clrBit (s.obj Obj.LIVE_MASK) m.val) s.toClose ≠ some s.selfId → ∃ t, exec (.memberTimeout m) s = .next t ∧
        t.obj Obj.LIVE_MASK = clrBit (s.obj Obj.LIVE_MASK) m.val ∧ SameObjs s t [Obj.LIVE_MASK] ∧ SameWork s t) ∧
    (∀ h b t, Takes s d 0x06 h b t → t.isAnchor = true → t.knownMembers.contains h.srcMember = true → ∃ v, exec (.leave d) s = .next v ∧
      h.srcMember ∈ v.fed.leaves ∧ v = { t with fed := { t.fed with leaves := v.fed.leaves } }) ∧
    (∀ h b t, Takes s d 0x40 h b t → b.length = 24 → ∃ v, exec (.timeProbe d) s = .next v ∧ v.objs = t.objs ∧ SameWork t v ∧
      Sent t v (stationOf d h) 0x41 0 0 (slice b 0 5 ++ beBytes 1 (t.obj Obj.TB_STATE) ++ zeros 2 ++ slice b 8 8 ++ beBytes 8 t.now ++
        beBytes 8 t.now ++ zeros 8)) ∧
    (∀ h b t, Takes s d 0x41 h b t → b.length = 40 → beAt b 4 1 ≠ 1 → t.now ≤ beAt b 8 8 + 1000000000 →
      let p := stationOf d h
      t.tb.probes.contains (p.key, beAt b 0 4, beAt b 4 1, beAt b 8 8) = true → Sparse.get (fun _ => none) t.fxp.rtt p.key = none →
      let r := diff64 t.now (beAt b 8 8) - diff64 (beAt b 24 8) (beAt b 16 8);
      ∃ v, exec (.timeReply d) s = .next v ∧ Sparse.get (fun _ => none) v.fxp.rtt p.key = some ⟨p.member, p.chip, r, Int.tdiv r 2, 0, []⟩ ∧
        v.objs = t.objs ∧ SameWork t v)

/-- ROUNDS. A contribution is formed from every federation block and kept; fragments, parities and acknowledgements move it; a round is
closed by its coordinator, by another member when the coordinator stays silent, and its manifest is chained and merged; what a
manifest names and is lacking is asked for; forks are measured and closed; state is handed over. -/
def Obligations.Rounds : Prop :=
  ∀ (s : State) (d : Dgram), bit (s.obj Obj.FED_FLAGS) 1 = false →
    (s.jobRuns = true → s.obj Obj.FED_STATE = 3 → s.fed.inRound = false → s.fed.mark + s.obj Obj.H_NOW ≤ s.obj Obj.COMMITTED →
      s.committing = false → s.upd.shadows = [] → s.fed.accepted = [] → ∃ t, exec .contribution s = .next t ∧ t.fed.inRound = true ∧
        t.fed.own = some (s.obj Obj.HEAD_ROUND + 1) ∧ t.obj Obj.COMMITTED = s.obj Obj.COMMITTED ∧
        (∀ i ∈ s.fedRecs, ∃ q ∈ t.fed.keeps, q.origin = s.obj Obj.HEAD_ROUND + 1 ∧ q.idx = i)) ∧
    (∀ h b t, Takes s d 0x10 h b t → 2 ≤ t.obj Obj.FED_STATE →
      (t.rxOf h.srcMember h.srcChip h.xfer = none → t.reserve h.srcMember h.round (t.sharedRecs h.srcMember h.srcChip) = none →
        ∃ v, exec (.delta d) s = .next v ∧ v.fed = t.fed ∧ v.objs = t.objs ∧ SameWork t v ∧
          Sent t v (stationOf d h) 0x12 0 h.round (RxXfer.sack ⟨stationOf d h, h.srcMember, h.srcChip, h.xfer, h.ty, h.round, h.flags, h.frags,
            [], [], [], false, false⟩ true)) ∧
      (∀ x u bs r i q, t.rxOf h.srcMember h.srcChip h.xfer = some x → t.rxData (stationOf d h) h (d.bytes.drop 40) b = (some bs, u) →
        blockRecs bs.length bs = [r] → u.recOfBlock (beAt r 0 5) = some i → u.mem.poison = [] → u.mem.symErr = [] →
        u.fed.pool.find? (fun y => y.member == h.srcMember && y.origin == h.round && y.idx == i) = some q → ∃ v, exec (.delta d) s = .next v ∧
          (∀ k, k < min r.length u.exchC → v.mem.byte (u.poolAt q.panel q.slot + k) = nth 0 r k) ∧
          { q with len := min r.length u.exchC } ∈ v.fed.pool)) ∧
    (∀ h b t x, Takes s d 0x11 h b t → t.rxOf h.srcMember h.srcChip h.xfer = some x → x.done = false →
      let y := { x with parity := Sparse.put x.parity h.frag b }
      (y.rebuild h.frag (t.obj Obj.FRAG_PAYLOAD) = none → ∃ v, exec (.parity d) s = .next v ∧ v.rxOf h.srcMember h.srcChip h.xfer = some y ∧
        v.objs = t.objs ∧ SameWork t v) ∧
      (∀ f raw, y.rebuild h.frag (t.obj Obj.FRAG_PAYLOAD) = some (f, raw) → t.protect x.ty = none → (∃ g, g < x.frags ∧ g ≠ f ∧ x.has g = false) →
        ∃ v z, exec (.parity d) s = .next v ∧ v.rxOf h.srcMember h.srcChip h.xfer = some z ∧ z.has f = true ∧
          v.obj Obj.PARITY_RECOVERED = counted Obj.PARITY_RECOVERED 32 (t.obj Obj.PARITY_RECOVERED + 1) ∧ SameWork t v)) ∧
    (∀ h b t x, Takes s d 0x12 h b t → (t.member h.srcMember).peer.chip ≠ 0xFFFF → t.fed.own = none →
      t.txOf (stationOf d h).key (beAt b 0 4) = some x → x.frags.length ≤ beAt b 4 4 → ∃ v, exec (.sack d) s = .next v ∧
        (∀ y ∈ v.fxp.tx, y.num ≠ x.num ∨ y.peer ≠ x.peer) ∧ v.fed = t.fed ∧ SameWork t v) ∧
    (∀ (m : Byte) (chip : BitVec 16) (num : BitVec 32) (x : RxXfer), s.up = true → s.rxOf m.toNat chip.toNat num.toNat = some x → x.fresh = true →
      ∃ t, exec (.sackTimer m chip num) s = .next t ∧ t.rxOf m.toNat chip.toNat num.toNat = some { x with fresh := false } ∧
        Sent s t x.peer 0x12 0 x.round (x.sack false) ∧ t.objs = s.objs ∧ SameWork s t) ∧
    (∀ (m : Byte) (chip : BitVec 16) (a : BitVec 128) (port : BitVec 16) (num frag : BitVec 32) (x : TxXfer), s.up = true →
      let p : Peer := ⟨m.toNat, chip.toNat, a, port.toNat, none⟩
      s.txOf p.key num.toNat = some x → x.out.contains (2 * frag.toNat) = true → s.protect x.ty = none → x.ty ≠ 0x68 →
      Sparse.get (fun _ => 0) x.resends frag.toNat < 64 → ∃ t, exec (.rtoExpiry m chip a port num frag) s = .next t ∧
        t.outbox.length = s.outbox.length + 1 ∧ t.obj Obj.FRAGS_RESENT = counted Obj.FRAGS_RESENT 32 (s.obj Obj.FRAGS_RESENT + 1) ∧
        SameObjs s t [Obj.FRAGS_SENT, Obj.FRAGS_RESENT] ∧ t.fed = s.fed ∧ SameWork s t) ∧
    (∀ h b t, Takes s d 0x13 h b t → 2 ≤ t.obj Obj.FED_STATE → t.mem.poison = [] → t.mem.symErr = [] →
      let rs := t.recsInRun (beAt b 0 5) (beAt b 8 4)
      ((∃ i ∈ rs, ∀ q ∈ t.fed.keeps, q.origin ≠ h.round ∨ q.idx ≠ i) → ∃ v, exec (.deltaReq d) s = .next v ∧
        Sent t v (stationOf d h) 0x14 0 h.round b ∧ v.fed = t.fed ∧ v.objs = t.objs ∧ SameWork t v) ∧
      (∀ i q, rs = [i] → t.fed.keeps.find? (fun y => y.origin == h.round && y.idx == i) = some q → ∃ v, exec (.deltaReq d) s = .next v ∧
        (∃ y ∈ v.fxp.tx, y.ty = 0x10 ∧ y.peer = stationOf d h ∧ y.round = h.round ∧ y.total = q.len) ∧
        v.obj Obj.BYTES_SENT = counted Obj.BYTES_SENT 64 (t.obj Obj.BYTES_SENT + q.len) ∧ v.fed = t.fed ∧ SameWork t v)) ∧
    (∀ h b t, Takes s d 0x14 h b t → t.obj Obj.FED_STATE = 3 →
      (t.isAnchor = true → ∃ v, exec (.deltaGone d) s = .next v ∧ v.obj Obj.FED_STATE = 5 ∧ v.mem = t.mem) ∧
      (t.isAnchor = false → ∃ v, exec (.deltaGone d) s = .next v ∧ v.objs = t.objs ∧ SameWork t v ∧
        v.outbox = t.outbox ++ [.mgmt t.anchorChip 0 (.cpMail (.fedReport 3 (t.obj Obj.HEAD_ROUND)))])) ∧
    (∀ h b t, Takes s d 0x20 h b t → t.isAnchor = true → 2 ≤ t.obj Obj.FED_STATE → t.knownMembers.contains h.srcMember = true →
      ∃ v o, exec (.contribDone d) s = .next v ∧ (v.member h.srcMember).contrib = some o ∧ h.round ≤ o ∧ v.mem = t.mem) ∧
    (s.up = true → s.speaks = true → s.fed.closing = true → s.candidates s.toClose ≠ [] → s.topRound < s.toClose →
      (s.coordinates = true → ∃ t x, exec .roundDeadline s = .next t ∧ t.fed.chain = x :: s.fed.chain ∧ x.round = s.toClose ∧ x.ty = 0x21 ∧
        t.fed.closing = false ∧ x ∈ t.fed.queue ∧ SameWork s t) ∧
      (s.coordinates = false → s.isLiveMember s.selfId = true → ∃ t x, exec .coordTakeover s = .next t ∧ t.fed.chain = x :: s.fed.chain ∧
        x.round = s.toClose ∧ x.ty = 0x21 ∧ t.obj Obj.TAKEOVERS = counted Obj.TAKEOVERS 32 (s.obj Obj.TAKEOVERS + 1) ∧ SameWork s t)) ∧
    (∀ h bs t, Completes s d 0x21 h bs t → t.isAnchor = true → 2 ≤ t.obj Obj.FED_STATE → (∀ y ∈ t.fed.chain, y.round ≠ h.round) →
      h.round = t.topRound + 1 → t.digestOf t.topRound = some (bs.take 16) → let x := mkManifest h.round 0x21 bs
      ∃ v, exec (.roundClose d) s = .next v ∧ v.fed.chain = x :: t.fed.chain ∧ v.fed.queue = t.fed.queue ++ [x] ∧
        (∀ c ∈ t.others, .mgmt c 0 (.cpMail (.fedManifest h.round 0x21 bs)) ∈ v.outbox) ∧ v.objs = t.objs ∧ SameWork t v) ∧
    (∀ x, s.up = true → s.fed.fork = none → s.obj Obj.FED_STATE = 3 → s.fed.queue.find? (fun y => y.round == s.obj Obj.HEAD_ROUND + 1) = some x →
      s.mergeOk x = true →
      (s.lacking x ≠ [] → ∃ t, exec .manifestMerge s = .next t ∧ t.fed = s.fed ∧ t.objs = s.objs ∧ SameWork s t) ∧
      (s.lacking x = [] → s.fedRecs.any s.heldBySnap = false → ∃ t, exec .manifestMerge s = .next t ∧ t.obj Obj.HEAD_ROUND = x.round ∧
        t.dom Obj.HEAD_DIGEST = x.digest ∧ t.obj Obj.FLOOR_ROUND = x.floor ∧ t.dom Obj.LAST_MANIFEST = x.payload ∧
        t.obj Obj.ROUNDS_MERGED = counted Obj.ROUNDS_MERGED 64 (s.obj Obj.ROUNDS_MERGED + 1) ∧ t.obj Obj.COMMITTED = s.obj Obj.COMMITTED)) ∧
    (∀ h b t x, Takes s d 0x22 h b t → t.isAnchor = true → t.knownMembers.contains h.srcMember = true →
      t.fed.chain.find? (fun y => y.round == h.round) = some x → t.fxp.tx = [] → t.protect x.ty = none → ∃ v y, exec (.chainReq d) s = .next v ∧ v.fxp.tx = [y] ∧
        y.ty = x.ty ∧ y.round = x.round ∧ y.peer = t.speaker h.srcMember ∧ y.total = x.payload.length ∧ v.fed = t.fed ∧ SameWork t v) ∧
    (∀ c ds, s.up = true → s.isAnchor = true → s.obj Obj.FED_STATE = 4 → s.fed.fork = none → s.forkSides = some (c, ds) →
      coordIn (membersMask (ds.flatMap Side.members)) (1 + (ds.map (fun x => x.head c)).foldl max 0) = some s.selfId →
      s.fed.sideRecs ≠ ds.map (s.sideRec c) → ∃ t, exec .forkDecision s = .next t ∧ t.fed.sideRecs = ds.map (s.sideRec c) ∧
        t.fed.sides = [] ∧ t.obj Obj.FED_STATE = 4 ∧ t.mem = s.mem) ∧
    (∀ h bs t, Completes s d 0x23 h bs t → t.isAnchor = true → t.obj Obj.FED_STATE = 3 ∨ t.obj Obj.FED_STATE = 4 → t.fed.fork = none →
      (∀ y ∈ t.fed.chain, y.round ≠ h.round) → t.obj Obj.HEAD_ROUND < h.round → t.digestOf (beAt bs 20 4) = some (bs.take 16) →
      beAt bs 17 1 ≠ 1 → ∃ v, exec (.forkClose d) s = .next v ∧ v.fed.fork = some (mkManifest h.round 0x23 bs) ∧ v.obj Obj.FED_STATE = 4 ∧
        (∀ c ∈ t.others, .mgmt c 0 (.cpMail (.fedManifest h.round 0x23 bs)) ∈ v.outbox) ∧ v.mem = t.mem) ∧
    (∀ h b t, Takes s d 0x30 h b t → t.obj Obj.FED_STATE = 3 ∨ t.obj Obj.FED_STATE = 4 → t.mem.poison = [] → t.mem.symErr = [] →
      t.recsInRun (beAt b 0 5) (beAt b 8 4) ≠ [] → ∃ v, exec (.stateReq d) s = .next v ∧
        (∃ y ∈ v.fxp.tx, y.ty = 0x31 ∧ y.peer = stationOf d h ∧ y.round = t.obj Obj.HEAD_ROUND) ∧ v.fed = t.fed ∧ SameWork t v) ∧
    (∀ h bs t r i, Completes s d 0x31 h bs t → stateRecs bs.length bs = [r] → t.recOfBlock (beAt r 0 5) = some i →
      (t.obj Obj.FED_STATE = 2 ∨ t.obj Obj.FED_STATE = 5 → t.wholeHere = true → beAt r 5 1 % 8 = 7 → ∃ v, exec (.stateFrag d) s = .next v ∧
        ⟨i, beAt r 8 4, beAt r 12 4⟩ ∈ v.fed.fetched ∧ v.obj Obj.FED_STATE = t.obj Obj.FED_STATE) ∧
      (∀ k, t.obj Obj.FED_STATE = 4 → sideOf t.sidesNow h.srcMember = some k → beAt r 5 1 % 8 = 1 → ∃ v, exec (.stateFrag d) s = .next v ∧
        (k, i, stateArr r 0) ∈ v.fed.sides ∧ v.obj Obj.FED_STATE = 4))

/-- STREAMS. The input feed packs and publishes rows, asks for what it lacks, takes replies and asks again; the state delta stream is
sent, and its acknowledged bytes are freed; a snapshot begins at its boundary, leaves segment by segment under its key, and ends. -/
def Obligations.Streams : Prop :=
  ∀ (s : State) (d : Dgram), s.mem.poison = [] → s.mem.symErr = [] →
    (∀ (c : Fin 64) (r : ChanRec) (f : FeedStream) (im : Image), s.channel c.val = some r → s.jobRuns = true → (s.chan c.val).st = 1 →
      (s.chan c.val).filled < s.passes → s.feed.replay = false → s.feedStream r.stream = some f → s.job.image = some im →
      (∀ o ∈ im.channels, o.stream = r.stream → o.channel = c.val) →
      (∀ q, s.nextRow f r = .inr q → s.obj Obj.FEED_STATE ≠ 3 → ∃ t, exec (.feedPackRow c) s = .next t ∧ t = s.setObj Obj.FEED_STATE 2) ∧
      (∀ w, s.nextRow f r = .inl w →
        let a := r.bufAddr (s.chan c.val).filled
        let bs := s.rowBytes r (s.chan c.val).filled w.segs;
        ∃ t, exec (.feedPackRow c) s = .next t ∧ (t.chan c.val).st = 3 ∧ (t.chan c.val).pass = (s.chan c.val).filled ∧
          (t.chan c.val).filled = (s.chan c.val).filled + 1 ∧ t.run f.stream = w.run ∧ t.feed.taken = s.feed.taken + w.taken ∧
          t.obj Obj.ROWS_PUBLISHED = counted Obj.ROWS_PUBLISHED 64 (s.obj Obj.ROWS_PUBLISHED + 1) ∧
          (∀ k, k < bs.length → t.mem.byte (a + k) = nth 0 bs k) ∧ ∀ b, b < a ∨ a + bs.length ≤ b → t.mem.byte b = s.mem.byte b)) ∧
    (∀ (n : Fin 5) (f : FeedStream) (g first count k : Nat) (src : FeedSource), s.feedStream n.val = some f →
      (s.feed.reqs.filter (fun q => q.stream == n.val)).length < s.obj Obj.FETCH_AHEAD → s.nextReq f = some (g, first, count) →
      locate (s.feedSources f) g = some (src, k) →
      let p := endpointOf (s.dom (Obj.ENDPOINT + src.endpoint));
      ∃ t q, exec (.feedReq n) s = .next t ∧ t.feed.reqs = s.feed.reqs ++ [q] ∧ q.stream = n.val ∧ q.sample = g ∧ q.first = first ∧
        q.count = count ∧ q.tries = 0 ∧ SameObjs s t [Obj.FEED_STATE] ∧ SameWork s t ∧
        Sent s t p 0x50 0 0 (beBytes 4 src.id ++ beBytes 1 (if count = 0 then 1 else 0) ++ zeros 3 ++ beBytes 8 k ++ beBytes 4 first ++
          beBytes 4 count)) ∧
    (∀ h b t q f, Takes s d 0x51 h b t → t.feed.reqs.find? (fun q =>
        let p := endpointOf (t.dom (Obj.ENDPOINT + q.ep))
        q.num == h.xfer && p.addr == d.peer && p.port == d.peerPort.toNat && q.member == h.dstMember) = some q →
      b.length = 28 + 4 * q.count → t.feedStream q.stream = some f → ∃ v, exec (.feedReply d) s = .next v ∧
        v.feed.reqs = t.feed.reqs.erase q ∧ v.obj Obj.FEED_STATE = 1 ∧
        (beAt b 4 1 = 1 → v.obj Obj.MISSING = counted Obj.MISSING 32 (t.obj Obj.MISSING + 1))) ∧
    (∀ (ep : Fin 16) (num : BitVec 32) (q : FeedReq) (f : FeedStream) (src : FeedSource) (k : Nat),
      s.feed.reqs.find? (fun x => x.ep == ep.val && x.num == num.toNat) = some q → s.feedStream q.stream = some f →
      locate (s.feedSources f) q.sample = some (src, k) → ∃ t, exec (.feedTimeout ep num) s = .next t ∧
        t.obj Obj.RETRIES = counted Obj.RETRIES 32 (s.obj Obj.RETRIES + 1) ∧
        t.feed.reqs = s.feed.reqs.map (fun x => if x = q then { q with tries := q.tries + 1 } else x) ∧
        (q.tries + 1 = s.obj Obj.FEED_RETRY_LIMIT → t.obj Obj.FEED_STATE = 3) ∧ SameObjs s t [Obj.RETRIES, Obj.FEED_STATE] ∧ SameWork s t ∧
        Sent s t (endpointOf (s.dom (Obj.ENDPOINT + q.ep))) 0x50 1 0 (beBytes 4 src.id ++ beBytes 1 (if q.count = 0 then 1 else 0) ++ zeros 3 ++
          beBytes 8 k ++ beBytes 4 q.first ++ beBytes 4 q.count)) ∧
    (s.obj Obj.STREAM_MODE ≠ 0 → s.stream.sent < s.obj Obj.STREAM_OFFSET → s.obj Obj.STREAM_KEY_SLOT = 0xFF →
      let n := min segMax (s.obj Obj.STREAM_OFFSET - s.stream.sent);
      ∃ t, exec .streamSeg s = .next t ∧ t.stream = { s.stream with sent := s.stream.sent + n, reach := max s.stream.reach (s.stream.sent + n) } ∧
        (∃ y ∈ t.fxp.tx, y.ty = 0x60 ∧ y.peer = endpointOf (s.dom Obj.STREAM_EP) ∧ y.total = 8 + n) ∧ SameObjs s t [Obj.FRAGS_SENT] ∧
        SameWork s t) ∧
    (∀ h b t, Takes s d 0x61 h b t → let n := beAt b 0 8
      (t.obj Obj.STREAM_DURABLE ≤ n → n ≤ t.stream.reach → t.stream.backlog = [] → ∃ v, exec (.streamAck d) s = .next v ∧
        v = t.setObj Obj.STREAM_DURABLE n) ∧
      (n < t.obj Obj.STREAM_DURABLE ∨ t.stream.reach < n → exec (.streamAck d) s = .next t)) ∧
    (∀ h b t, Takes s d 0x62 h b t → t.obj Obj.STREAM_DURABLE ≤ beAt b 0 8 → beAt b 0 8 ≤ t.obj Obj.STREAM_OFFSET →
      ∃ v, exec (.streamResume d) s = .next v ∧ v = { t with stream := { t.stream with sent := beAt b 0 8 } }) ∧
    (s.snap.agreed = true → s.obj Obj.COMMITTED = s.obj Obj.SNAP_AT → s.atBoundary = true → s.job.image.isSome = true →
      (s.snap.ident = none → ∃ t, exec .snapshotBoundary s = .next t ∧ t.obj Obj.SNAP_STATE = 2 ∧ t.snap.held = s.ownedRecs ∧
        t.snap.ident = some (s.headRound, s.obj Obj.COMMITTED) ∧ t.snap.seg = 0 ∧ t.snap.agreed = false ∧
        SameObjs s t [Obj.SNAP_STATE] ∧ SameWork s t) ∧
      (s.snap.ident ≠ none → ∃ t, exec .snapshotBoundary s = .next t ∧ t.snap.held = s.snap.held ∧ t.snap.ident = s.snap.ident ∧
        t.obj Obj.SNAP_MISSED = counted Obj.SNAP_MISSED 32 (s.obj Obj.SNAP_MISSED + 1) ∧ SameObjs s t [Obj.SNAP_MISSED] ∧ SameWork s t)) ∧
    (∀ id content, s.snap.ident = some id → s.snap.content = some content → s.snap.seg < s.snap.segs →
      s.obj Obj.SNAP_SEG_BYTES ≤ s.snap.text.length → let slot := s.obj Obj.SNAP_KEY_SLOT;
      s.slotAllows slot 1 = true → (s.keySlot slot).counter < 2 ^ 32 → ∃ t, exec .snapSeg s = .next t ∧ t.snap.seg = s.snap.seg + 1 ∧
        t.snap.text = s.snap.text.drop (s.obj Obj.SNAP_SEG_BYTES) ∧ t.snap.offset = s.snap.offset + s.obj Obj.SNAP_SEG_BYTES ∧
        (t.keySlot slot).counter = (s.keySlot slot).counter + 1 ∧
        (∃ y ∈ t.fxp.tx, y.ty = 0x63 ∧ y.peer = endpointOf (s.dom Obj.SNAP_EP)) ∧
        (s.snap.seg + 1 = s.snap.segs → t.obj Obj.SNAP_STATE = 3) ∧ SameObjs s t [Obj.SNAP_STATE, Obj.FRAGS_SENT] ∧ SameWork s t) ∧
    (∀ h b t, Takes s d 0x64 h b t → t.snap.ident = some (beAt b 0 4, beAt b 4 8) →
      (beAt b 12 1 = 0 → ∃ v, exec (.snapDone d) s = .next v ∧ v.obj Obj.SNAP_STATE = 4 ∧ v.snap.held = [] ∧ v.snap.ident = none ∧
        v.obj Obj.SNAPS_DONE = counted Obj.SNAPS_DONE 32 (t.obj Obj.SNAPS_DONE + 1) ∧ SameWork t v) ∧
      (beAt b 12 1 ≠ 0 → ∃ v, exec (.snapDone d) s = .next v ∧ v.obj Obj.SNAP_STATE = 5 ∧ v.snap.held = [] ∧ v.snap.ident = none ∧ SameWork t v)) ∧
    (∀ id, s.snap.ident = some id → s.snap.segs ≤ s.snap.seg → ∃ t, exec .snapTimeout s = .next t ∧ t.obj Obj.SNAP_STATE = 5 ∧
      t.snap.held = [] ∧ t.snap.ident = none ∧ SameObjs s t [Obj.SNAP_STATE] ∧ SameWork s t)

/-- CIPHER_AND_DELIVERY. One whole message is encrypted or decrypted under a slot's key, and a wrong tag writes nothing; a wrapped key goes
into its slot; a suspended message is completed. A control processor takes, completes and masks occurrences, and sleeps. -/
def Obligations.CipherAndDelivery : Prop :=
  ∀ (s : State), s.mem.poison = [] → s.mem.symErr = [] → s.up = true →
    (∀ q : CipherReq, q.first = true → q.last = true → q.aadLen = 0 → 1 ≤ q.length.toNat →
      let n := q.length.toNat
      let x := s.keySlot q.slot.val
      let src := q.src.toNat % 2 ^ 52
      let dst := q.dst.toNat % 2 ^ 52
      let tag := q.tagAddr.toNat % 2 ^ 52
      let may := fun (write : Bool) (a k : Nat) => s.targetCheck s.chip 0x0D9 false write a k = none ∧ (write = false → clsOf a ≠ 10)
      (s.slotAllows q.slot.val q.use.val = false → ∃ t, exec (.encrypt q none) s = .next t ∧ t.cipher.answers.head? = some (2, []) ∧
        t.cipher.slots = s.cipher.slots ∧ SameObjs s t [] ∧ SameWork s t) ∧
      (s.slotAllows q.slot.val q.use.val = true →
        (x.counter < 2 ^ 32 → may false src n → may true dst n → may true tag 16 →
          let iv := s.ivPrefix ++ beBytes 4 x.counter
          let text := s.mem.read src n
          let g := Aes.gcm x.key iv [] text;
          ∃ t, exec (.encrypt q none) s = .next t ∧ t.cipher.answers.head? = some (0, iv) ∧ (t.keySlot q.slot.val).counter = x.counter + 1 ∧
            (∀ k, k < 16 → t.mem.byte (tag + k) = nth 0 g.2 k) ∧
            (∀ k, k < n → dst + k < tag ∨ tag + 16 ≤ dst + k → t.mem.byte (dst + k) = nth 0 (xorBytes text (Aes.stream x.key iv 2 n)) k) ∧
            (∀ a, a < dst ∨ dst + n ≤ a → a < tag ∨ tag + 16 ≤ a → t.mem.byte a = s.mem.byte a) ∧ SameObjs s t [] ∧ t.cores = s.cores) ∧
        (n ≤ 65536 → may false src n → may false tag 16 → may true dst n →
          let iv := beBytes 8 q.ivHi.toNat ++ beBytes 4 q.ivLo.toNat
          let plain := Aes.ungcm x.key iv [] (s.mem.read src n) (s.mem.read tag 16);
          ∃ t, exec (.decrypt q none) s = .next t ∧
            (plain = none → t.cipher.answers.head? = some (1, []) ∧ SameBytes s t ∧
              t.obj Obj.TAG_FAILS = counted Obj.TAG_FAILS 32 (s.obj Obj.TAG_FAILS + 1) ∧ SameObjs s t [Obj.TAG_FAILS]) ∧
            (∀ pt, plain = some pt → pt.length = n → t.cipher.answers.head? = some (0, []) ∧ (∀ k, k < n → t.mem.byte (dst + k) = nth 0 pt k) ∧
              (∀ a, a < dst ∨ dst + n ≤ a → t.mem.byte a = s.mem.byte a) ∧ SameObjs s t [])))) ∧
    (∀ (slot : Fin 64) (src : BitVec 64), s.targetCheck s.chip 0x0D9 false false (src.toNat % 2 ^ 52) 132 = none →
      clsOf (src.toNat % 2 ^ 52) ≠ 10 → let r := s.unwrapKey slot.val (s.mem.read (src.toNat % 2 ^ 52) 132) none
      ∃ t, exec (.unwrap slot src) s = .next t ∧ t.cipher.answers.head? = some (r.1, []) ∧ SameBytes s t ∧
        (r.1 = 0 → t.keySlot slot.val = r.2.keySlot slot.val ∧ t.flash.ivEpoch = s.flash.ivEpoch + 1) ∧
        (r.1 ≠ 0 → t.cipher.slots = s.cipher.slots ∧ t.flash = s.flash ∧
          t.obj Obj.UNWRAP_FAILS = counted Obj.UNWRAP_FAILS 32 (s.obj Obj.UNWRAP_FAILS + 1))) ∧
    (∀ x xs, s.cipher.suspended = x :: xs → x.ctx.decrypt = false → x.ctx.poisoned = false → x.last = true → 1 ≤ x.left →
      let src := x.src % 2 ^ 52
      let tag := x.tagAddr % 2 ^ 52
      s.targetCheck s.chip 0x0D9 false false src x.left = none → clsOf src ≠ 10 →
      s.targetCheck s.chip 0x0D9 false true (x.dst % 2 ^ 52) x.left = none → s.targetCheck s.chip 0x0D9 false true tag 16 = none →
      let g := Aes.gcm (s.keySlot x.ctx.slot).key x.ctx.iv x.ctx.aad (x.ctx.text ++ s.mem.read src x.left);
      ∃ t, exec .cipherResume s = .next t ∧ t.cipher.suspended = xs ∧ t.cipher.answers.head? = some (0, x.ctx.iv) ∧
        (∀ k, k < 16 → t.mem.byte (tag + k) = nth 0 g.2 k) ∧ SameObjs s t []) ∧
    (∀ c : CpId, s.cpRuns c.val = true → let p := s.ev.cp c.val
      (∀ q, s.ev.best p = some q → ∃ t, exec (.evack c) s = .next t ∧ t = { s with ev := t.ev } ∧
        (t.ev.cp c.val).ackRead = BitVec.ofNat 64 (ackValue (s.ev.prioOf q.src) q.src q.count) ∧
        (t.ev.cp c.val).active = p.active ++ [(q.src, s.ev.prioOf q.src)] ∧ (∀ y ∈ (t.ev.cp c.val).pend, y.src ≠ q.src) ∧
        (t.ev.cp c.val).evdet = q.detail ∧ (t.ev.cp c.val).delivered = p.delivered + q.count ∧
        ∀ j, j ≠ c.val → t.ev.cp j = s.ev.cp j) ∧
      (s.ev.best p = none → ∃ t, exec (.evack c) s = .next t ∧ t = { s with ev := t.ev } ∧ t.ev.cp c.val = { p with ackRead := 0 }) ∧
      (∀ v : Word64, s.ev.held = [] → ∃ t, exec (.evcpWrite c v) s = .next t ∧ t = { s with ev := t.ev } ∧
        (t.ev.cp c.val).mask = bit v.toNat 0 ∧ (t.ev.cp c.val).online = bit v.toNat 1 ∧
        (t.ev.cp c.val).floor = (if bits v.toNat 13 8 ≤ 32 then bits v.toNat 13 8 else p.floor) ∧ (t.ev.cp c.val).pend = p.pend))

/-- EVENT_COMPLETION (R427). A write of EVDONE names a source. Active at the CP, it becomes inactive and CPPRI is what R426 gives for the
sources that stay active; else the write does nothing but count one spurious completion more. Every write counts. -/
def Obligations.EventCompletion : Prop :=
  ∀ (s : State) (c : CpId) (v : Word64), s.cpRuns c.val = true →
    let n := v.toNat % 512
    let p := s.ev.cp c.val
    let stay := p.active.filter (fun y => decide (y.1 ≠ n));
    ∃ t, exec (.evdone c v) s = .next t ∧ t = { s with ev := t.ev } ∧ (∀ j, j ≠ c.val → t.ev.cp j = s.ev.cp j) ∧
      ((∃ y ∈ p.active, y.1 = n) → t.ev.cp c.val = { p with active := stay, completions := p.completions + 1 } ∧
        (stay = [] → (t.ev.cp c.val).cppri = p.floor) ∧
        (∀ y ∈ stay, y.2 + 1 ≤ (t.ev.cp c.val).cppri ∧ p.floor ≤ (t.ev.cp c.val).cppri) ∧
        ((t.ev.cp c.val).cppri = p.floor ∨ ∃ y ∈ stay, (t.ev.cp c.val).cppri = y.2 + 1)) ∧
      ((∀ y ∈ p.active, y.1 ≠ n) →
        t.ev.cp c.val = { p with completions := p.completions + 1, spurious := p.spurious + 1 })

/-- SLEEP_AND_WAKE (R428). A CP that sleeps with nothing pending stops: it reads, writes and sleeps no more. With an occurrence pending
the sleep returns at once. An occurrence raised at a CP ends its sleep whatever MASK and CPPRI are; one that is not raised there leaves
it as it was. -/
def Obligations.SleepAndWake : Prop :=
  ∀ (s : State) (c : CpId), s.up = true →
    let p := s.ev.cp c.val
    (p.sleeping = false → p.pend = [] → ∃ t, exec (.sleep c) s = .next t ∧ t = { s with ev := t.ev } ∧
      t.ev.cp c.val = { p with sleeping := true } ∧ (∀ j, j ≠ c.val → t.ev.cp j = s.ev.cp j)) ∧
    (p.sleeping = false → p.pend ≠ [] → exec (.sleep c) s = .next s) ∧
    (p.sleeping = true → exec (.evack c) s = .next s ∧ exec (.sleep c) s = .next s ∧ (∀ v, exec (.evdone c v) s = .next s) ∧
      ∀ v, exec (.evcpWrite c v) s = .next s) ∧
    (∀ (src : Nat) (detail : BitVec 64), let q := (s.raise src detail).ev.cp c.val
      (q.raised = p.raised + 1 ∧ q.sleeping = false) ∨ (q.raised = p.raised ∧ q.sleeping = p.sleeping ∧ q.pend = p.pend))
end

