-- ==== Sys2Proof/Laws/Sparse.lean ====
section
/-! SUPPORT. Sparse maps: reading after writing, and the canonical form that every operation keeps. -/

namespace Sys2Proof

variable {α : Type}

theorem Sparse.get_erase_self (d : Nat → α) (m : Sparse α) (k : Nat) : Sparse.get d (Sparse.erase m k) k = d k := by
  induction m with
  | nil => rfl
  | cons e m ih =>
    by_cases h : e.1 = k
    · simpa [Sparse.erase, h] using ih
    · simpa [Sparse.erase, Sparse.get, h] using ih

theorem Sparse.get_erase_of_ne (d : Nat → α) (m : Sparse α) {j k : Nat} (hne : j ≠ k) :
    Sparse.get d (Sparse.erase m k) j = Sparse.get d m j := by
  induction m with
  | nil => rfl
  | cons e m ih =>
    by_cases h : e.1 = k
    · have h2 : ¬ e.1 = j := fun x => hne (x.symm.trans h)
      have h3 : ¬ k = j := fun x => hne x.symm
      simp [Sparse.erase, Sparse.get, h, h3, ih]
    · simp [Sparse.erase, Sparse.get, h, ih]

theorem Sparse.get_put_self (d : Nat → α) (m : Sparse α) (k : Nat) (v : α) : Sparse.get d (Sparse.put m k v) k = v := by
  induction m with
  | nil => simp [Sparse.put, Sparse.get]
  | cons e m ih =>
    rcases e with ⟨a, w⟩
    by_cases h1 : k < a
    · simp [Sparse.put, Sparse.get, h1]
    · by_cases h2 : k = a
      · simp [Sparse.put, Sparse.get, h2]
      · simp only [Sparse.put, h1, h2, if_false, Sparse.get]
        rw [if_neg (fun x => h2 x.symm)]
        exact ih

theorem Sparse.get_put_of_ne (d : Nat → α) (m : Sparse α) {j k : Nat} (v : α) (hne : j ≠ k) :
    Sparse.get d (Sparse.put m k v) j = Sparse.get d m j := by
  induction m with
  | nil => simp [Sparse.put, Sparse.get, Ne.symm hne]
  | cons e m ih =>
    rcases e with ⟨a, w⟩
    by_cases h1 : k < a
    · simp [Sparse.put, h1, Sparse.get, Ne.symm hne]
    · by_cases h2 : k = a
      · subst h2
        simp [Sparse.put, Sparse.get, Ne.symm hne]
      · simp only [Sparse.put, h1, h2, if_false, Sparse.get, ih]

/-- Reading a key after writing it gives the value written. -/
@[simp] theorem Sparse.get_set_self [DecidableEq α] (d : Nat → α) (m : Sparse α) (k : Nat) (v : α) :
    Sparse.get d (Sparse.set d m k v) k = v := by
  unfold Sparse.set
  split
  · rename_i h; rw [Sparse.get_erase_self, h]
  · exact Sparse.get_put_self d m k v

/-- Writing a key leaves every other key's value. -/
theorem Sparse.get_set_of_ne [DecidableEq α] (d : Nat → α) (m : Sparse α) {j k : Nat} (v : α) (h : j ≠ k) :
    Sparse.get d (Sparse.set d m k v) j = Sparse.get d m j := by
  unfold Sparse.set
  split
  · exact Sparse.get_erase_of_ne d m h
  · exact Sparse.get_put_of_ne d m v h

/-- What a read gives after a write, in one line. -/
theorem Sparse.get_set [DecidableEq α] (d : Nat → α) (m : Sparse α) (j k : Nat) (v : α) :
    Sparse.get d (Sparse.set d m k v) j = if j = k then v else Sparse.get d m j := by
  by_cases h : j = k
  · simp [h]
  · simp [h, Sparse.get_set_of_ne d m v h]

/-- Writing a list of values leaves every key outside it. -/
theorem Sparse.get_setList_outside [DecidableEq α] (d : Nat → α) (m : Sparse α) (k : Nat) (vs : List α) (j : Nat)
    (h : j < k ∨ k + vs.length ≤ j) : Sparse.get d (Sparse.setList d m k vs) j = Sparse.get d m j := by
  induction vs generalizing m k with
  | nil => rfl
  | cons v vs ih =>
    simp only [List.length_cons] at h
    rw [Sparse.setList, ih _ _ (by omega), Sparse.get_set_of_ne d m v (by omega)]

/-! ### The canonical form -/

theorem Sparse.rising_mono {lo lo' : Nat} (m : Sparse α) (h : lo' ≤ lo) (hr : Sparse.rising lo m = true) :
    Sparse.rising lo' m = true := by
  cases m with
  | nil => rfl
  | cons e m =>
    simp only [Sparse.rising, Bool.and_eq_true, decide_eq_true_eq] at *
    exact ⟨by omega, hr.2⟩

theorem Sparse.rising_erase (m : Sparse α) (lo k : Nat) (h : Sparse.rising lo m = true) :
    Sparse.rising lo (Sparse.erase m k) = true := by
  induction m generalizing lo with
  | nil => rfl
  | cons e m ih =>
    simp only [Sparse.rising, Bool.and_eq_true, decide_eq_true_eq] at h
    unfold Sparse.erase
    split
    · exact Sparse.rising_mono _ (by omega) (ih _ h.2)
    · simp only [Sparse.rising, Bool.and_eq_true, decide_eq_true_eq]
      exact ⟨h.1, ih _ h.2⟩

theorem Sparse.rising_put (m : Sparse α) (lo k : Nat) (v : α) (hk : lo ≤ k) (h : Sparse.rising lo m = true) :
    Sparse.rising lo (Sparse.put m k v) = true := by
  induction m generalizing lo with
  | nil => simp [Sparse.put, Sparse.rising, hk]
  | cons e m ih =>
    rcases e with ⟨a, w⟩
    simp only [Sparse.rising, Bool.and_eq_true, decide_eq_true_eq] at h
    unfold Sparse.put
    split
    · simp only [Sparse.rising, Bool.and_eq_true, decide_eq_true_eq]
      exact ⟨hk, by omega, h.2⟩
    · split
      · rename_i h2; subst h2
        simp only [Sparse.rising, Bool.and_eq_true, decide_eq_true_eq]
        exact ⟨hk, h.2⟩
      · simp only [Sparse.rising, Bool.and_eq_true, decide_eq_true_eq]
        exact ⟨h.1, ih _ (by omega) h.2⟩

theorem Sparse.mem_erase {m : Sparse α} {k : Nat} {e : Nat × α} (h : e ∈ Sparse.erase m k) : e ∈ m := by
  induction m with
  | nil => exact h
  | cons x m ih =>
    unfold Sparse.erase at h
    split at h
    · exact List.mem_cons_of_mem _ (ih h)
    · rcases List.mem_cons.mp h with rfl | h
      · exact List.mem_cons_self
      · exact List.mem_cons_of_mem _ (ih h)

theorem Sparse.mem_put {m : Sparse α} {k : Nat} {v : α} {e : Nat × α} (h : e ∈ Sparse.put m k v) : e = (k, v) ∨ e ∈ m := by
  induction m with
  | nil => exact .inl (List.mem_singleton.mp h)
  | cons x m ih =>
    unfold Sparse.put at h
    split at h
    · rcases List.mem_cons.mp h with rfl | h
      · exact .inl rfl
      · exact .inr h
    · split at h
      · rcases List.mem_cons.mp h with rfl | h
        · exact .inl rfl
        · exact .inr (List.mem_cons_of_mem _ h)
      · rcases List.mem_cons.mp h with rfl | h
        · exact .inr List.mem_cons_self
        · rcases ih h with h | h
          · exact .inl h
          · exact .inr (List.mem_cons_of_mem _ h)

theorem Sparse.wf_nil [DecidableEq α] (d : Nat → α) : Sparse.wf d ([] : Sparse α) = true := rfl

/-- Writing keeps the canonical form. -/
theorem Sparse.wf_set [DecidableEq α] (d : Nat → α) (m : Sparse α) (k : Nat) (v : α) (h : Sparse.wf d m = true) :
    Sparse.wf d (Sparse.set d m k v) = true := by
  simp only [Sparse.wf, Bool.and_eq_true, List.all_eq_true, decide_eq_true_eq] at *
  unfold Sparse.set
  split
  · exact ⟨Sparse.rising_erase _ _ _ h.1, fun e he => h.2 e (Sparse.mem_erase he)⟩
  · rename_i hv
    refine ⟨Sparse.rising_put _ _ _ _ (by omega) h.1, fun e he => ?_⟩
    rcases Sparse.mem_put he with rfl | he
    · exact hv
    · exact h.2 e he

theorem Sparse.wf_setList [DecidableEq α] (d : Nat → α) (m : Sparse α) (k : Nat) (vs : List α) (h : Sparse.wf d m = true) :
    Sparse.wf d (Sparse.setList d m k vs) = true := by
  induction vs generalizing m k with
  | nil => exact h
  | cons v vs ih => exact ih _ _ (Sparse.wf_set d m k v h)

theorem Sparse.rising_filter (m : Sparse α) (lo : Nat) (p : Nat × α → Bool) (h : Sparse.rising lo m = true) :
    Sparse.rising lo (m.filter p) = true := by
  induction m generalizing lo with
  | nil => rfl
  | cons e m ih =>
    simp only [Sparse.rising, Bool.and_eq_true, decide_eq_true_eq] at h
    unfold List.filter
    split
    · simp only [Sparse.rising, Bool.and_eq_true, decide_eq_true_eq]
      exact ⟨h.1, ih _ h.2⟩
    · exact Sparse.rising_mono _ (by omega) (ih _ h.2)

/-- Dropping keys keeps the canonical form. -/
theorem Sparse.wf_drop [DecidableEq α] (d : Nat → α) (m : Sparse α) (p : Nat → Bool) (h : Sparse.wf d m = true) :
    Sparse.wf d (Sparse.drop p m) = true := by
  simp only [Sparse.wf, Bool.and_eq_true, List.all_eq_true, decide_eq_true_eq] at *
  exact ⟨Sparse.rising_filter _ _ _ h.1, fun e he => h.2 e (List.mem_filter.mp he).1⟩

end Sys2Proof
end

