-- ==== Sys2Proof/Laws/State.lean ====
section
/-! SUPPORT. What each update of State leaves as it was, field by field, and what reads give after writes. -/

namespace Sys2Proof.Machine


/-! ### setObj -/

@[simp] theorem State.setObj_pending (s : State) (k v : Nat) : (s.setObj k v).pending = s.pending := rfl
@[simp] theorem State.setObj_freeCtr (s : State) (k v : Nat) : (s.setObj k v).freeCtr = s.freeCtr := rfl
@[simp] theorem State.setObj_outbox (s : State) (k v : Nat) : (s.setObj k v).outbox = s.outbox := rfl
@[simp] theorem State.setObj_doms (s : State) (k v : Nat) : (s.setObj k v).doms = s.doms := rfl
@[simp] theorem State.setObj_pwr (s : State) (k v : Nat) : (s.setObj k v).pwr = s.pwr := rfl
@[simp] theorem State.setObj_tb (s : State) (k v : Nat) : (s.setObj k v).tb = s.tb := rfl
@[simp] theorem State.setObj_eth (s : State) (k v : Nat) : (s.setObj k v).eth = s.eth := rfl
@[simp] theorem State.setObj_board (s : State) (k v : Nat) : (s.setObj k v).board = s.board := rfl
@[simp] theorem State.setObj_boot (s : State) (k v : Nat) : (s.setObj k v).boot = s.boot := rfl
@[simp] theorem State.setObj_gauge (s : State) (k v : Nat) : (s.setObj k v).gauge = s.gauge := rfl
@[simp] theorem State.setObj_flash (s : State) (k v : Nat) : (s.setObj k v).flash = s.flash := rfl
@[simp] theorem State.setObj_service (s : State) (k v : Nat) : (s.setObj k v).service = s.service := rfl
@[simp] theorem State.setObj_ev (s : State) (k v : Nat) : (s.setObj k v).ev = s.ev := rfl
@[simp] theorem State.setObj_dap (s : State) (k v : Nat) : (s.setObj k v).dap = s.dap := rfl
@[simp] theorem State.setObj_cores (s : State) (k v : Nat) : (s.setObj k v).cores = s.cores := rfl
@[simp] theorem State.setObj_mem (s : State) (k v : Nat) : (s.setObj k v).mem = s.mem := rfl
@[simp] theorem State.setObj_dma (s : State) (k v : Nat) : (s.setObj k v).dma = s.dma := rfl
@[simp] theorem State.setObj_poisonHere (s : State) (k v : Nat) : (s.setObj k v).poisonHere = s.poisonHere := rfl
@[simp] theorem State.setObj_torus (s : State) (k v : Nat) : (s.setObj k v).torus = s.torus := rfl
@[simp] theorem State.setObj_job (s : State) (k v : Nat) : (s.setObj k v).job = s.job := rfl
@[simp] theorem State.setObj_coll (s : State) (k v : Nat) : (s.setObj k v).coll = s.coll := rfl
@[simp] theorem State.setObj_upd (s : State) (k v : Nat) : (s.setObj k v).upd = s.upd := rfl
@[simp] theorem State.setObj_feed (s : State) (k v : Nat) : (s.setObj k v).feed = s.feed := rfl
@[simp] theorem State.setObj_resh (s : State) (k v : Nat) : (s.setObj k v).resh = s.resh := rfl
@[simp] theorem State.setObj_fxp (s : State) (k v : Nat) : (s.setObj k v).fxp = s.fxp := rfl
@[simp] theorem State.setObj_fed (s : State) (k v : Nat) : (s.setObj k v).fed = s.fed := rfl
@[simp] theorem State.setObj_cipher (s : State) (k v : Nat) : (s.setObj k v).cipher = s.cipher := rfl
@[simp] theorem State.setObj_ten (s : State) (k v : Nat) : (s.setObj k v).ten = s.ten := rfl
@[simp] theorem State.setObj_stream (s : State) (k v : Nat) : (s.setObj k v).stream = s.stream := rfl
@[simp] theorem State.setObj_snap (s : State) (k v : Nat) : (s.setObj k v).snap = s.snap := rfl

/-! ### bump -/

@[simp] theorem State.bump_pending (s : State) (k n w : Nat) : (s.bump k n w).pending = s.pending := rfl
@[simp] theorem State.bump_freeCtr (s : State) (k n w : Nat) : (s.bump k n w).freeCtr = s.freeCtr := rfl
@[simp] theorem State.bump_outbox (s : State) (k n w : Nat) : (s.bump k n w).outbox = s.outbox := rfl
@[simp] theorem State.bump_doms (s : State) (k n w : Nat) : (s.bump k n w).doms = s.doms := rfl
@[simp] theorem State.bump_pwr (s : State) (k n w : Nat) : (s.bump k n w).pwr = s.pwr := rfl
@[simp] theorem State.bump_tb (s : State) (k n w : Nat) : (s.bump k n w).tb = s.tb := rfl
@[simp] theorem State.bump_eth (s : State) (k n w : Nat) : (s.bump k n w).eth = s.eth := rfl
@[simp] theorem State.bump_board (s : State) (k n w : Nat) : (s.bump k n w).board = s.board := rfl
@[simp] theorem State.bump_boot (s : State) (k n w : Nat) : (s.bump k n w).boot = s.boot := rfl
@[simp] theorem State.bump_gauge (s : State) (k n w : Nat) : (s.bump k n w).gauge = s.gauge := rfl
@[simp] theorem State.bump_flash (s : State) (k n w : Nat) : (s.bump k n w).flash = s.flash := rfl
@[simp] theorem State.bump_service (s : State) (k n w : Nat) : (s.bump k n w).service = s.service := rfl
@[simp] theorem State.bump_ev (s : State) (k n w : Nat) : (s.bump k n w).ev = s.ev := rfl
@[simp] theorem State.bump_dap (s : State) (k n w : Nat) : (s.bump k n w).dap = s.dap := rfl
@[simp] theorem State.bump_cores (s : State) (k n w : Nat) : (s.bump k n w).cores = s.cores := rfl
@[simp] theorem State.bump_mem (s : State) (k n w : Nat) : (s.bump k n w).mem = s.mem := rfl
@[simp] theorem State.bump_dma (s : State) (k n w : Nat) : (s.bump k n w).dma = s.dma := rfl
@[simp] theorem State.bump_poisonHere (s : State) (k n w : Nat) : (s.bump k n w).poisonHere = s.poisonHere := rfl
@[simp] theorem State.bump_torus (s : State) (k n w : Nat) : (s.bump k n w).torus = s.torus := rfl
@[simp] theorem State.bump_job (s : State) (k n w : Nat) : (s.bump k n w).job = s.job := rfl
@[simp] theorem State.bump_coll (s : State) (k n w : Nat) : (s.bump k n w).coll = s.coll := rfl
@[simp] theorem State.bump_upd (s : State) (k n w : Nat) : (s.bump k n w).upd = s.upd := rfl
@[simp] theorem State.bump_feed (s : State) (k n w : Nat) : (s.bump k n w).feed = s.feed := rfl
@[simp] theorem State.bump_resh (s : State) (k n w : Nat) : (s.bump k n w).resh = s.resh := rfl
@[simp] theorem State.bump_fxp (s : State) (k n w : Nat) : (s.bump k n w).fxp = s.fxp := rfl
@[simp] theorem State.bump_fed (s : State) (k n w : Nat) : (s.bump k n w).fed = s.fed := rfl
@[simp] theorem State.bump_cipher (s : State) (k n w : Nat) : (s.bump k n w).cipher = s.cipher := rfl
@[simp] theorem State.bump_ten (s : State) (k n w : Nat) : (s.bump k n w).ten = s.ten := rfl
@[simp] theorem State.bump_stream (s : State) (k n w : Nat) : (s.bump k n w).stream = s.stream := rfl
@[simp] theorem State.bump_snap (s : State) (k n w : Nat) : (s.bump k n w).snap = s.snap := rfl

/-! ### inc32 -/

@[simp] theorem State.inc32_pending (s : State) (k : Nat) : (s.inc32 k).pending = s.pending := rfl
@[simp] theorem State.inc32_freeCtr (s : State) (k : Nat) : (s.inc32 k).freeCtr = s.freeCtr := rfl
@[simp] theorem State.inc32_outbox (s : State) (k : Nat) : (s.inc32 k).outbox = s.outbox := rfl
@[simp] theorem State.inc32_doms (s : State) (k : Nat) : (s.inc32 k).doms = s.doms := rfl
@[simp] theorem State.inc32_pwr (s : State) (k : Nat) : (s.inc32 k).pwr = s.pwr := rfl
@[simp] theorem State.inc32_tb (s : State) (k : Nat) : (s.inc32 k).tb = s.tb := rfl
@[simp] theorem State.inc32_eth (s : State) (k : Nat) : (s.inc32 k).eth = s.eth := rfl
@[simp] theorem State.inc32_board (s : State) (k : Nat) : (s.inc32 k).board = s.board := rfl
@[simp] theorem State.inc32_boot (s : State) (k : Nat) : (s.inc32 k).boot = s.boot := rfl
@[simp] theorem State.inc32_gauge (s : State) (k : Nat) : (s.inc32 k).gauge = s.gauge := rfl
@[simp] theorem State.inc32_flash (s : State) (k : Nat) : (s.inc32 k).flash = s.flash := rfl
@[simp] theorem State.inc32_service (s : State) (k : Nat) : (s.inc32 k).service = s.service := rfl
@[simp] theorem State.inc32_ev (s : State) (k : Nat) : (s.inc32 k).ev = s.ev := rfl
@[simp] theorem State.inc32_dap (s : State) (k : Nat) : (s.inc32 k).dap = s.dap := rfl
@[simp] theorem State.inc32_cores (s : State) (k : Nat) : (s.inc32 k).cores = s.cores := rfl
@[simp] theorem State.inc32_mem (s : State) (k : Nat) : (s.inc32 k).mem = s.mem := rfl
@[simp] theorem State.inc32_dma (s : State) (k : Nat) : (s.inc32 k).dma = s.dma := rfl
@[simp] theorem State.inc32_poisonHere (s : State) (k : Nat) : (s.inc32 k).poisonHere = s.poisonHere := rfl
@[simp] theorem State.inc32_torus (s : State) (k : Nat) : (s.inc32 k).torus = s.torus := rfl
@[simp] theorem State.inc32_job (s : State) (k : Nat) : (s.inc32 k).job = s.job := rfl
@[simp] theorem State.inc32_coll (s : State) (k : Nat) : (s.inc32 k).coll = s.coll := rfl
@[simp] theorem State.inc32_upd (s : State) (k : Nat) : (s.inc32 k).upd = s.upd := rfl
@[simp] theorem State.inc32_feed (s : State) (k : Nat) : (s.inc32 k).feed = s.feed := rfl
@[simp] theorem State.inc32_resh (s : State) (k : Nat) : (s.inc32 k).resh = s.resh := rfl
@[simp] theorem State.inc32_fxp (s : State) (k : Nat) : (s.inc32 k).fxp = s.fxp := rfl
@[simp] theorem State.inc32_fed (s : State) (k : Nat) : (s.inc32 k).fed = s.fed := rfl
@[simp] theorem State.inc32_cipher (s : State) (k : Nat) : (s.inc32 k).cipher = s.cipher := rfl
@[simp] theorem State.inc32_ten (s : State) (k : Nat) : (s.inc32 k).ten = s.ten := rfl
@[simp] theorem State.inc32_stream (s : State) (k : Nat) : (s.inc32 k).stream = s.stream := rfl
@[simp] theorem State.inc32_snap (s : State) (k : Nat) : (s.inc32 k).snap = s.snap := rfl

/-! ### inc64 -/

@[simp] theorem State.inc64_pending (s : State) (k : Nat) : (s.inc64 k).pending = s.pending := rfl
@[simp] theorem State.inc64_freeCtr (s : State) (k : Nat) : (s.inc64 k).freeCtr = s.freeCtr := rfl
@[simp] theorem State.inc64_outbox (s : State) (k : Nat) : (s.inc64 k).outbox = s.outbox := rfl
@[simp] theorem State.inc64_doms (s : State) (k : Nat) : (s.inc64 k).doms = s.doms := rfl
@[simp] theorem State.inc64_pwr (s : State) (k : Nat) : (s.inc64 k).pwr = s.pwr := rfl
@[simp] theorem State.inc64_tb (s : State) (k : Nat) : (s.inc64 k).tb = s.tb := rfl
@[simp] theorem State.inc64_eth (s : State) (k : Nat) : (s.inc64 k).eth = s.eth := rfl
@[simp] theorem State.inc64_board (s : State) (k : Nat) : (s.inc64 k).board = s.board := rfl
@[simp] theorem State.inc64_boot (s : State) (k : Nat) : (s.inc64 k).boot = s.boot := rfl
@[simp] theorem State.inc64_gauge (s : State) (k : Nat) : (s.inc64 k).gauge = s.gauge := rfl
@[simp] theorem State.inc64_flash (s : State) (k : Nat) : (s.inc64 k).flash = s.flash := rfl
@[simp] theorem State.inc64_service (s : State) (k : Nat) : (s.inc64 k).service = s.service := rfl
@[simp] theorem State.inc64_ev (s : State) (k : Nat) : (s.inc64 k).ev = s.ev := rfl
@[simp] theorem State.inc64_dap (s : State) (k : Nat) : (s.inc64 k).dap = s.dap := rfl
@[simp] theorem State.inc64_cores (s : State) (k : Nat) : (s.inc64 k).cores = s.cores := rfl
@[simp] theorem State.inc64_mem (s : State) (k : Nat) : (s.inc64 k).mem = s.mem := rfl
@[simp] theorem State.inc64_dma (s : State) (k : Nat) : (s.inc64 k).dma = s.dma := rfl
@[simp] theorem State.inc64_poisonHere (s : State) (k : Nat) : (s.inc64 k).poisonHere = s.poisonHere := rfl
@[simp] theorem State.inc64_torus (s : State) (k : Nat) : (s.inc64 k).torus = s.torus := rfl
@[simp] theorem State.inc64_job (s : State) (k : Nat) : (s.inc64 k).job = s.job := rfl
@[simp] theorem State.inc64_coll (s : State) (k : Nat) : (s.inc64 k).coll = s.coll := rfl
@[simp] theorem State.inc64_upd (s : State) (k : Nat) : (s.inc64 k).upd = s.upd := rfl
@[simp] theorem State.inc64_feed (s : State) (k : Nat) : (s.inc64 k).feed = s.feed := rfl
@[simp] theorem State.inc64_resh (s : State) (k : Nat) : (s.inc64 k).resh = s.resh := rfl
@[simp] theorem State.inc64_fxp (s : State) (k : Nat) : (s.inc64 k).fxp = s.fxp := rfl
@[simp] theorem State.inc64_fed (s : State) (k : Nat) : (s.inc64 k).fed = s.fed := rfl
@[simp] theorem State.inc64_cipher (s : State) (k : Nat) : (s.inc64 k).cipher = s.cipher := rfl
@[simp] theorem State.inc64_ten (s : State) (k : Nat) : (s.inc64 k).ten = s.ten := rfl
@[simp] theorem State.inc64_stream (s : State) (k : Nat) : (s.inc64 k).stream = s.stream := rfl
@[simp] theorem State.inc64_snap (s : State) (k : Nat) : (s.inc64 k).snap = s.snap := rfl

/-! ### total -/

@[simp] theorem State.total_pending (s : State) (k n : Nat) : (s.total k n).pending = s.pending := rfl
@[simp] theorem State.total_freeCtr (s : State) (k n : Nat) : (s.total k n).freeCtr = s.freeCtr := rfl
@[simp] theorem State.total_outbox (s : State) (k n : Nat) : (s.total k n).outbox = s.outbox := rfl
@[simp] theorem State.total_doms (s : State) (k n : Nat) : (s.total k n).doms = s.doms := rfl
@[simp] theorem State.total_pwr (s : State) (k n : Nat) : (s.total k n).pwr = s.pwr := rfl
@[simp] theorem State.total_tb (s : State) (k n : Nat) : (s.total k n).tb = s.tb := rfl
@[simp] theorem State.total_eth (s : State) (k n : Nat) : (s.total k n).eth = s.eth := rfl
@[simp] theorem State.total_board (s : State) (k n : Nat) : (s.total k n).board = s.board := rfl
@[simp] theorem State.total_boot (s : State) (k n : Nat) : (s.total k n).boot = s.boot := rfl
@[simp] theorem State.total_gauge (s : State) (k n : Nat) : (s.total k n).gauge = s.gauge := rfl
@[simp] theorem State.total_flash (s : State) (k n : Nat) : (s.total k n).flash = s.flash := rfl
@[simp] theorem State.total_service (s : State) (k n : Nat) : (s.total k n).service = s.service := rfl
@[simp] theorem State.total_ev (s : State) (k n : Nat) : (s.total k n).ev = s.ev := rfl
@[simp] theorem State.total_dap (s : State) (k n : Nat) : (s.total k n).dap = s.dap := rfl
@[simp] theorem State.total_cores (s : State) (k n : Nat) : (s.total k n).cores = s.cores := rfl
@[simp] theorem State.total_mem (s : State) (k n : Nat) : (s.total k n).mem = s.mem := rfl
@[simp] theorem State.total_dma (s : State) (k n : Nat) : (s.total k n).dma = s.dma := rfl
@[simp] theorem State.total_poisonHere (s : State) (k n : Nat) : (s.total k n).poisonHere = s.poisonHere := rfl
@[simp] theorem State.total_torus (s : State) (k n : Nat) : (s.total k n).torus = s.torus := rfl
@[simp] theorem State.total_job (s : State) (k n : Nat) : (s.total k n).job = s.job := rfl
@[simp] theorem State.total_coll (s : State) (k n : Nat) : (s.total k n).coll = s.coll := rfl
@[simp] theorem State.total_upd (s : State) (k n : Nat) : (s.total k n).upd = s.upd := rfl
@[simp] theorem State.total_feed (s : State) (k n : Nat) : (s.total k n).feed = s.feed := rfl
@[simp] theorem State.total_resh (s : State) (k n : Nat) : (s.total k n).resh = s.resh := rfl
@[simp] theorem State.total_fxp (s : State) (k n : Nat) : (s.total k n).fxp = s.fxp := rfl
@[simp] theorem State.total_fed (s : State) (k n : Nat) : (s.total k n).fed = s.fed := rfl
@[simp] theorem State.total_cipher (s : State) (k n : Nat) : (s.total k n).cipher = s.cipher := rfl
@[simp] theorem State.total_ten (s : State) (k n : Nat) : (s.total k n).ten = s.ten := rfl
@[simp] theorem State.total_stream (s : State) (k n : Nat) : (s.total k n).stream = s.stream := rfl
@[simp] theorem State.total_snap (s : State) (k n : Nat) : (s.total k n).snap = s.snap := rfl

/-! ### setDom -/

@[simp] theorem State.setDom_pending (s : State) (k : Nat) (v : List Byte) : (s.setDom k v).pending = s.pending := rfl
@[simp] theorem State.setDom_freeCtr (s : State) (k : Nat) (v : List Byte) : (s.setDom k v).freeCtr = s.freeCtr := rfl
@[simp] theorem State.setDom_outbox (s : State) (k : Nat) (v : List Byte) : (s.setDom k v).outbox = s.outbox := rfl
@[simp] theorem State.setDom_objs (s : State) (k : Nat) (v : List Byte) : (s.setDom k v).objs = s.objs := rfl
@[simp] theorem State.setDom_pwr (s : State) (k : Nat) (v : List Byte) : (s.setDom k v).pwr = s.pwr := rfl
@[simp] theorem State.setDom_tb (s : State) (k : Nat) (v : List Byte) : (s.setDom k v).tb = s.tb := rfl
@[simp] theorem State.setDom_eth (s : State) (k : Nat) (v : List Byte) : (s.setDom k v).eth = s.eth := rfl
@[simp] theorem State.setDom_board (s : State) (k : Nat) (v : List Byte) : (s.setDom k v).board = s.board := rfl
@[simp] theorem State.setDom_boot (s : State) (k : Nat) (v : List Byte) : (s.setDom k v).boot = s.boot := rfl
@[simp] theorem State.setDom_gauge (s : State) (k : Nat) (v : List Byte) : (s.setDom k v).gauge = s.gauge := rfl
@[simp] theorem State.setDom_flash (s : State) (k : Nat) (v : List Byte) : (s.setDom k v).flash = s.flash := rfl
@[simp] theorem State.setDom_service (s : State) (k : Nat) (v : List Byte) : (s.setDom k v).service = s.service := rfl
@[simp] theorem State.setDom_ev (s : State) (k : Nat) (v : List Byte) : (s.setDom k v).ev = s.ev := rfl
@[simp] theorem State.setDom_dap (s : State) (k : Nat) (v : List Byte) : (s.setDom k v).dap = s.dap := rfl
@[simp] theorem State.setDom_cores (s : State) (k : Nat) (v : List Byte) : (s.setDom k v).cores = s.cores := rfl
@[simp] theorem State.setDom_mem (s : State) (k : Nat) (v : List Byte) : (s.setDom k v).mem = s.mem := rfl
@[simp] theorem State.setDom_dma (s : State) (k : Nat) (v : List Byte) : (s.setDom k v).dma = s.dma := rfl
@[simp] theorem State.setDom_poisonHere (s : State) (k : Nat) (v : List Byte) : (s.setDom k v).poisonHere = s.poisonHere := rfl
@[simp] theorem State.setDom_torus (s : State) (k : Nat) (v : List Byte) : (s.setDom k v).torus = s.torus := rfl
@[simp] theorem State.setDom_job (s : State) (k : Nat) (v : List Byte) : (s.setDom k v).job = s.job := rfl
@[simp] theorem State.setDom_coll (s : State) (k : Nat) (v : List Byte) : (s.setDom k v).coll = s.coll := rfl
@[simp] theorem State.setDom_upd (s : State) (k : Nat) (v : List Byte) : (s.setDom k v).upd = s.upd := rfl
@[simp] theorem State.setDom_feed (s : State) (k : Nat) (v : List Byte) : (s.setDom k v).feed = s.feed := rfl
@[simp] theorem State.setDom_resh (s : State) (k : Nat) (v : List Byte) : (s.setDom k v).resh = s.resh := rfl
@[simp] theorem State.setDom_fxp (s : State) (k : Nat) (v : List Byte) : (s.setDom k v).fxp = s.fxp := rfl
@[simp] theorem State.setDom_fed (s : State) (k : Nat) (v : List Byte) : (s.setDom k v).fed = s.fed := rfl
@[simp] theorem State.setDom_cipher (s : State) (k : Nat) (v : List Byte) : (s.setDom k v).cipher = s.cipher := rfl
@[simp] theorem State.setDom_ten (s : State) (k : Nat) (v : List Byte) : (s.setDom k v).ten = s.ten := rfl
@[simp] theorem State.setDom_stream (s : State) (k : Nat) (v : List Byte) : (s.setDom k v).stream = s.stream := rfl
@[simp] theorem State.setDom_snap (s : State) (k : Nat) (v : List Byte) : (s.setDom k v).snap = s.snap := rfl

/-! ### spend -/

@[simp] theorem State.spend_pending (s : State) : (s.spend).pending = s.pending := rfl
@[simp] theorem State.spend_outbox (s : State) : (s.spend).outbox = s.outbox := rfl
@[simp] theorem State.spend_objs (s : State) : (s.spend).objs = s.objs := rfl
@[simp] theorem State.spend_doms (s : State) : (s.spend).doms = s.doms := rfl
@[simp] theorem State.spend_pwr (s : State) : (s.spend).pwr = s.pwr := rfl
@[simp] theorem State.spend_tb (s : State) : (s.spend).tb = s.tb := rfl
@[simp] theorem State.spend_eth (s : State) : (s.spend).eth = s.eth := rfl
@[simp] theorem State.spend_board (s : State) : (s.spend).board = s.board := rfl
@[simp] theorem State.spend_boot (s : State) : (s.spend).boot = s.boot := rfl
@[simp] theorem State.spend_gauge (s : State) : (s.spend).gauge = s.gauge := rfl
@[simp] theorem State.spend_flash (s : State) : (s.spend).flash = s.flash := rfl
@[simp] theorem State.spend_service (s : State) : (s.spend).service = s.service := rfl
@[simp] theorem State.spend_ev (s : State) : (s.spend).ev = s.ev := rfl
@[simp] theorem State.spend_dap (s : State) : (s.spend).dap = s.dap := rfl
@[simp] theorem State.spend_cores (s : State) : (s.spend).cores = s.cores := rfl
@[simp] theorem State.spend_mem (s : State) : (s.spend).mem = s.mem := rfl
@[simp] theorem State.spend_dma (s : State) : (s.spend).dma = s.dma := rfl
@[simp] theorem State.spend_poisonHere (s : State) : (s.spend).poisonHere = s.poisonHere := rfl
@[simp] theorem State.spend_torus (s : State) : (s.spend).torus = s.torus := rfl
@[simp] theorem State.spend_job (s : State) : (s.spend).job = s.job := rfl
@[simp] theorem State.spend_coll (s : State) : (s.spend).coll = s.coll := rfl
@[simp] theorem State.spend_upd (s : State) : (s.spend).upd = s.upd := rfl
@[simp] theorem State.spend_feed (s : State) : (s.spend).feed = s.feed := rfl
@[simp] theorem State.spend_resh (s : State) : (s.spend).resh = s.resh := rfl
@[simp] theorem State.spend_fxp (s : State) : (s.spend).fxp = s.fxp := rfl
@[simp] theorem State.spend_fed (s : State) : (s.spend).fed = s.fed := rfl
@[simp] theorem State.spend_cipher (s : State) : (s.spend).cipher = s.cipher := rfl
@[simp] theorem State.spend_ten (s : State) : (s.spend).ten = s.ten := rfl
@[simp] theorem State.spend_stream (s : State) : (s.spend).stream = s.stream := rfl
@[simp] theorem State.spend_snap (s : State) : (s.spend).snap = s.snap := rfl

/-! ### setSession -/

@[simp] theorem State.setSession_pending (s : State) (i : Nat) (x : Session) : (s.setSession i x).pending = s.pending := rfl
@[simp] theorem State.setSession_freeCtr (s : State) (i : Nat) (x : Session) : (s.setSession i x).freeCtr = s.freeCtr := rfl
@[simp] theorem State.setSession_outbox (s : State) (i : Nat) (x : Session) : (s.setSession i x).outbox = s.outbox := rfl
@[simp] theorem State.setSession_objs (s : State) (i : Nat) (x : Session) : (s.setSession i x).objs = s.objs := rfl
@[simp] theorem State.setSession_doms (s : State) (i : Nat) (x : Session) : (s.setSession i x).doms = s.doms := rfl
@[simp] theorem State.setSession_pwr (s : State) (i : Nat) (x : Session) : (s.setSession i x).pwr = s.pwr := rfl
@[simp] theorem State.setSession_tb (s : State) (i : Nat) (x : Session) : (s.setSession i x).tb = s.tb := rfl
@[simp] theorem State.setSession_eth (s : State) (i : Nat) (x : Session) : (s.setSession i x).eth = s.eth := rfl
@[simp] theorem State.setSession_board (s : State) (i : Nat) (x : Session) : (s.setSession i x).board = s.board := rfl
@[simp] theorem State.setSession_boot (s : State) (i : Nat) (x : Session) : (s.setSession i x).boot = s.boot := rfl
@[simp] theorem State.setSession_gauge (s : State) (i : Nat) (x : Session) : (s.setSession i x).gauge = s.gauge := rfl
@[simp] theorem State.setSession_flash (s : State) (i : Nat) (x : Session) : (s.setSession i x).flash = s.flash := rfl
@[simp] theorem State.setSession_service (s : State) (i : Nat) (x : Session) : (s.setSession i x).service = s.service := rfl
@[simp] theorem State.setSession_ev (s : State) (i : Nat) (x : Session) : (s.setSession i x).ev = s.ev := rfl
@[simp] theorem State.setSession_cores (s : State) (i : Nat) (x : Session) : (s.setSession i x).cores = s.cores := rfl
@[simp] theorem State.setSession_mem (s : State) (i : Nat) (x : Session) : (s.setSession i x).mem = s.mem := rfl
@[simp] theorem State.setSession_dma (s : State) (i : Nat) (x : Session) : (s.setSession i x).dma = s.dma := rfl
@[simp] theorem State.setSession_poisonHere (s : State) (i : Nat) (x : Session) : (s.setSession i x).poisonHere = s.poisonHere := rfl
@[simp] theorem State.setSession_torus (s : State) (i : Nat) (x : Session) : (s.setSession i x).torus = s.torus := rfl
@[simp] theorem State.setSession_job (s : State) (i : Nat) (x : Session) : (s.setSession i x).job = s.job := rfl
@[simp] theorem State.setSession_coll (s : State) (i : Nat) (x : Session) : (s.setSession i x).coll = s.coll := rfl
@[simp] theorem State.setSession_upd (s : State) (i : Nat) (x : Session) : (s.setSession i x).upd = s.upd := rfl
@[simp] theorem State.setSession_feed (s : State) (i : Nat) (x : Session) : (s.setSession i x).feed = s.feed := rfl
@[simp] theorem State.setSession_resh (s : State) (i : Nat) (x : Session) : (s.setSession i x).resh = s.resh := rfl
@[simp] theorem State.setSession_fxp (s : State) (i : Nat) (x : Session) : (s.setSession i x).fxp = s.fxp := rfl
@[simp] theorem State.setSession_fed (s : State) (i : Nat) (x : Session) : (s.setSession i x).fed = s.fed := rfl
@[simp] theorem State.setSession_cipher (s : State) (i : Nat) (x : Session) : (s.setSession i x).cipher = s.cipher := rfl
@[simp] theorem State.setSession_ten (s : State) (i : Nat) (x : Session) : (s.setSession i x).ten = s.ten := rfl
@[simp] theorem State.setSession_stream (s : State) (i : Nat) (x : Session) : (s.setSession i x).stream = s.stream := rfl
@[simp] theorem State.setSession_snap (s : State) (i : Nat) (x : Session) : (s.setSession i x).snap = s.snap := rfl

/-! ### setEth -/

@[simp] theorem State.setEth_pending (s : State) (e : Nat) (x : EthSt) : (s.setEth e x).pending = s.pending := rfl
@[simp] theorem State.setEth_freeCtr (s : State) (e : Nat) (x : EthSt) : (s.setEth e x).freeCtr = s.freeCtr := rfl
@[simp] theorem State.setEth_outbox (s : State) (e : Nat) (x : EthSt) : (s.setEth e x).outbox = s.outbox := rfl
@[simp] theorem State.setEth_objs (s : State) (e : Nat) (x : EthSt) : (s.setEth e x).objs = s.objs := rfl
@[simp] theorem State.setEth_doms (s : State) (e : Nat) (x : EthSt) : (s.setEth e x).doms = s.doms := rfl
@[simp] theorem State.setEth_pwr (s : State) (e : Nat) (x : EthSt) : (s.setEth e x).pwr = s.pwr := rfl
@[simp] theorem State.setEth_tb (s : State) (e : Nat) (x : EthSt) : (s.setEth e x).tb = s.tb := rfl
@[simp] theorem State.setEth_board (s : State) (e : Nat) (x : EthSt) : (s.setEth e x).board = s.board := rfl
@[simp] theorem State.setEth_boot (s : State) (e : Nat) (x : EthSt) : (s.setEth e x).boot = s.boot := rfl
@[simp] theorem State.setEth_gauge (s : State) (e : Nat) (x : EthSt) : (s.setEth e x).gauge = s.gauge := rfl
@[simp] theorem State.setEth_flash (s : State) (e : Nat) (x : EthSt) : (s.setEth e x).flash = s.flash := rfl
@[simp] theorem State.setEth_service (s : State) (e : Nat) (x : EthSt) : (s.setEth e x).service = s.service := rfl
@[simp] theorem State.setEth_ev (s : State) (e : Nat) (x : EthSt) : (s.setEth e x).ev = s.ev := rfl
@[simp] theorem State.setEth_dap (s : State) (e : Nat) (x : EthSt) : (s.setEth e x).dap = s.dap := rfl
@[simp] theorem State.setEth_cores (s : State) (e : Nat) (x : EthSt) : (s.setEth e x).cores = s.cores := rfl
@[simp] theorem State.setEth_mem (s : State) (e : Nat) (x : EthSt) : (s.setEth e x).mem = s.mem := rfl
@[simp] theorem State.setEth_dma (s : State) (e : Nat) (x : EthSt) : (s.setEth e x).dma = s.dma := rfl
@[simp] theorem State.setEth_poisonHere (s : State) (e : Nat) (x : EthSt) : (s.setEth e x).poisonHere = s.poisonHere := rfl
@[simp] theorem State.setEth_torus (s : State) (e : Nat) (x : EthSt) : (s.setEth e x).torus = s.torus := rfl
@[simp] theorem State.setEth_job (s : State) (e : Nat) (x : EthSt) : (s.setEth e x).job = s.job := rfl
@[simp] theorem State.setEth_coll (s : State) (e : Nat) (x : EthSt) : (s.setEth e x).coll = s.coll := rfl
@[simp] theorem State.setEth_upd (s : State) (e : Nat) (x : EthSt) : (s.setEth e x).upd = s.upd := rfl
@[simp] theorem State.setEth_feed (s : State) (e : Nat) (x : EthSt) : (s.setEth e x).feed = s.feed := rfl
@[simp] theorem State.setEth_resh (s : State) (e : Nat) (x : EthSt) : (s.setEth e x).resh = s.resh := rfl
@[simp] theorem State.setEth_fxp (s : State) (e : Nat) (x : EthSt) : (s.setEth e x).fxp = s.fxp := rfl
@[simp] theorem State.setEth_fed (s : State) (e : Nat) (x : EthSt) : (s.setEth e x).fed = s.fed := rfl
@[simp] theorem State.setEth_cipher (s : State) (e : Nat) (x : EthSt) : (s.setEth e x).cipher = s.cipher := rfl
@[simp] theorem State.setEth_ten (s : State) (e : Nat) (x : EthSt) : (s.setEth e x).ten = s.ten := rfl
@[simp] theorem State.setEth_stream (s : State) (e : Nat) (x : EthSt) : (s.setEth e x).stream = s.stream := rfl
@[simp] theorem State.setEth_snap (s : State) (e : Nat) (x : EthSt) : (s.setEth e x).snap = s.snap := rfl

/-! ### frameIn -/

@[simp] theorem State.frameIn_pending (s : State) (e : Nat) : (s.frameIn e).pending = s.pending := rfl
@[simp] theorem State.frameIn_freeCtr (s : State) (e : Nat) : (s.frameIn e).freeCtr = s.freeCtr := rfl
@[simp] theorem State.frameIn_outbox (s : State) (e : Nat) : (s.frameIn e).outbox = s.outbox := rfl
@[simp] theorem State.frameIn_objs (s : State) (e : Nat) : (s.frameIn e).objs = s.objs := rfl
@[simp] theorem State.frameIn_doms (s : State) (e : Nat) : (s.frameIn e).doms = s.doms := rfl
@[simp] theorem State.frameIn_pwr (s : State) (e : Nat) : (s.frameIn e).pwr = s.pwr := rfl
@[simp] theorem State.frameIn_tb (s : State) (e : Nat) : (s.frameIn e).tb = s.tb := rfl
@[simp] theorem State.frameIn_board (s : State) (e : Nat) : (s.frameIn e).board = s.board := rfl
@[simp] theorem State.frameIn_boot (s : State) (e : Nat) : (s.frameIn e).boot = s.boot := rfl
@[simp] theorem State.frameIn_gauge (s : State) (e : Nat) : (s.frameIn e).gauge = s.gauge := rfl
@[simp] theorem State.frameIn_flash (s : State) (e : Nat) : (s.frameIn e).flash = s.flash := rfl
@[simp] theorem State.frameIn_service (s : State) (e : Nat) : (s.frameIn e).service = s.service := rfl
@[simp] theorem State.frameIn_ev (s : State) (e : Nat) : (s.frameIn e).ev = s.ev := rfl
@[simp] theorem State.frameIn_dap (s : State) (e : Nat) : (s.frameIn e).dap = s.dap := rfl
@[simp] theorem State.frameIn_cores (s : State) (e : Nat) : (s.frameIn e).cores = s.cores := rfl
@[simp] theorem State.frameIn_mem (s : State) (e : Nat) : (s.frameIn e).mem = s.mem := rfl
@[simp] theorem State.frameIn_dma (s : State) (e : Nat) : (s.frameIn e).dma = s.dma := rfl
@[simp] theorem State.frameIn_poisonHere (s : State) (e : Nat) : (s.frameIn e).poisonHere = s.poisonHere := rfl
@[simp] theorem State.frameIn_torus (s : State) (e : Nat) : (s.frameIn e).torus = s.torus := rfl
@[simp] theorem State.frameIn_job (s : State) (e : Nat) : (s.frameIn e).job = s.job := rfl
@[simp] theorem State.frameIn_coll (s : State) (e : Nat) : (s.frameIn e).coll = s.coll := rfl
@[simp] theorem State.frameIn_upd (s : State) (e : Nat) : (s.frameIn e).upd = s.upd := rfl
@[simp] theorem State.frameIn_feed (s : State) (e : Nat) : (s.frameIn e).feed = s.feed := rfl
@[simp] theorem State.frameIn_resh (s : State) (e : Nat) : (s.frameIn e).resh = s.resh := rfl
@[simp] theorem State.frameIn_fxp (s : State) (e : Nat) : (s.frameIn e).fxp = s.fxp := rfl
@[simp] theorem State.frameIn_fed (s : State) (e : Nat) : (s.frameIn e).fed = s.fed := rfl
@[simp] theorem State.frameIn_cipher (s : State) (e : Nat) : (s.frameIn e).cipher = s.cipher := rfl
@[simp] theorem State.frameIn_ten (s : State) (e : Nat) : (s.frameIn e).ten = s.ten := rfl
@[simp] theorem State.frameIn_stream (s : State) (e : Nat) : (s.frameIn e).stream = s.stream := rfl
@[simp] theorem State.frameIn_snap (s : State) (e : Nat) : (s.frameIn e).snap = s.snap := rfl

/-! ### setCore -/

@[simp] theorem State.setCore_pending (s : State) (i : Nat) (x : CoreSt) : (s.setCore i x).pending = s.pending := rfl
@[simp] theorem State.setCore_freeCtr (s : State) (i : Nat) (x : CoreSt) : (s.setCore i x).freeCtr = s.freeCtr := rfl
@[simp] theorem State.setCore_outbox (s : State) (i : Nat) (x : CoreSt) : (s.setCore i x).outbox = s.outbox := rfl
@[simp] theorem State.setCore_objs (s : State) (i : Nat) (x : CoreSt) : (s.setCore i x).objs = s.objs := rfl
@[simp] theorem State.setCore_doms (s : State) (i : Nat) (x : CoreSt) : (s.setCore i x).doms = s.doms := rfl
@[simp] theorem State.setCore_pwr (s : State) (i : Nat) (x : CoreSt) : (s.setCore i x).pwr = s.pwr := rfl
@[simp] theorem State.setCore_tb (s : State) (i : Nat) (x : CoreSt) : (s.setCore i x).tb = s.tb := rfl
@[simp] theorem State.setCore_eth (s : State) (i : Nat) (x : CoreSt) : (s.setCore i x).eth = s.eth := rfl
@[simp] theorem State.setCore_board (s : State) (i : Nat) (x : CoreSt) : (s.setCore i x).board = s.board := rfl
@[simp] theorem State.setCore_boot (s : State) (i : Nat) (x : CoreSt) : (s.setCore i x).boot = s.boot := rfl
@[simp] theorem State.setCore_gauge (s : State) (i : Nat) (x : CoreSt) : (s.setCore i x).gauge = s.gauge := rfl
@[simp] theorem State.setCore_flash (s : State) (i : Nat) (x : CoreSt) : (s.setCore i x).flash = s.flash := rfl
@[simp] theorem State.setCore_service (s : State) (i : Nat) (x : CoreSt) : (s.setCore i x).service = s.service := rfl
@[simp] theorem State.setCore_ev (s : State) (i : Nat) (x : CoreSt) : (s.setCore i x).ev = s.ev := rfl
@[simp] theorem State.setCore_dap (s : State) (i : Nat) (x : CoreSt) : (s.setCore i x).dap = s.dap := rfl
@[simp] theorem State.setCore_mem (s : State) (i : Nat) (x : CoreSt) : (s.setCore i x).mem = s.mem := rfl
@[simp] theorem State.setCore_dma (s : State) (i : Nat) (x : CoreSt) : (s.setCore i x).dma = s.dma := rfl
@[simp] theorem State.setCore_poisonHere (s : State) (i : Nat) (x : CoreSt) : (s.setCore i x).poisonHere = s.poisonHere := rfl
@[simp] theorem State.setCore_torus (s : State) (i : Nat) (x : CoreSt) : (s.setCore i x).torus = s.torus := rfl
@[simp] theorem State.setCore_job (s : State) (i : Nat) (x : CoreSt) : (s.setCore i x).job = s.job := rfl
@[simp] theorem State.setCore_coll (s : State) (i : Nat) (x : CoreSt) : (s.setCore i x).coll = s.coll := rfl
@[simp] theorem State.setCore_upd (s : State) (i : Nat) (x : CoreSt) : (s.setCore i x).upd = s.upd := rfl
@[simp] theorem State.setCore_feed (s : State) (i : Nat) (x : CoreSt) : (s.setCore i x).feed = s.feed := rfl
@[simp] theorem State.setCore_resh (s : State) (i : Nat) (x : CoreSt) : (s.setCore i x).resh = s.resh := rfl
@[simp] theorem State.setCore_fxp (s : State) (i : Nat) (x : CoreSt) : (s.setCore i x).fxp = s.fxp := rfl
@[simp] theorem State.setCore_fed (s : State) (i : Nat) (x : CoreSt) : (s.setCore i x).fed = s.fed := rfl
@[simp] theorem State.setCore_cipher (s : State) (i : Nat) (x : CoreSt) : (s.setCore i x).cipher = s.cipher := rfl
@[simp] theorem State.setCore_ten (s : State) (i : Nat) (x : CoreSt) : (s.setCore i x).ten = s.ten := rfl
@[simp] theorem State.setCore_stream (s : State) (i : Nat) (x : CoreSt) : (s.setCore i x).stream = s.stream := rfl
@[simp] theorem State.setCore_snap (s : State) (i : Nat) (x : CoreSt) : (s.setCore i x).snap = s.snap := rfl

/-! ### modCore -/

@[simp] theorem State.modCore_pending (s : State) (i : Nat) (f : CoreSt → CoreSt) : (s.modCore i f).pending = s.pending := rfl
@[simp] theorem State.modCore_freeCtr (s : State) (i : Nat) (f : CoreSt → CoreSt) : (s.modCore i f).freeCtr = s.freeCtr := rfl
@[simp] theorem State.modCore_outbox (s : State) (i : Nat) (f : CoreSt → CoreSt) : (s.modCore i f).outbox = s.outbox := rfl
@[simp] theorem State.modCore_objs (s : State) (i : Nat) (f : CoreSt → CoreSt) : (s.modCore i f).objs = s.objs := rfl
@[simp] theorem State.modCore_doms (s : State) (i : Nat) (f : CoreSt → CoreSt) : (s.modCore i f).doms = s.doms := rfl
@[simp] theorem State.modCore_pwr (s : State) (i : Nat) (f : CoreSt → CoreSt) : (s.modCore i f).pwr = s.pwr := rfl
@[simp] theorem State.modCore_tb (s : State) (i : Nat) (f : CoreSt → CoreSt) : (s.modCore i f).tb = s.tb := rfl
@[simp] theorem State.modCore_eth (s : State) (i : Nat) (f : CoreSt → CoreSt) : (s.modCore i f).eth = s.eth := rfl
@[simp] theorem State.modCore_board (s : State) (i : Nat) (f : CoreSt → CoreSt) : (s.modCore i f).board = s.board := rfl
@[simp] theorem State.modCore_boot (s : State) (i : Nat) (f : CoreSt → CoreSt) : (s.modCore i f).boot = s.boot := rfl
@[simp] theorem State.modCore_gauge (s : State) (i : Nat) (f : CoreSt → CoreSt) : (s.modCore i f).gauge = s.gauge := rfl
@[simp] theorem State.modCore_flash (s : State) (i : Nat) (f : CoreSt → CoreSt) : (s.modCore i f).flash = s.flash := rfl
@[simp] theorem State.modCore_service (s : State) (i : Nat) (f : CoreSt → CoreSt) : (s.modCore i f).service = s.service := rfl
@[simp] theorem State.modCore_ev (s : State) (i : Nat) (f : CoreSt → CoreSt) : (s.modCore i f).ev = s.ev := rfl
@[simp] theorem State.modCore_dap (s : State) (i : Nat) (f : CoreSt → CoreSt) : (s.modCore i f).dap = s.dap := rfl
@[simp] theorem State.modCore_mem (s : State) (i : Nat) (f : CoreSt → CoreSt) : (s.modCore i f).mem = s.mem := rfl
@[simp] theorem State.modCore_dma (s : State) (i : Nat) (f : CoreSt → CoreSt) : (s.modCore i f).dma = s.dma := rfl
@[simp] theorem State.modCore_poisonHere (s : State) (i : Nat) (f : CoreSt → CoreSt) : (s.modCore i f).poisonHere = s.poisonHere := rfl
@[simp] theorem State.modCore_torus (s : State) (i : Nat) (f : CoreSt → CoreSt) : (s.modCore i f).torus = s.torus := rfl
@[simp] theorem State.modCore_job (s : State) (i : Nat) (f : CoreSt → CoreSt) : (s.modCore i f).job = s.job := rfl
@[simp] theorem State.modCore_coll (s : State) (i : Nat) (f : CoreSt → CoreSt) : (s.modCore i f).coll = s.coll := rfl
@[simp] theorem State.modCore_upd (s : State) (i : Nat) (f : CoreSt → CoreSt) : (s.modCore i f).upd = s.upd := rfl
@[simp] theorem State.modCore_feed (s : State) (i : Nat) (f : CoreSt → CoreSt) : (s.modCore i f).feed = s.feed := rfl
@[simp] theorem State.modCore_resh (s : State) (i : Nat) (f : CoreSt → CoreSt) : (s.modCore i f).resh = s.resh := rfl
@[simp] theorem State.modCore_fxp (s : State) (i : Nat) (f : CoreSt → CoreSt) : (s.modCore i f).fxp = s.fxp := rfl
@[simp] theorem State.modCore_fed (s : State) (i : Nat) (f : CoreSt → CoreSt) : (s.modCore i f).fed = s.fed := rfl
@[simp] theorem State.modCore_cipher (s : State) (i : Nat) (f : CoreSt → CoreSt) : (s.modCore i f).cipher = s.cipher := rfl
@[simp] theorem State.modCore_ten (s : State) (i : Nat) (f : CoreSt → CoreSt) : (s.modCore i f).ten = s.ten := rfl
@[simp] theorem State.modCore_stream (s : State) (i : Nat) (f : CoreSt → CoreSt) : (s.modCore i f).stream = s.stream := rfl
@[simp] theorem State.modCore_snap (s : State) (i : Nat) (f : CoreSt → CoreSt) : (s.modCore i f).snap = s.snap := rfl

/-! ### modCtx -/

@[simp] theorem State.modCtx_pending (s : State) (i : Nat) (c : CtxId) (f : Ctx → Ctx) : (s.modCtx i c f).pending = s.pending := rfl
@[simp] theorem State.modCtx_freeCtr (s : State) (i : Nat) (c : CtxId) (f : Ctx → Ctx) : (s.modCtx i c f).freeCtr = s.freeCtr := rfl
@[simp] theorem State.modCtx_outbox (s : State) (i : Nat) (c : CtxId) (f : Ctx → Ctx) : (s.modCtx i c f).outbox = s.outbox := rfl
@[simp] theorem State.modCtx_objs (s : State) (i : Nat) (c : CtxId) (f : Ctx → Ctx) : (s.modCtx i c f).objs = s.objs := rfl
@[simp] theorem State.modCtx_doms (s : State) (i : Nat) (c : CtxId) (f : Ctx → Ctx) : (s.modCtx i c f).doms = s.doms := rfl
@[simp] theorem State.modCtx_pwr (s : State) (i : Nat) (c : CtxId) (f : Ctx → Ctx) : (s.modCtx i c f).pwr = s.pwr := rfl
@[simp] theorem State.modCtx_tb (s : State) (i : Nat) (c : CtxId) (f : Ctx → Ctx) : (s.modCtx i c f).tb = s.tb := rfl
@[simp] theorem State.modCtx_eth (s : State) (i : Nat) (c : CtxId) (f : Ctx → Ctx) : (s.modCtx i c f).eth = s.eth := rfl
@[simp] theorem State.modCtx_board (s : State) (i : Nat) (c : CtxId) (f : Ctx → Ctx) : (s.modCtx i c f).board = s.board := rfl
@[simp] theorem State.modCtx_boot (s : State) (i : Nat) (c : CtxId) (f : Ctx → Ctx) : (s.modCtx i c f).boot = s.boot := rfl
@[simp] theorem State.modCtx_gauge (s : State) (i : Nat) (c : CtxId) (f : Ctx → Ctx) : (s.modCtx i c f).gauge = s.gauge := rfl
@[simp] theorem State.modCtx_flash (s : State) (i : Nat) (c : CtxId) (f : Ctx → Ctx) : (s.modCtx i c f).flash = s.flash := rfl
@[simp] theorem State.modCtx_service (s : State) (i : Nat) (c : CtxId) (f : Ctx → Ctx) : (s.modCtx i c f).service = s.service := rfl
@[simp] theorem State.modCtx_ev (s : State) (i : Nat) (c : CtxId) (f : Ctx → Ctx) : (s.modCtx i c f).ev = s.ev := rfl
@[simp] theorem State.modCtx_dap (s : State) (i : Nat) (c : CtxId) (f : Ctx → Ctx) : (s.modCtx i c f).dap = s.dap := rfl
@[simp] theorem State.modCtx_mem (s : State) (i : Nat) (c : CtxId) (f : Ctx → Ctx) : (s.modCtx i c f).mem = s.mem := rfl
@[simp] theorem State.modCtx_dma (s : State) (i : Nat) (c : CtxId) (f : Ctx → Ctx) : (s.modCtx i c f).dma = s.dma := rfl
@[simp] theorem State.modCtx_poisonHere (s : State) (i : Nat) (c : CtxId) (f : Ctx → Ctx) : (s.modCtx i c f).poisonHere = s.poisonHere := rfl
@[simp] theorem State.modCtx_torus (s : State) (i : Nat) (c : CtxId) (f : Ctx → Ctx) : (s.modCtx i c f).torus = s.torus := rfl
@[simp] theorem State.modCtx_job (s : State) (i : Nat) (c : CtxId) (f : Ctx → Ctx) : (s.modCtx i c f).job = s.job := rfl
@[simp] theorem State.modCtx_coll (s : State) (i : Nat) (c : CtxId) (f : Ctx → Ctx) : (s.modCtx i c f).coll = s.coll := rfl
@[simp] theorem State.modCtx_upd (s : State) (i : Nat) (c : CtxId) (f : Ctx → Ctx) : (s.modCtx i c f).upd = s.upd := rfl
@[simp] theorem State.modCtx_feed (s : State) (i : Nat) (c : CtxId) (f : Ctx → Ctx) : (s.modCtx i c f).feed = s.feed := rfl
@[simp] theorem State.modCtx_resh (s : State) (i : Nat) (c : CtxId) (f : Ctx → Ctx) : (s.modCtx i c f).resh = s.resh := rfl
@[simp] theorem State.modCtx_fxp (s : State) (i : Nat) (c : CtxId) (f : Ctx → Ctx) : (s.modCtx i c f).fxp = s.fxp := rfl
@[simp] theorem State.modCtx_fed (s : State) (i : Nat) (c : CtxId) (f : Ctx → Ctx) : (s.modCtx i c f).fed = s.fed := rfl
@[simp] theorem State.modCtx_cipher (s : State) (i : Nat) (c : CtxId) (f : Ctx → Ctx) : (s.modCtx i c f).cipher = s.cipher := rfl
@[simp] theorem State.modCtx_ten (s : State) (i : Nat) (c : CtxId) (f : Ctx → Ctx) : (s.modCtx i c f).ten = s.ten := rfl
@[simp] theorem State.modCtx_stream (s : State) (i : Nat) (c : CtxId) (f : Ctx → Ctx) : (s.modCtx i c f).stream = s.stream := rfl
@[simp] theorem State.modCtx_snap (s : State) (i : Nat) (c : CtxId) (f : Ctx → Ctx) : (s.modCtx i c f).snap = s.snap := rfl

/-! ### modTile -/

@[simp] theorem State.modTile_pending (s : State) (i : Nat) (c : CtxId) (t : Nat) (f : Tile → Tile) : (s.modTile i c t f).pending = s.pending := rfl
@[simp] theorem State.modTile_freeCtr (s : State) (i : Nat) (c : CtxId) (t : Nat) (f : Tile → Tile) : (s.modTile i c t f).freeCtr = s.freeCtr := rfl
@[simp] theorem State.modTile_outbox (s : State) (i : Nat) (c : CtxId) (t : Nat) (f : Tile → Tile) : (s.modTile i c t f).outbox = s.outbox := rfl
@[simp] theorem State.modTile_objs (s : State) (i : Nat) (c : CtxId) (t : Nat) (f : Tile → Tile) : (s.modTile i c t f).objs = s.objs := rfl
@[simp] theorem State.modTile_doms (s : State) (i : Nat) (c : CtxId) (t : Nat) (f : Tile → Tile) : (s.modTile i c t f).doms = s.doms := rfl
@[simp] theorem State.modTile_pwr (s : State) (i : Nat) (c : CtxId) (t : Nat) (f : Tile → Tile) : (s.modTile i c t f).pwr = s.pwr := rfl
@[simp] theorem State.modTile_tb (s : State) (i : Nat) (c : CtxId) (t : Nat) (f : Tile → Tile) : (s.modTile i c t f).tb = s.tb := rfl
@[simp] theorem State.modTile_eth (s : State) (i : Nat) (c : CtxId) (t : Nat) (f : Tile → Tile) : (s.modTile i c t f).eth = s.eth := rfl
@[simp] theorem State.modTile_board (s : State) (i : Nat) (c : CtxId) (t : Nat) (f : Tile → Tile) : (s.modTile i c t f).board = s.board := rfl
@[simp] theorem State.modTile_boot (s : State) (i : Nat) (c : CtxId) (t : Nat) (f : Tile → Tile) : (s.modTile i c t f).boot = s.boot := rfl
@[simp] theorem State.modTile_gauge (s : State) (i : Nat) (c : CtxId) (t : Nat) (f : Tile → Tile) : (s.modTile i c t f).gauge = s.gauge := rfl
@[simp] theorem State.modTile_flash (s : State) (i : Nat) (c : CtxId) (t : Nat) (f : Tile → Tile) : (s.modTile i c t f).flash = s.flash := rfl
@[simp] theorem State.modTile_service (s : State) (i : Nat) (c : CtxId) (t : Nat) (f : Tile → Tile) : (s.modTile i c t f).service = s.service := rfl
@[simp] theorem State.modTile_ev (s : State) (i : Nat) (c : CtxId) (t : Nat) (f : Tile → Tile) : (s.modTile i c t f).ev = s.ev := rfl
@[simp] theorem State.modTile_dap (s : State) (i : Nat) (c : CtxId) (t : Nat) (f : Tile → Tile) : (s.modTile i c t f).dap = s.dap := rfl
@[simp] theorem State.modTile_mem (s : State) (i : Nat) (c : CtxId) (t : Nat) (f : Tile → Tile) : (s.modTile i c t f).mem = s.mem := rfl
@[simp] theorem State.modTile_dma (s : State) (i : Nat) (c : CtxId) (t : Nat) (f : Tile → Tile) : (s.modTile i c t f).dma = s.dma := rfl
@[simp] theorem State.modTile_poisonHere (s : State) (i : Nat) (c : CtxId) (t : Nat) (f : Tile → Tile) : (s.modTile i c t f).poisonHere = s.poisonHere := rfl
@[simp] theorem State.modTile_torus (s : State) (i : Nat) (c : CtxId) (t : Nat) (f : Tile → Tile) : (s.modTile i c t f).torus = s.torus := rfl
@[simp] theorem State.modTile_job (s : State) (i : Nat) (c : CtxId) (t : Nat) (f : Tile → Tile) : (s.modTile i c t f).job = s.job := rfl
@[simp] theorem State.modTile_coll (s : State) (i : Nat) (c : CtxId) (t : Nat) (f : Tile → Tile) : (s.modTile i c t f).coll = s.coll := rfl
@[simp] theorem State.modTile_upd (s : State) (i : Nat) (c : CtxId) (t : Nat) (f : Tile → Tile) : (s.modTile i c t f).upd = s.upd := rfl
@[simp] theorem State.modTile_feed (s : State) (i : Nat) (c : CtxId) (t : Nat) (f : Tile → Tile) : (s.modTile i c t f).feed = s.feed := rfl
@[simp] theorem State.modTile_resh (s : State) (i : Nat) (c : CtxId) (t : Nat) (f : Tile → Tile) : (s.modTile i c t f).resh = s.resh := rfl
@[simp] theorem State.modTile_fxp (s : State) (i : Nat) (c : CtxId) (t : Nat) (f : Tile → Tile) : (s.modTile i c t f).fxp = s.fxp := rfl
@[simp] theorem State.modTile_fed (s : State) (i : Nat) (c : CtxId) (t : Nat) (f : Tile → Tile) : (s.modTile i c t f).fed = s.fed := rfl
@[simp] theorem State.modTile_cipher (s : State) (i : Nat) (c : CtxId) (t : Nat) (f : Tile → Tile) : (s.modTile i c t f).cipher = s.cipher := rfl
@[simp] theorem State.modTile_ten (s : State) (i : Nat) (c : CtxId) (t : Nat) (f : Tile → Tile) : (s.modTile i c t f).ten = s.ten := rfl
@[simp] theorem State.modTile_stream (s : State) (i : Nat) (c : CtxId) (t : Nat) (f : Tile → Tile) : (s.modTile i c t f).stream = s.stream := rfl
@[simp] theorem State.modTile_snap (s : State) (i : Nat) (c : CtxId) (t : Nat) (f : Tile → Tile) : (s.modTile i c t f).snap = s.snap := rfl

/-! ### advance -/

@[simp] theorem State.advance_pending (s : State) (i : Nat) (c : CtxId) (w : Nat) : (s.advance i c w).pending = s.pending := rfl
@[simp] theorem State.advance_freeCtr (s : State) (i : Nat) (c : CtxId) (w : Nat) : (s.advance i c w).freeCtr = s.freeCtr := rfl
@[simp] theorem State.advance_outbox (s : State) (i : Nat) (c : CtxId) (w : Nat) : (s.advance i c w).outbox = s.outbox := rfl
@[simp] theorem State.advance_objs (s : State) (i : Nat) (c : CtxId) (w : Nat) : (s.advance i c w).objs = s.objs := rfl
@[simp] theorem State.advance_doms (s : State) (i : Nat) (c : CtxId) (w : Nat) : (s.advance i c w).doms = s.doms := rfl
@[simp] theorem State.advance_pwr (s : State) (i : Nat) (c : CtxId) (w : Nat) : (s.advance i c w).pwr = s.pwr := rfl
@[simp] theorem State.advance_tb (s : State) (i : Nat) (c : CtxId) (w : Nat) : (s.advance i c w).tb = s.tb := rfl
@[simp] theorem State.advance_eth (s : State) (i : Nat) (c : CtxId) (w : Nat) : (s.advance i c w).eth = s.eth := rfl
@[simp] theorem State.advance_board (s : State) (i : Nat) (c : CtxId) (w : Nat) : (s.advance i c w).board = s.board := rfl
@[simp] theorem State.advance_boot (s : State) (i : Nat) (c : CtxId) (w : Nat) : (s.advance i c w).boot = s.boot := rfl
@[simp] theorem State.advance_gauge (s : State) (i : Nat) (c : CtxId) (w : Nat) : (s.advance i c w).gauge = s.gauge := rfl
@[simp] theorem State.advance_flash (s : State) (i : Nat) (c : CtxId) (w : Nat) : (s.advance i c w).flash = s.flash := rfl
@[simp] theorem State.advance_service (s : State) (i : Nat) (c : CtxId) (w : Nat) : (s.advance i c w).service = s.service := rfl
@[simp] theorem State.advance_ev (s : State) (i : Nat) (c : CtxId) (w : Nat) : (s.advance i c w).ev = s.ev := rfl
@[simp] theorem State.advance_dap (s : State) (i : Nat) (c : CtxId) (w : Nat) : (s.advance i c w).dap = s.dap := rfl
@[simp] theorem State.advance_mem (s : State) (i : Nat) (c : CtxId) (w : Nat) : (s.advance i c w).mem = s.mem := rfl
@[simp] theorem State.advance_dma (s : State) (i : Nat) (c : CtxId) (w : Nat) : (s.advance i c w).dma = s.dma := rfl
@[simp] theorem State.advance_poisonHere (s : State) (i : Nat) (c : CtxId) (w : Nat) : (s.advance i c w).poisonHere = s.poisonHere := rfl
@[simp] theorem State.advance_torus (s : State) (i : Nat) (c : CtxId) (w : Nat) : (s.advance i c w).torus = s.torus := rfl
@[simp] theorem State.advance_job (s : State) (i : Nat) (c : CtxId) (w : Nat) : (s.advance i c w).job = s.job := rfl
@[simp] theorem State.advance_coll (s : State) (i : Nat) (c : CtxId) (w : Nat) : (s.advance i c w).coll = s.coll := rfl
@[simp] theorem State.advance_upd (s : State) (i : Nat) (c : CtxId) (w : Nat) : (s.advance i c w).upd = s.upd := rfl
@[simp] theorem State.advance_feed (s : State) (i : Nat) (c : CtxId) (w : Nat) : (s.advance i c w).feed = s.feed := rfl
@[simp] theorem State.advance_resh (s : State) (i : Nat) (c : CtxId) (w : Nat) : (s.advance i c w).resh = s.resh := rfl
@[simp] theorem State.advance_fxp (s : State) (i : Nat) (c : CtxId) (w : Nat) : (s.advance i c w).fxp = s.fxp := rfl
@[simp] theorem State.advance_fed (s : State) (i : Nat) (c : CtxId) (w : Nat) : (s.advance i c w).fed = s.fed := rfl
@[simp] theorem State.advance_cipher (s : State) (i : Nat) (c : CtxId) (w : Nat) : (s.advance i c w).cipher = s.cipher := rfl
@[simp] theorem State.advance_ten (s : State) (i : Nat) (c : CtxId) (w : Nat) : (s.advance i c w).ten = s.ten := rfl
@[simp] theorem State.advance_stream (s : State) (i : Nat) (c : CtxId) (w : Nat) : (s.advance i c w).stream = s.stream := rfl
@[simp] theorem State.advance_snap (s : State) (i : Nat) (c : CtxId) (w : Nat) : (s.advance i c w).snap = s.snap := rfl

/-! ### flagCtx -/

@[simp] theorem State.flagCtx_pending (s : State) (i : Nat) (c : CtxId) (f : Flg) : (s.flagCtx i c f).pending = s.pending := rfl
@[simp] theorem State.flagCtx_freeCtr (s : State) (i : Nat) (c : CtxId) (f : Flg) : (s.flagCtx i c f).freeCtr = s.freeCtr := rfl
@[simp] theorem State.flagCtx_outbox (s : State) (i : Nat) (c : CtxId) (f : Flg) : (s.flagCtx i c f).outbox = s.outbox := rfl
@[simp] theorem State.flagCtx_objs (s : State) (i : Nat) (c : CtxId) (f : Flg) : (s.flagCtx i c f).objs = s.objs := rfl
@[simp] theorem State.flagCtx_doms (s : State) (i : Nat) (c : CtxId) (f : Flg) : (s.flagCtx i c f).doms = s.doms := rfl
@[simp] theorem State.flagCtx_pwr (s : State) (i : Nat) (c : CtxId) (f : Flg) : (s.flagCtx i c f).pwr = s.pwr := rfl
@[simp] theorem State.flagCtx_tb (s : State) (i : Nat) (c : CtxId) (f : Flg) : (s.flagCtx i c f).tb = s.tb := rfl
@[simp] theorem State.flagCtx_eth (s : State) (i : Nat) (c : CtxId) (f : Flg) : (s.flagCtx i c f).eth = s.eth := rfl
@[simp] theorem State.flagCtx_board (s : State) (i : Nat) (c : CtxId) (f : Flg) : (s.flagCtx i c f).board = s.board := rfl
@[simp] theorem State.flagCtx_boot (s : State) (i : Nat) (c : CtxId) (f : Flg) : (s.flagCtx i c f).boot = s.boot := rfl
@[simp] theorem State.flagCtx_gauge (s : State) (i : Nat) (c : CtxId) (f : Flg) : (s.flagCtx i c f).gauge = s.gauge := rfl
@[simp] theorem State.flagCtx_flash (s : State) (i : Nat) (c : CtxId) (f : Flg) : (s.flagCtx i c f).flash = s.flash := rfl
@[simp] theorem State.flagCtx_service (s : State) (i : Nat) (c : CtxId) (f : Flg) : (s.flagCtx i c f).service = s.service := rfl
@[simp] theorem State.flagCtx_ev (s : State) (i : Nat) (c : CtxId) (f : Flg) : (s.flagCtx i c f).ev = s.ev := rfl
@[simp] theorem State.flagCtx_dap (s : State) (i : Nat) (c : CtxId) (f : Flg) : (s.flagCtx i c f).dap = s.dap := rfl
@[simp] theorem State.flagCtx_mem (s : State) (i : Nat) (c : CtxId) (f : Flg) : (s.flagCtx i c f).mem = s.mem := rfl
@[simp] theorem State.flagCtx_dma (s : State) (i : Nat) (c : CtxId) (f : Flg) : (s.flagCtx i c f).dma = s.dma := rfl
@[simp] theorem State.flagCtx_poisonHere (s : State) (i : Nat) (c : CtxId) (f : Flg) : (s.flagCtx i c f).poisonHere = s.poisonHere := rfl
@[simp] theorem State.flagCtx_torus (s : State) (i : Nat) (c : CtxId) (f : Flg) : (s.flagCtx i c f).torus = s.torus := rfl
@[simp] theorem State.flagCtx_job (s : State) (i : Nat) (c : CtxId) (f : Flg) : (s.flagCtx i c f).job = s.job := rfl
@[simp] theorem State.flagCtx_coll (s : State) (i : Nat) (c : CtxId) (f : Flg) : (s.flagCtx i c f).coll = s.coll := rfl
@[simp] theorem State.flagCtx_upd (s : State) (i : Nat) (c : CtxId) (f : Flg) : (s.flagCtx i c f).upd = s.upd := rfl
@[simp] theorem State.flagCtx_feed (s : State) (i : Nat) (c : CtxId) (f : Flg) : (s.flagCtx i c f).feed = s.feed := rfl
@[simp] theorem State.flagCtx_resh (s : State) (i : Nat) (c : CtxId) (f : Flg) : (s.flagCtx i c f).resh = s.resh := rfl
@[simp] theorem State.flagCtx_fxp (s : State) (i : Nat) (c : CtxId) (f : Flg) : (s.flagCtx i c f).fxp = s.fxp := rfl
@[simp] theorem State.flagCtx_fed (s : State) (i : Nat) (c : CtxId) (f : Flg) : (s.flagCtx i c f).fed = s.fed := rfl
@[simp] theorem State.flagCtx_cipher (s : State) (i : Nat) (c : CtxId) (f : Flg) : (s.flagCtx i c f).cipher = s.cipher := rfl
@[simp] theorem State.flagCtx_ten (s : State) (i : Nat) (c : CtxId) (f : Flg) : (s.flagCtx i c f).ten = s.ten := rfl
@[simp] theorem State.flagCtx_stream (s : State) (i : Nat) (c : CtxId) (f : Flg) : (s.flagCtx i c f).stream = s.stream := rfl
@[simp] theorem State.flagCtx_snap (s : State) (i : Nat) (c : CtxId) (f : Flg) : (s.flagCtx i c f).snap = s.snap := rfl

/-! ### setPort -/

@[simp] theorem State.setPort_pending (s : State) (p : Nat) (x : PortSt) : (s.setPort p x).pending = s.pending := rfl
@[simp] theorem State.setPort_freeCtr (s : State) (p : Nat) (x : PortSt) : (s.setPort p x).freeCtr = s.freeCtr := rfl
@[simp] theorem State.setPort_outbox (s : State) (p : Nat) (x : PortSt) : (s.setPort p x).outbox = s.outbox := rfl
@[simp] theorem State.setPort_objs (s : State) (p : Nat) (x : PortSt) : (s.setPort p x).objs = s.objs := rfl
@[simp] theorem State.setPort_doms (s : State) (p : Nat) (x : PortSt) : (s.setPort p x).doms = s.doms := rfl
@[simp] theorem State.setPort_pwr (s : State) (p : Nat) (x : PortSt) : (s.setPort p x).pwr = s.pwr := rfl
@[simp] theorem State.setPort_tb (s : State) (p : Nat) (x : PortSt) : (s.setPort p x).tb = s.tb := rfl
@[simp] theorem State.setPort_eth (s : State) (p : Nat) (x : PortSt) : (s.setPort p x).eth = s.eth := rfl
@[simp] theorem State.setPort_board (s : State) (p : Nat) (x : PortSt) : (s.setPort p x).board = s.board := rfl
@[simp] theorem State.setPort_boot (s : State) (p : Nat) (x : PortSt) : (s.setPort p x).boot = s.boot := rfl
@[simp] theorem State.setPort_gauge (s : State) (p : Nat) (x : PortSt) : (s.setPort p x).gauge = s.gauge := rfl
@[simp] theorem State.setPort_flash (s : State) (p : Nat) (x : PortSt) : (s.setPort p x).flash = s.flash := rfl
@[simp] theorem State.setPort_service (s : State) (p : Nat) (x : PortSt) : (s.setPort p x).service = s.service := rfl
@[simp] theorem State.setPort_ev (s : State) (p : Nat) (x : PortSt) : (s.setPort p x).ev = s.ev := rfl
@[simp] theorem State.setPort_dap (s : State) (p : Nat) (x : PortSt) : (s.setPort p x).dap = s.dap := rfl
@[simp] theorem State.setPort_cores (s : State) (p : Nat) (x : PortSt) : (s.setPort p x).cores = s.cores := rfl
@[simp] theorem State.setPort_mem (s : State) (p : Nat) (x : PortSt) : (s.setPort p x).mem = s.mem := rfl
@[simp] theorem State.setPort_dma (s : State) (p : Nat) (x : PortSt) : (s.setPort p x).dma = s.dma := rfl
@[simp] theorem State.setPort_poisonHere (s : State) (p : Nat) (x : PortSt) : (s.setPort p x).poisonHere = s.poisonHere := rfl
@[simp] theorem State.setPort_job (s : State) (p : Nat) (x : PortSt) : (s.setPort p x).job = s.job := rfl
@[simp] theorem State.setPort_coll (s : State) (p : Nat) (x : PortSt) : (s.setPort p x).coll = s.coll := rfl
@[simp] theorem State.setPort_upd (s : State) (p : Nat) (x : PortSt) : (s.setPort p x).upd = s.upd := rfl
@[simp] theorem State.setPort_feed (s : State) (p : Nat) (x : PortSt) : (s.setPort p x).feed = s.feed := rfl
@[simp] theorem State.setPort_resh (s : State) (p : Nat) (x : PortSt) : (s.setPort p x).resh = s.resh := rfl
@[simp] theorem State.setPort_fxp (s : State) (p : Nat) (x : PortSt) : (s.setPort p x).fxp = s.fxp := rfl
@[simp] theorem State.setPort_fed (s : State) (p : Nat) (x : PortSt) : (s.setPort p x).fed = s.fed := rfl
@[simp] theorem State.setPort_cipher (s : State) (p : Nat) (x : PortSt) : (s.setPort p x).cipher = s.cipher := rfl
@[simp] theorem State.setPort_ten (s : State) (p : Nat) (x : PortSt) : (s.setPort p x).ten = s.ten := rfl
@[simp] theorem State.setPort_stream (s : State) (p : Nat) (x : PortSt) : (s.setPort p x).stream = s.stream := rfl
@[simp] theorem State.setPort_snap (s : State) (p : Nat) (x : PortSt) : (s.setPort p x).snap = s.snap := rfl

/-! ### setXfer -/

@[simp] theorem State.setXfer_pending (s : State) (i : Nat) (x : Xfer) : (s.setXfer i x).pending = s.pending := rfl
@[simp] theorem State.setXfer_freeCtr (s : State) (i : Nat) (x : Xfer) : (s.setXfer i x).freeCtr = s.freeCtr := rfl
@[simp] theorem State.setXfer_outbox (s : State) (i : Nat) (x : Xfer) : (s.setXfer i x).outbox = s.outbox := rfl
@[simp] theorem State.setXfer_objs (s : State) (i : Nat) (x : Xfer) : (s.setXfer i x).objs = s.objs := rfl
@[simp] theorem State.setXfer_doms (s : State) (i : Nat) (x : Xfer) : (s.setXfer i x).doms = s.doms := rfl
@[simp] theorem State.setXfer_pwr (s : State) (i : Nat) (x : Xfer) : (s.setXfer i x).pwr = s.pwr := rfl
@[simp] theorem State.setXfer_tb (s : State) (i : Nat) (x : Xfer) : (s.setXfer i x).tb = s.tb := rfl
@[simp] theorem State.setXfer_eth (s : State) (i : Nat) (x : Xfer) : (s.setXfer i x).eth = s.eth := rfl
@[simp] theorem State.setXfer_board (s : State) (i : Nat) (x : Xfer) : (s.setXfer i x).board = s.board := rfl
@[simp] theorem State.setXfer_boot (s : State) (i : Nat) (x : Xfer) : (s.setXfer i x).boot = s.boot := rfl
@[simp] theorem State.setXfer_gauge (s : State) (i : Nat) (x : Xfer) : (s.setXfer i x).gauge = s.gauge := rfl
@[simp] theorem State.setXfer_flash (s : State) (i : Nat) (x : Xfer) : (s.setXfer i x).flash = s.flash := rfl
@[simp] theorem State.setXfer_service (s : State) (i : Nat) (x : Xfer) : (s.setXfer i x).service = s.service := rfl
@[simp] theorem State.setXfer_ev (s : State) (i : Nat) (x : Xfer) : (s.setXfer i x).ev = s.ev := rfl
@[simp] theorem State.setXfer_dap (s : State) (i : Nat) (x : Xfer) : (s.setXfer i x).dap = s.dap := rfl
@[simp] theorem State.setXfer_cores (s : State) (i : Nat) (x : Xfer) : (s.setXfer i x).cores = s.cores := rfl
@[simp] theorem State.setXfer_mem (s : State) (i : Nat) (x : Xfer) : (s.setXfer i x).mem = s.mem := rfl
@[simp] theorem State.setXfer_poisonHere (s : State) (i : Nat) (x : Xfer) : (s.setXfer i x).poisonHere = s.poisonHere := rfl
@[simp] theorem State.setXfer_torus (s : State) (i : Nat) (x : Xfer) : (s.setXfer i x).torus = s.torus := rfl
@[simp] theorem State.setXfer_job (s : State) (i : Nat) (x : Xfer) : (s.setXfer i x).job = s.job := rfl
@[simp] theorem State.setXfer_coll (s : State) (i : Nat) (x : Xfer) : (s.setXfer i x).coll = s.coll := rfl
@[simp] theorem State.setXfer_upd (s : State) (i : Nat) (x : Xfer) : (s.setXfer i x).upd = s.upd := rfl
@[simp] theorem State.setXfer_feed (s : State) (i : Nat) (x : Xfer) : (s.setXfer i x).feed = s.feed := rfl
@[simp] theorem State.setXfer_resh (s : State) (i : Nat) (x : Xfer) : (s.setXfer i x).resh = s.resh := rfl
@[simp] theorem State.setXfer_fxp (s : State) (i : Nat) (x : Xfer) : (s.setXfer i x).fxp = s.fxp := rfl
@[simp] theorem State.setXfer_fed (s : State) (i : Nat) (x : Xfer) : (s.setXfer i x).fed = s.fed := rfl
@[simp] theorem State.setXfer_cipher (s : State) (i : Nat) (x : Xfer) : (s.setXfer i x).cipher = s.cipher := rfl
@[simp] theorem State.setXfer_ten (s : State) (i : Nat) (x : Xfer) : (s.setXfer i x).ten = s.ten := rfl
@[simp] theorem State.setXfer_stream (s : State) (i : Nat) (x : Xfer) : (s.setXfer i x).stream = s.stream := rfl
@[simp] theorem State.setXfer_snap (s : State) (i : Nat) (x : Xfer) : (s.setXfer i x).snap = s.snap := rfl

/-! ### setKeySlot -/

@[simp] theorem State.setKeySlot_pending (s : State) (i : Nat) (x : CipherSlot) : (s.setKeySlot i x).pending = s.pending := rfl
@[simp] theorem State.setKeySlot_freeCtr (s : State) (i : Nat) (x : CipherSlot) : (s.setKeySlot i x).freeCtr = s.freeCtr := rfl
@[simp] theorem State.setKeySlot_outbox (s : State) (i : Nat) (x : CipherSlot) : (s.setKeySlot i x).outbox = s.outbox := rfl
@[simp] theorem State.setKeySlot_objs (s : State) (i : Nat) (x : CipherSlot) : (s.setKeySlot i x).objs = s.objs := rfl
@[simp] theorem State.setKeySlot_doms (s : State) (i : Nat) (x : CipherSlot) : (s.setKeySlot i x).doms = s.doms := rfl
@[simp] theorem State.setKeySlot_pwr (s : State) (i : Nat) (x : CipherSlot) : (s.setKeySlot i x).pwr = s.pwr := rfl
@[simp] theorem State.setKeySlot_tb (s : State) (i : Nat) (x : CipherSlot) : (s.setKeySlot i x).tb = s.tb := rfl
@[simp] theorem State.setKeySlot_eth (s : State) (i : Nat) (x : CipherSlot) : (s.setKeySlot i x).eth = s.eth := rfl
@[simp] theorem State.setKeySlot_board (s : State) (i : Nat) (x : CipherSlot) : (s.setKeySlot i x).board = s.board := rfl
@[simp] theorem State.setKeySlot_boot (s : State) (i : Nat) (x : CipherSlot) : (s.setKeySlot i x).boot = s.boot := rfl
@[simp] theorem State.setKeySlot_gauge (s : State) (i : Nat) (x : CipherSlot) : (s.setKeySlot i x).gauge = s.gauge := rfl
@[simp] theorem State.setKeySlot_flash (s : State) (i : Nat) (x : CipherSlot) : (s.setKeySlot i x).flash = s.flash := rfl
@[simp] theorem State.setKeySlot_service (s : State) (i : Nat) (x : CipherSlot) : (s.setKeySlot i x).service = s.service := rfl
@[simp] theorem State.setKeySlot_ev (s : State) (i : Nat) (x : CipherSlot) : (s.setKeySlot i x).ev = s.ev := rfl
@[simp] theorem State.setKeySlot_dap (s : State) (i : Nat) (x : CipherSlot) : (s.setKeySlot i x).dap = s.dap := rfl
@[simp] theorem State.setKeySlot_cores (s : State) (i : Nat) (x : CipherSlot) : (s.setKeySlot i x).cores = s.cores := rfl
@[simp] theorem State.setKeySlot_mem (s : State) (i : Nat) (x : CipherSlot) : (s.setKeySlot i x).mem = s.mem := rfl
@[simp] theorem State.setKeySlot_dma (s : State) (i : Nat) (x : CipherSlot) : (s.setKeySlot i x).dma = s.dma := rfl
@[simp] theorem State.setKeySlot_poisonHere (s : State) (i : Nat) (x : CipherSlot) : (s.setKeySlot i x).poisonHere = s.poisonHere := rfl
@[simp] theorem State.setKeySlot_torus (s : State) (i : Nat) (x : CipherSlot) : (s.setKeySlot i x).torus = s.torus := rfl
@[simp] theorem State.setKeySlot_job (s : State) (i : Nat) (x : CipherSlot) : (s.setKeySlot i x).job = s.job := rfl
@[simp] theorem State.setKeySlot_coll (s : State) (i : Nat) (x : CipherSlot) : (s.setKeySlot i x).coll = s.coll := rfl
@[simp] theorem State.setKeySlot_upd (s : State) (i : Nat) (x : CipherSlot) : (s.setKeySlot i x).upd = s.upd := rfl
@[simp] theorem State.setKeySlot_feed (s : State) (i : Nat) (x : CipherSlot) : (s.setKeySlot i x).feed = s.feed := rfl
@[simp] theorem State.setKeySlot_resh (s : State) (i : Nat) (x : CipherSlot) : (s.setKeySlot i x).resh = s.resh := rfl
@[simp] theorem State.setKeySlot_fxp (s : State) (i : Nat) (x : CipherSlot) : (s.setKeySlot i x).fxp = s.fxp := rfl
@[simp] theorem State.setKeySlot_fed (s : State) (i : Nat) (x : CipherSlot) : (s.setKeySlot i x).fed = s.fed := rfl
@[simp] theorem State.setKeySlot_ten (s : State) (i : Nat) (x : CipherSlot) : (s.setKeySlot i x).ten = s.ten := rfl
@[simp] theorem State.setKeySlot_stream (s : State) (i : Nat) (x : CipherSlot) : (s.setKeySlot i x).stream = s.stream := rfl
@[simp] theorem State.setKeySlot_snap (s : State) (i : Nat) (x : CipherSlot) : (s.setKeySlot i x).snap = s.snap := rfl

/-! ### Reads after writes -/

@[simp] theorem State.obj_setObj (s : State) (k v : Nat) : (s.setObj k v).obj k = v := Sparse.get_set_self _ _ _ _
theorem State.obj_setObj_of_ne (s : State) {j k : Nat} (v : Nat) (h : j ≠ k) : (s.setObj k v).obj j = s.obj j :=
  Sparse.get_set_of_ne _ _ _ h
theorem State.obj_setObj_if (s : State) (j k v : Nat) : (s.setObj k v).obj j = if j = k then v else s.obj j :=
  Sparse.get_set _ _ _ _ _
@[simp] theorem State.dom_setDom (s : State) (k : Nat) (v : List Byte) : (s.setDom k v).dom k = v := Sparse.get_set_self _ _ _ _
theorem State.dom_setDom_of_ne (s : State) {j k : Nat} (v : List Byte) (h : j ≠ k) : (s.setDom k v).dom j = s.dom j :=
  Sparse.get_set_of_ne _ _ _ h
@[simp] theorem State.session_setSession (s : State) (i : Nat) (x : Session) : (s.setSession i x).session i = x :=
  Sparse.get_set_self _ _ _ _
theorem State.session_setSession_of_ne (s : State) {j i : Nat} (x : Session) (h : j ≠ i) :
    (s.setSession i x).session j = s.session j := Sparse.get_set_of_ne _ _ _ h
@[simp] theorem State.core_setCore (s : State) (i : Nat) (x : CoreSt) : (s.setCore i x).core i = x := Sparse.get_set_self _ _ _ _
theorem State.core_setCore_of_ne (s : State) {j i : Nat} (x : CoreSt) (h : j ≠ i) : (s.setCore i x).core j = s.core j :=
  Sparse.get_set_of_ne _ _ _ h
@[simp] theorem State.core_modCore (s : State) (i : Nat) (f : CoreSt → CoreSt) : (s.modCore i f).core i = f (s.core i) :=
  Sparse.get_set_self _ _ _ _
@[simp] theorem State.core_modCtx (s : State) (i : Nat) (c : CtxId) (f : Ctx → Ctx) :
    (s.modCtx i c f).core i = (s.core i).setCtx c (f ((s.core i).ctx c)) := Sparse.get_set_self _ _ _ _
@[simp] theorem State.core_modTile (s : State) (i : Nat) (c : CtxId) (t : Nat) (f : Tile → Tile) :
    (s.modTile i c t f).core i = (s.core i).setTile c t (f ((s.core i).tile c t)) := Sparse.get_set_self _ _ _ _
@[simp] theorem State.port_setPort (s : State) (p : Nat) (x : PortSt) : (s.setPort p x).port p = x := Sparse.get_set_self _ _ _ _
theorem State.port_setPort_of_ne (s : State) {j p : Nat} (x : PortSt) (h : j ≠ p) : (s.setPort p x).port j = s.port j :=
  Sparse.get_set_of_ne _ _ _ h
@[simp] theorem State.ethSt_setEth (s : State) (e : Nat) (x : EthSt) : (s.setEth e x).ethSt e = x := Sparse.get_set_self _ _ _ _

@[simp] theorem CoreSt.ctx_setCtx (x : CoreSt) (c : CtxId) (y : Ctx) : (x.setCtx c y).ctx c = y := by cases c <;> rfl
theorem CoreSt.ctx_setCtx_of_ne (x : CoreSt) {c d : CtxId} (y : Ctx) (h : d ≠ c) : (x.setCtx c y).ctx d = x.ctx d := by
  cases c <;> cases d <;> first | rfl | exact absurd rfl h
@[simp] theorem CoreSt.tile_setTile (x : CoreSt) (c : CtxId) (t : Nat) (y : Tile) : (x.setTile c t y).tile c t = y :=
  Sparse.get_set_self _ _ _ _
@[simp] theorem CoreSt.setCtx_tiles (x : CoreSt) (c : CtxId) (y : Ctx) : (x.setCtx c y).tiles = x.tiles := by cases c <;> rfl
@[simp] theorem CoreSt.setCtx_acc (x : CoreSt) (c : CtxId) (y : Ctx) : (x.setCtx c y).acc = x.acc := by cases c <;> rfl
@[simp] theorem CoreSt.setTile_ctx (x : CoreSt) (c d : CtxId) (t : Nat) (y : Tile) : (x.setTile c t y).ctx d = x.ctx d := by
  cases d <;> rfl
@[simp] theorem CoreSt.setTile_acc (x : CoreSt) (c : CtxId) (t : Nat) (y : Tile) : (x.setTile c t y).acc = x.acc := rfl
@[simp] theorem CoreSt.accAt_setAcc (x : CoreSt) (i : Nat) (v : Int) : (x.setAcc i v).accAt i = v := Sparse.get_set_self _ _ _ _

/-! ### Messages -/

theorem State.emit_outbox (s : State) (m : Msg) : (s.emit m).outbox = s.outbox ++ [m] := by
  unfold State.emit; cases m.ethPort <;> simp

@[simp] theorem State.emit_pending (s : State) (m : Msg) : (s.emit m).pending = s.pending := by
  unfold State.emit; cases h : m.ethPort <;> simp
@[simp] theorem State.emit_freeCtr (s : State) (m : Msg) : (s.emit m).freeCtr = s.freeCtr := by
  unfold State.emit; cases h : m.ethPort <;> simp
@[simp] theorem State.emit_objs (s : State) (m : Msg) : (s.emit m).objs = s.objs := by
  unfold State.emit; cases h : m.ethPort <;> simp
@[simp] theorem State.emit_doms (s : State) (m : Msg) : (s.emit m).doms = s.doms := by
  unfold State.emit; cases h : m.ethPort <;> simp
@[simp] theorem State.emit_pwr (s : State) (m : Msg) : (s.emit m).pwr = s.pwr := by
  unfold State.emit; cases h : m.ethPort <;> simp
@[simp] theorem State.emit_tb (s : State) (m : Msg) : (s.emit m).tb = s.tb := by
  unfold State.emit; cases h : m.ethPort <;> simp
@[simp] theorem State.emit_board (s : State) (m : Msg) : (s.emit m).board = s.board := by
  unfold State.emit; cases h : m.ethPort <;> simp
@[simp] theorem State.emit_boot (s : State) (m : Msg) : (s.emit m).boot = s.boot := by
  unfold State.emit; cases h : m.ethPort <;> simp
@[simp] theorem State.emit_gauge (s : State) (m : Msg) : (s.emit m).gauge = s.gauge := by
  unfold State.emit; cases h : m.ethPort <;> simp
@[simp] theorem State.emit_flash (s : State) (m : Msg) : (s.emit m).flash = s.flash := by
  unfold State.emit; cases h : m.ethPort <;> simp
@[simp] theorem State.emit_service (s : State) (m : Msg) : (s.emit m).service = s.service := by
  unfold State.emit; cases h : m.ethPort <;> simp
@[simp] theorem State.emit_ev (s : State) (m : Msg) : (s.emit m).ev = s.ev := by
  unfold State.emit; cases h : m.ethPort <;> simp
@[simp] theorem State.emit_dap (s : State) (m : Msg) : (s.emit m).dap = s.dap := by
  unfold State.emit; cases h : m.ethPort <;> simp
@[simp] theorem State.emit_cores (s : State) (m : Msg) : (s.emit m).cores = s.cores := by
  unfold State.emit; cases h : m.ethPort <;> simp
@[simp] theorem State.emit_mem (s : State) (m : Msg) : (s.emit m).mem = s.mem := by
  unfold State.emit; cases h : m.ethPort <;> simp
@[simp] theorem State.emit_dma (s : State) (m : Msg) : (s.emit m).dma = s.dma := by
  unfold State.emit; cases h : m.ethPort <;> simp
@[simp] theorem State.emit_poisonHere (s : State) (m : Msg) : (s.emit m).poisonHere = s.poisonHere := by
  unfold State.emit; cases h : m.ethPort <;> simp
@[simp] theorem State.emit_torus (s : State) (m : Msg) : (s.emit m).torus = s.torus := by
  unfold State.emit; cases h : m.ethPort <;> simp
@[simp] theorem State.emit_job (s : State) (m : Msg) : (s.emit m).job = s.job := by
  unfold State.emit; cases h : m.ethPort <;> simp
@[simp] theorem State.emit_coll (s : State) (m : Msg) : (s.emit m).coll = s.coll := by
  unfold State.emit; cases h : m.ethPort <;> simp
@[simp] theorem State.emit_upd (s : State) (m : Msg) : (s.emit m).upd = s.upd := by
  unfold State.emit; cases h : m.ethPort <;> simp
@[simp] theorem State.emit_feed (s : State) (m : Msg) : (s.emit m).feed = s.feed := by
  unfold State.emit; cases h : m.ethPort <;> simp
@[simp] theorem State.emit_resh (s : State) (m : Msg) : (s.emit m).resh = s.resh := by
  unfold State.emit; cases h : m.ethPort <;> simp
@[simp] theorem State.emit_fxp (s : State) (m : Msg) : (s.emit m).fxp = s.fxp := by
  unfold State.emit; cases h : m.ethPort <;> simp
@[simp] theorem State.emit_fed (s : State) (m : Msg) : (s.emit m).fed = s.fed := by
  unfold State.emit; cases h : m.ethPort <;> simp
@[simp] theorem State.emit_cipher (s : State) (m : Msg) : (s.emit m).cipher = s.cipher := by
  unfold State.emit; cases h : m.ethPort <;> simp
@[simp] theorem State.emit_ten (s : State) (m : Msg) : (s.emit m).ten = s.ten := by
  unfold State.emit; cases h : m.ethPort <;> simp
@[simp] theorem State.emit_stream (s : State) (m : Msg) : (s.emit m).stream = s.stream := by
  unfold State.emit; cases h : m.ethPort <;> simp
@[simp] theorem State.emit_snap (s : State) (m : Msg) : (s.emit m).snap = s.snap := by
  unfold State.emit; cases h : m.ethPort <;> simp

/-! ### Reports and occurrences -/

theorem State.foldl_keeps {α β : Type} (g : State → β) (f : State → α → State) (h : ∀ s a, g (f s a) = g s) (s : State)
    (l : List α) : g (l.foldl f s) = g s := by
  induction l generalizing s with
  | nil => rfl
  | cons a l ih => rw [List.foldl_cons, ih, h]

@[simp] theorem State.report_pending (s : State) (i src : Nat) (d : BitVec 64) : (s.report i src d).pending = s.pending := by
  unfold State.report State.sendDap; dsimp only; split <;> simp
@[simp] theorem State.report_freeCtr (s : State) (i src : Nat) (d : BitVec 64) : (s.report i src d).freeCtr = s.freeCtr := by
  unfold State.report State.sendDap; dsimp only; split <;> simp
@[simp] theorem State.report_doms (s : State) (i src : Nat) (d : BitVec 64) : (s.report i src d).doms = s.doms := by
  unfold State.report State.sendDap; dsimp only; split <;> simp
@[simp] theorem State.report_pwr (s : State) (i src : Nat) (d : BitVec 64) : (s.report i src d).pwr = s.pwr := by
  unfold State.report State.sendDap; dsimp only; split <;> simp
@[simp] theorem State.report_tb (s : State) (i src : Nat) (d : BitVec 64) : (s.report i src d).tb = s.tb := by
  unfold State.report State.sendDap; dsimp only; split <;> simp
@[simp] theorem State.report_board (s : State) (i src : Nat) (d : BitVec 64) : (s.report i src d).board = s.board := by
  unfold State.report State.sendDap; dsimp only; split <;> simp
@[simp] theorem State.report_boot (s : State) (i src : Nat) (d : BitVec 64) : (s.report i src d).boot = s.boot := by
  unfold State.report State.sendDap; dsimp only; split <;> simp
@[simp] theorem State.report_gauge (s : State) (i src : Nat) (d : BitVec 64) : (s.report i src d).gauge = s.gauge := by
  unfold State.report State.sendDap; dsimp only; split <;> simp
@[simp] theorem State.report_flash (s : State) (i src : Nat) (d : BitVec 64) : (s.report i src d).flash = s.flash := by
  unfold State.report State.sendDap; dsimp only; split <;> simp
@[simp] theorem State.report_service (s : State) (i src : Nat) (d : BitVec 64) : (s.report i src d).service = s.service := by
  unfold State.report State.sendDap; dsimp only; split <;> simp
@[simp] theorem State.report_cores (s : State) (i src : Nat) (d : BitVec 64) : (s.report i src d).cores = s.cores := by
  unfold State.report State.sendDap; dsimp only; split <;> simp
@[simp] theorem State.report_mem (s : State) (i src : Nat) (d : BitVec 64) : (s.report i src d).mem = s.mem := by
  unfold State.report State.sendDap; dsimp only; split <;> simp
@[simp] theorem State.report_dma (s : State) (i src : Nat) (d : BitVec 64) : (s.report i src d).dma = s.dma := by
  unfold State.report State.sendDap; dsimp only; split <;> simp
@[simp] theorem State.report_poisonHere (s : State) (i src : Nat) (d : BitVec 64) : (s.report i src d).poisonHere = s.poisonHere := by
  unfold State.report State.sendDap; dsimp only; split <;> simp
@[simp] theorem State.report_torus (s : State) (i src : Nat) (d : BitVec 64) : (s.report i src d).torus = s.torus := by
  unfold State.report State.sendDap; dsimp only; split <;> simp
@[simp] theorem State.report_job (s : State) (i src : Nat) (d : BitVec 64) : (s.report i src d).job = s.job := by
  unfold State.report State.sendDap; dsimp only; split <;> simp
@[simp] theorem State.report_coll (s : State) (i src : Nat) (d : BitVec 64) : (s.report i src d).coll = s.coll := by
  unfold State.report State.sendDap; dsimp only; split <;> simp
@[simp] theorem State.report_upd (s : State) (i src : Nat) (d : BitVec 64) : (s.report i src d).upd = s.upd := by
  unfold State.report State.sendDap; dsimp only; split <;> simp
@[simp] theorem State.report_feed (s : State) (i src : Nat) (d : BitVec 64) : (s.report i src d).feed = s.feed := by
  unfold State.report State.sendDap; dsimp only; split <;> simp
@[simp] theorem State.report_resh (s : State) (i src : Nat) (d : BitVec 64) : (s.report i src d).resh = s.resh := by
  unfold State.report State.sendDap; dsimp only; split <;> simp
@[simp] theorem State.report_fxp (s : State) (i src : Nat) (d : BitVec 64) : (s.report i src d).fxp = s.fxp := by
  unfold State.report State.sendDap; dsimp only; split <;> simp
@[simp] theorem State.report_fed (s : State) (i src : Nat) (d : BitVec 64) : (s.report i src d).fed = s.fed := by
  unfold State.report State.sendDap; dsimp only; split <;> simp
@[simp] theorem State.report_cipher (s : State) (i src : Nat) (d : BitVec 64) : (s.report i src d).cipher = s.cipher := by
  unfold State.report State.sendDap; dsimp only; split <;> simp
@[simp] theorem State.report_ten (s : State) (i src : Nat) (d : BitVec 64) : (s.report i src d).ten = s.ten := by
  unfold State.report State.sendDap; dsimp only; split <;> simp
@[simp] theorem State.report_stream (s : State) (i src : Nat) (d : BitVec 64) : (s.report i src d).stream = s.stream := by
  unfold State.report State.sendDap; dsimp only; split <;> simp
@[simp] theorem State.report_snap (s : State) (i src : Nat) (d : BitVec 64) : (s.report i src d).snap = s.snap := by
  unfold State.report State.sendDap; dsimp only; split <;> simp
@[simp] theorem State.raise_pending (s : State) (src : Nat) (d : BitVec 64) : (s.raise src d).pending = s.pending := by
  have h : ((s.subscribers src).foldl (fun s i => s.report i src d) s).pending = s.pending :=
    State.foldl_keeps State.pending _ (fun _ _ => State.report_pending ..) _ _
  unfold State.raise; dsimp only; split <;> split <;> simp [h]
@[simp] theorem State.raise_freeCtr (s : State) (src : Nat) (d : BitVec 64) : (s.raise src d).freeCtr = s.freeCtr := by
  have h : ((s.subscribers src).foldl (fun s i => s.report i src d) s).freeCtr = s.freeCtr :=
    State.foldl_keeps State.freeCtr _ (fun _ _ => State.report_freeCtr ..) _ _
  unfold State.raise; dsimp only; split <;> split <;> simp [h]
@[simp] theorem State.raise_doms (s : State) (src : Nat) (d : BitVec 64) : (s.raise src d).doms = s.doms := by
  have h : ((s.subscribers src).foldl (fun s i => s.report i src d) s).doms = s.doms :=
    State.foldl_keeps State.doms _ (fun _ _ => State.report_doms ..) _ _
  unfold State.raise; dsimp only; split <;> split <;> simp [h]
@[simp] theorem State.raise_pwr (s : State) (src : Nat) (d : BitVec 64) : (s.raise src d).pwr = s.pwr := by
  have h : ((s.subscribers src).foldl (fun s i => s.report i src d) s).pwr = s.pwr :=
    State.foldl_keeps State.pwr _ (fun _ _ => State.report_pwr ..) _ _
  unfold State.raise; dsimp only; split <;> split <;> simp [h]
@[simp] theorem State.raise_tb (s : State) (src : Nat) (d : BitVec 64) : (s.raise src d).tb = s.tb := by
  have h : ((s.subscribers src).foldl (fun s i => s.report i src d) s).tb = s.tb :=
    State.foldl_keeps State.tb _ (fun _ _ => State.report_tb ..) _ _
  unfold State.raise; dsimp only; split <;> split <;> simp [h]
@[simp] theorem State.raise_board (s : State) (src : Nat) (d : BitVec 64) : (s.raise src d).board = s.board := by
  have h : ((s.subscribers src).foldl (fun s i => s.report i src d) s).board = s.board :=
    State.foldl_keeps State.board _ (fun _ _ => State.report_board ..) _ _
  unfold State.raise; dsimp only; split <;> split <;> simp [h]
@[simp] theorem State.raise_boot (s : State) (src : Nat) (d : BitVec 64) : (s.raise src d).boot = s.boot := by
  have h : ((s.subscribers src).foldl (fun s i => s.report i src d) s).boot = s.boot :=
    State.foldl_keeps State.boot _ (fun _ _ => State.report_boot ..) _ _
  unfold State.raise; dsimp only; split <;> split <;> simp [h]
@[simp] theorem State.raise_gauge (s : State) (src : Nat) (d : BitVec 64) : (s.raise src d).gauge = s.gauge := by
  have h : ((s.subscribers src).foldl (fun s i => s.report i src d) s).gauge = s.gauge :=
    State.foldl_keeps State.gauge _ (fun _ _ => State.report_gauge ..) _ _
  unfold State.raise; dsimp only; split <;> split <;> simp [h]
@[simp] theorem State.raise_flash (s : State) (src : Nat) (d : BitVec 64) : (s.raise src d).flash = s.flash := by
  have h : ((s.subscribers src).foldl (fun s i => s.report i src d) s).flash = s.flash :=
    State.foldl_keeps State.flash _ (fun _ _ => State.report_flash ..) _ _
  unfold State.raise; dsimp only; split <;> split <;> simp [h]
@[simp] theorem State.raise_service (s : State) (src : Nat) (d : BitVec 64) : (s.raise src d).service = s.service := by
  have h : ((s.subscribers src).foldl (fun s i => s.report i src d) s).service = s.service :=
    State.foldl_keeps State.service _ (fun _ _ => State.report_service ..) _ _
  unfold State.raise; dsimp only; split <;> split <;> simp [h]
@[simp] theorem State.raise_cores (s : State) (src : Nat) (d : BitVec 64) : (s.raise src d).cores = s.cores := by
  have h : ((s.subscribers src).foldl (fun s i => s.report i src d) s).cores = s.cores :=
    State.foldl_keeps State.cores _ (fun _ _ => State.report_cores ..) _ _
  unfold State.raise; dsimp only; split <;> split <;> simp [h]
@[simp] theorem State.raise_mem (s : State) (src : Nat) (d : BitVec 64) : (s.raise src d).mem = s.mem := by
  have h : ((s.subscribers src).foldl (fun s i => s.report i src d) s).mem = s.mem :=
    State.foldl_keeps State.mem _ (fun _ _ => State.report_mem ..) _ _
  unfold State.raise; dsimp only; split <;> split <;> simp [h]
@[simp] theorem State.raise_dma (s : State) (src : Nat) (d : BitVec 64) : (s.raise src d).dma = s.dma := by
  have h : ((s.subscribers src).foldl (fun s i => s.report i src d) s).dma = s.dma :=
    State.foldl_keeps State.dma _ (fun _ _ => State.report_dma ..) _ _
  unfold State.raise; dsimp only; split <;> split <;> simp [h]
@[simp] theorem State.raise_poisonHere (s : State) (src : Nat) (d : BitVec 64) : (s.raise src d).poisonHere = s.poisonHere := by
  have h : ((s.subscribers src).foldl (fun s i => s.report i src d) s).poisonHere = s.poisonHere :=
    State.foldl_keeps State.poisonHere _ (fun _ _ => State.report_poisonHere ..) _ _
  unfold State.raise; dsimp only; split <;> split <;> simp [h]
@[simp] theorem State.raise_torus (s : State) (src : Nat) (d : BitVec 64) : (s.raise src d).torus = s.torus := by
  have h : ((s.subscribers src).foldl (fun s i => s.report i src d) s).torus = s.torus :=
    State.foldl_keeps State.torus _ (fun _ _ => State.report_torus ..) _ _
  unfold State.raise; dsimp only; split <;> split <;> simp [h]
@[simp] theorem State.raise_job (s : State) (src : Nat) (d : BitVec 64) : (s.raise src d).job = s.job := by
  have h : ((s.subscribers src).foldl (fun s i => s.report i src d) s).job = s.job :=
    State.foldl_keeps State.job _ (fun _ _ => State.report_job ..) _ _
  unfold State.raise; dsimp only; split <;> split <;> simp [h]
@[simp] theorem State.raise_coll (s : State) (src : Nat) (d : BitVec 64) : (s.raise src d).coll = s.coll := by
  have h : ((s.subscribers src).foldl (fun s i => s.report i src d) s).coll = s.coll :=
    State.foldl_keeps State.coll _ (fun _ _ => State.report_coll ..) _ _
  unfold State.raise; dsimp only; split <;> split <;> simp [h]
@[simp] theorem State.raise_upd (s : State) (src : Nat) (d : BitVec 64) : (s.raise src d).upd = s.upd := by
  have h : ((s.subscribers src).foldl (fun s i => s.report i src d) s).upd = s.upd :=
    State.foldl_keeps State.upd _ (fun _ _ => State.report_upd ..) _ _
  unfold State.raise; dsimp only; split <;> split <;> simp [h]
@[simp] theorem State.raise_feed (s : State) (src : Nat) (d : BitVec 64) : (s.raise src d).feed = s.feed := by
  have h : ((s.subscribers src).foldl (fun s i => s.report i src d) s).feed = s.feed :=
    State.foldl_keeps State.feed _ (fun _ _ => State.report_feed ..) _ _
  unfold State.raise; dsimp only; split <;> split <;> simp [h]
@[simp] theorem State.raise_resh (s : State) (src : Nat) (d : BitVec 64) : (s.raise src d).resh = s.resh := by
  have h : ((s.subscribers src).foldl (fun s i => s.report i src d) s).resh = s.resh :=
    State.foldl_keeps State.resh _ (fun _ _ => State.report_resh ..) _ _
  unfold State.raise; dsimp only; split <;> split <;> simp [h]
@[simp] theorem State.raise_fxp (s : State) (src : Nat) (d : BitVec 64) : (s.raise src d).fxp = s.fxp := by
  have h : ((s.subscribers src).foldl (fun s i => s.report i src d) s).fxp = s.fxp :=
    State.foldl_keeps State.fxp _ (fun _ _ => State.report_fxp ..) _ _
  unfold State.raise; dsimp only; split <;> split <;> simp [h]
@[simp] theorem State.raise_fed (s : State) (src : Nat) (d : BitVec 64) : (s.raise src d).fed = s.fed := by
  have h : ((s.subscribers src).foldl (fun s i => s.report i src d) s).fed = s.fed :=
    State.foldl_keeps State.fed _ (fun _ _ => State.report_fed ..) _ _
  unfold State.raise; dsimp only; split <;> split <;> simp [h]
@[simp] theorem State.raise_cipher (s : State) (src : Nat) (d : BitVec 64) : (s.raise src d).cipher = s.cipher := by
  have h : ((s.subscribers src).foldl (fun s i => s.report i src d) s).cipher = s.cipher :=
    State.foldl_keeps State.cipher _ (fun _ _ => State.report_cipher ..) _ _
  unfold State.raise; dsimp only; split <;> split <;> simp [h]
@[simp] theorem State.raise_ten (s : State) (src : Nat) (d : BitVec 64) : (s.raise src d).ten = s.ten := by
  have h : ((s.subscribers src).foldl (fun s i => s.report i src d) s).ten = s.ten :=
    State.foldl_keeps State.ten _ (fun _ _ => State.report_ten ..) _ _
  unfold State.raise; dsimp only; split <;> split <;> simp [h]
@[simp] theorem State.raise_stream (s : State) (src : Nat) (d : BitVec 64) : (s.raise src d).stream = s.stream := by
  have h : ((s.subscribers src).foldl (fun s i => s.report i src d) s).stream = s.stream :=
    State.foldl_keeps State.stream _ (fun _ _ => State.report_stream ..) _ _
  unfold State.raise; dsimp only; split <;> split <;> simp [h]
@[simp] theorem State.raise_snap (s : State) (src : Nat) (d : BitVec 64) : (s.raise src d).snap = s.snap := by
  have h : ((s.subscribers src).foldl (fun s i => s.report i src d) s).snap = s.snap :=
    State.foldl_keeps State.snap _ (fun _ _ => State.report_snap ..) _ _
  unfold State.raise; dsimp only; split <;> split <;> simp [h]
@[simp] theorem State.raiseN_pending (s : State) (src d : Nat) : (s.raiseN src d).pending = s.pending := State.raise_pending ..
@[simp] theorem State.raiseN_freeCtr (s : State) (src d : Nat) : (s.raiseN src d).freeCtr = s.freeCtr := State.raise_freeCtr ..
@[simp] theorem State.raiseN_doms (s : State) (src d : Nat) : (s.raiseN src d).doms = s.doms := State.raise_doms ..
@[simp] theorem State.raiseN_pwr (s : State) (src d : Nat) : (s.raiseN src d).pwr = s.pwr := State.raise_pwr ..
@[simp] theorem State.raiseN_tb (s : State) (src d : Nat) : (s.raiseN src d).tb = s.tb := State.raise_tb ..
@[simp] theorem State.raiseN_board (s : State) (src d : Nat) : (s.raiseN src d).board = s.board := State.raise_board ..
@[simp] theorem State.raiseN_boot (s : State) (src d : Nat) : (s.raiseN src d).boot = s.boot := State.raise_boot ..
@[simp] theorem State.raiseN_gauge (s : State) (src d : Nat) : (s.raiseN src d).gauge = s.gauge := State.raise_gauge ..
@[simp] theorem State.raiseN_flash (s : State) (src d : Nat) : (s.raiseN src d).flash = s.flash := State.raise_flash ..
@[simp] theorem State.raiseN_service (s : State) (src d : Nat) : (s.raiseN src d).service = s.service := State.raise_service ..
@[simp] theorem State.raiseN_cores (s : State) (src d : Nat) : (s.raiseN src d).cores = s.cores := State.raise_cores ..
@[simp] theorem State.raiseN_mem (s : State) (src d : Nat) : (s.raiseN src d).mem = s.mem := State.raise_mem ..
@[simp] theorem State.raiseN_dma (s : State) (src d : Nat) : (s.raiseN src d).dma = s.dma := State.raise_dma ..
@[simp] theorem State.raiseN_poisonHere (s : State) (src d : Nat) : (s.raiseN src d).poisonHere = s.poisonHere := State.raise_poisonHere ..
@[simp] theorem State.raiseN_torus (s : State) (src d : Nat) : (s.raiseN src d).torus = s.torus := State.raise_torus ..
@[simp] theorem State.raiseN_job (s : State) (src d : Nat) : (s.raiseN src d).job = s.job := State.raise_job ..
@[simp] theorem State.raiseN_coll (s : State) (src d : Nat) : (s.raiseN src d).coll = s.coll := State.raise_coll ..
@[simp] theorem State.raiseN_upd (s : State) (src d : Nat) : (s.raiseN src d).upd = s.upd := State.raise_upd ..
@[simp] theorem State.raiseN_feed (s : State) (src d : Nat) : (s.raiseN src d).feed = s.feed := State.raise_feed ..
@[simp] theorem State.raiseN_resh (s : State) (src d : Nat) : (s.raiseN src d).resh = s.resh := State.raise_resh ..
@[simp] theorem State.raiseN_fxp (s : State) (src d : Nat) : (s.raiseN src d).fxp = s.fxp := State.raise_fxp ..
@[simp] theorem State.raiseN_fed (s : State) (src d : Nat) : (s.raiseN src d).fed = s.fed := State.raise_fed ..
@[simp] theorem State.raiseN_cipher (s : State) (src d : Nat) : (s.raiseN src d).cipher = s.cipher := State.raise_cipher ..
@[simp] theorem State.raiseN_ten (s : State) (src d : Nat) : (s.raiseN src d).ten = s.ten := State.raise_ten ..
@[simp] theorem State.raiseN_stream (s : State) (src d : Nat) : (s.raiseN src d).stream = s.stream := State.raise_stream ..
@[simp] theorem State.raiseN_snap (s : State) (src d : Nat) : (s.raiseN src d).snap = s.snap := State.raise_snap ..

theorem State.obj_bump_of_ne (s : State) {j k : Nat} (n w : Nat) (h : j ≠ k) : (s.bump k n w).obj j = s.obj j :=
  State.obj_setObj_of_ne _ _ h
theorem State.obj_inc32_of_ne (s : State) {j k : Nat} (h : j ≠ k) : (s.inc32 k).obj j = s.obj j := State.obj_setObj_of_ne _ _ h
theorem State.obj_inc64_of_ne (s : State) {j k : Nat} (h : j ≠ k) : (s.inc64 k).obj j = s.obj j := State.obj_setObj_of_ne _ _ h

/-- An object that no occurrence touches. -/
def quietObj (k : Nat) : Prop := k ≠ Obj.REPORTS_LOST ∧ k ≠ Obj.FORWARDED ∧ k ≠ Obj.OVERRUNS

theorem State.obj_report (s : State) (i src : Nat) (d : BitVec 64) {k : Nat} (h : k ≠ Obj.REPORTS_LOST) :
    (s.report i src d).obj k = s.obj k := by
  unfold State.report State.sendDap
  dsimp only
  split
  · rw [State.obj_inc32_of_ne _ h]; rfl
  · simp [State.obj]

/-- An occurrence changes the counters of reports, of forwarded occurrences and of overruns, and no other object. -/
theorem State.obj_raise (s : State) (src : Nat) (d : BitVec 64) {k : Nat} (h : quietObj k) : (s.raise src d).obj k = s.obj k := by
  have h1 : ((s.subscribers src).foldl (fun s i => s.report i src d) s).obj k = s.obj k :=
    State.foldl_keeps (fun s => s.obj k) _ (fun s i => State.obj_report s i src d h.1) _ _
  unfold State.raise
  dsimp only
  split <;> split
  · rw [State.obj_inc32_of_ne _ h.2.2]; exact h1
  · exact h1
  · rw [State.obj_inc32_of_ne _ h.2.2]
    exact (State.obj_inc64_of_ne _ h.2.1).trans h1
  · exact (State.obj_inc64_of_ne _ h.2.1).trans h1

theorem State.obj_raiseN (s : State) (src d : Nat) {k : Nat} (h : quietObj k) : (s.raiseN src d).obj k = s.obj k :=
  State.obj_raise s src _ h


/-! ### The step -/

theorem step_cons (c : Instr) (s : State) (rest : List Instr) (h : s.pending = c :: rest) :
    step s = exec c { s with pending := rest } := by simp [step, h]
theorem step_nil (s : State) (h : s.pending = []) : step s = .next s.tick := by simp [step, h]

end Sys2Proof.Machine
end

