-- ==== Sys2Proof/Laws/Memory.lean ====
section
/-! SUPPORT. Memory: what a read gives after a write, memory without errors, and that every operation keeps the canonical
form. -/

namespace Sys2Proof.Machine

/-! ### Reads after writes -/

/-- A write leaves every byte outside it. -/
theorem MemSt.byte_put_outside (m : MemSt) (a : Nat) (bs : List Byte) (j : Nat) (h : j < a ∨ a + bs.length ≤ j) :
    (m.put a bs).byte j = m.byte j := Sparse.get_setList_outside _ _ _ _ _ h

/-- A write of a list of bytes gives each address its byte. -/
theorem MemSt.byte_put_inside (m : MemSt) (a : Nat) (bs : List Byte) (i : Nat) (h : i < bs.length) :
    (m.put a bs).byte (a + i) = bs[i] := by
  have key : ∀ (d : Nat → Byte) (bs : List Byte) (s : Sparse Byte) (a i : Nat) (h : i < bs.length),
      Sparse.get d (Sparse.setList d s a bs) (a + i) = bs[i] := by
    intro d bs
    induction bs with
    | nil => intro s a i h; simp at h
    | cons b bs ih =>
      intro s a i h
      cases i with
      | zero =>
        rw [Sparse.setList, Sparse.get_setList_outside _ _ _ _ _ (.inl (by omega))]
        simp
      | succ i =>
        have h2 := ih (Sparse.set d s a b) (a + 1) i (by simpa using h)
        rw [Sparse.setList, show a + (i + 1) = a + 1 + i by omega, h2]
        simp
  exact key _ _ _ _ _ h

/-! ### Memory without errors -/

/-- No codeword is poisoned and none has symbols in error. -/
def MemSt.clean (m : MemSt) : Prop := m.poison = [] ∧ m.symErr = []

theorem MemSt.marked_clean (m : MemSt) (h : m.clean) (a n : Nat) : m.marked a n = [] := by
  simp [MemSt.marked, h.1, h.2]

/-- A read of memory without errors gives its bytes and changes nothing. -/
theorem State.readMem_clean (s : State) (h : s.mem.clean) (a n master : Nat) : s.readMem a n master = (s.mem.read a n, [], s) := by
  simp [State.readMem, MemSt.marked_clean _ h, State.readCws]

/-- A write to memory without errors changes its bytes and nothing else. -/
theorem State.writeMem_clean (s : State) (h : s.mem.clean) (a : Nat) (bs : List Byte) (master : Nat) :
    s.writeMem a bs master = { s with mem := s.mem.put a bs } := by
  simp [State.writeMem, MemSt.marked_clean _ h]

/-! ### The canonical form -/

theorem Memory.rising_cons {a : Nat} {l : List Nat} : Memory.rising (a :: l) = true ↔
    (∀ b ∈ l.head?, a < b) ∧ Memory.rising l = true := by
  cases l with
  | nil => simp [Memory.rising]
  | cons b l => simp [Memory.rising]

theorem Memory.rising_insNat (x : Nat) (l : List Nat) (h : Memory.rising l = true) : Memory.rising (insNat x l) = true := by
  induction l with
  | nil => rfl
  | cons y ys ih =>
    rw [Memory.rising_cons] at h
    unfold insNat
    split
    · rw [Memory.rising_cons]
      exact ⟨by simpa using ‹x < y›, by rw [Memory.rising_cons]; exact h⟩
    · split
      · rw [Memory.rising_cons]; exact h
      · rename_i h1 h2
        rw [Memory.rising_cons]
        refine ⟨?_, ih h.2⟩
        cases ys with
        | nil => simp [insNat]; omega
        | cons z zs =>
          have hz := h.1 z (by simp)
          simp only [insNat]
          split
          · simp; omega
          · split <;> simp <;> omega

theorem Memory.rising_tail {a : Nat} {l : List Nat} (h : Memory.rising (a :: l) = true) : ∀ b ∈ l, a < b := by
  induction l generalizing a with
  | nil => simp
  | cons c l ih =>
    rw [Memory.rising_cons] at h
    have hc := h.1 c (by simp)
    intro b hb
    rcases List.mem_cons.mp hb with rfl | hb
    · exact hc
    · exact Nat.lt_trans hc (ih h.2 b hb)

theorem Memory.rising_filter (p : Nat → Bool) (l : List Nat) (h : Memory.rising l = true) : Memory.rising (l.filter p) = true := by
  induction l with
  | nil => rfl
  | cons a l ih =>
    have ht := Memory.rising_tail h
    rw [Memory.rising_cons] at h
    unfold List.filter
    split
    · rw [Memory.rising_cons]
      refine ⟨fun b hb => ht b ?_, ih h.2⟩
      exact (List.mem_filter.mp (List.mem_of_mem_head? hb)).1
    · exact ih h.2

/-- The three parts of the canonical form. -/
theorem Memory.wf_iff (m : MemSt) : Memory.wf m = true ↔
    Sparse.wf m.dflt m.bytes = true ∧ Memory.rising m.poison = true ∧ Sparse.wf symDflt m.symErr = true := by
  simp [Memory.wf, and_assoc]

theorem Memory.wf_put (m : MemSt) (a : Nat) (bs : List Byte) (h : Memory.wf m = true) : Memory.wf (m.put a bs) = true := by
  rw [Memory.wf_iff] at *
  exact ⟨Sparse.wf_setList _ _ _ _ h.1, h.2⟩
theorem Memory.wf_setSyms (m : MemSt) (cw : Nat) (l : List Nat) (h : Memory.wf m = true) : Memory.wf (m.setSyms cw l) = true := by
  rw [Memory.wf_iff] at *
  exact ⟨h.1, h.2.1, Sparse.wf_set _ _ _ _ h.2.2⟩
theorem Memory.wf_setPoison (m : MemSt) (cw : Nat) (h : Memory.wf m = true) : Memory.wf (m.setPoison cw) = true := by
  rw [Memory.wf_iff] at *
  exact ⟨h.1, Memory.rising_insNat _ _ h.2.1, h.2.2⟩
theorem Memory.wf_clearPoison (m : MemSt) (cw : Nat) (h : Memory.wf m = true) : Memory.wf (m.clearPoison cw) = true := by
  rw [Memory.wf_iff] at *
  exact ⟨h.1, Memory.rising_filter _ _ h.2.1, h.2.2⟩
theorem Memory.wf_zeroed (m : MemSt) : Memory.wf m.zeroed = true := rfl
theorem Memory.wf_opened (m : MemSt) (gen : Nat) : Memory.wf (m.opened gen) = true := rfl

/-- The memory after reset has the canonical form. -/
theorem Memory.wf_reset : Memory.wf State.reset.mem = true := rfl

theorem Sparse.all_filter {α : Type} (p q : Nat × α → Bool) (m : Sparse α) (h : m.all p = true) : (m.filter q).all p = true := by
  rw [List.all_eq_true] at *
  exact fun e he => h e (List.mem_filter.mp he).1

/-- Clearing the Ledger keeps the form: the bytes that stay are of other classes, whose default is the same. -/
theorem Memory.wf_clearLedger (s : State) (h : Memory.wf s.mem = true) : Memory.wf s.clearLedger.mem = true := by
  rw [Memory.wf_iff] at *
  obtain ⟨h1, h2, h3⟩ := h
  refine ⟨?_, Memory.rising_filter _ _ h2, Sparse.wf_drop symDflt s.mem.symErr (fun a => clsOf a == 9) h3⟩
  simp only [Sparse.wf, Bool.and_eq_true, List.all_eq_true, decide_eq_true_eq] at *
  refine ⟨Sparse.rising_filter _ _ _ h1.1, fun e he => ?_⟩
  have hm := List.mem_filter.mp he
  have hc : ¬ clsOf e.1 = 9 := by simpa using hm.2
  have h4 := h1.2 e hm.1
  simpa [MemSt.dflt, memDflt, State.clearLedger, hc] using h4

theorem Memory.wf_countCorr (s : State) (cw : Nat) (h : Memory.wf s.mem = true) : Memory.wf (s.countCorr cw).mem = true := h
theorem Memory.wf_countUncorr (s : State) (cw : Nat) (h : Memory.wf s.mem = true) : Memory.wf (s.countUncorr cw).mem = true := h
theorem Memory.wf_memLog (s : State) (cw k y m : Nat) (h : Memory.wf s.mem = true) : Memory.wf (s.memLog cw k y m).mem = true := h

theorem Memory.wf_readCw (s : State) (cw m k1 k2 : Nat) (h : Memory.wf s.mem = true) : Memory.wf (s.readCw cw m k1 k2).2.mem = true := by
  unfold State.readCw
  split
  · exact h
  · exact h
  · exact Memory.wf_memLog _ _ _ _ _ (Memory.wf_countCorr _ _ (Memory.wf_setSyms _ _ _ h))
  · exact Memory.wf_memLog _ _ _ _ _ (Memory.wf_countCorr _ _ (Memory.wf_put _ _ _ (Memory.wf_setSyms _ _ _ h)))
  · rw [State.raiseN_mem]
    exact Memory.wf_memLog _ _ _ _ _ (Memory.wf_countUncorr s.spend _ h)

theorem Memory.wf_readCws (m : Nat) (l : List Nat) (s : State) (h : Memory.wf s.mem = true) : Memory.wf (s.readCws m l).2.mem = true := by
  induction l generalizing s with
  | nil => exact h
  | cons cw l ih => exact ih _ (Memory.wf_readCw _ _ _ _ _ h)

/-- A read keeps the canonical form. -/
theorem Memory.wf_readMem (s : State) (a n m : Nat) (h : Memory.wf s.mem = true) : Memory.wf (s.readMem a n m).2.2.mem = true :=
  Memory.wf_readCws _ _ _ h

theorem Memory.wf_writeCw (s : State) (a n m cw : Nat) (h : Memory.wf s.mem = true) : Memory.wf (s.writeCw a n m cw).mem = true := by
  unfold State.writeCw
  split
  · exact Memory.wf_setSyms _ _ _ (Memory.wf_clearPoison _ _ h)
  · split
    · exact Memory.wf_memLog _ _ _ _ _ h
    · rw [State.raiseN_mem]
      exact Memory.wf_memLog _ _ _ _ _ (Memory.wf_countUncorr { s.spend with mem := (s.mem.setPoison cw).setSyms cw [] } _
        (Memory.wf_setSyms _ _ _ (Memory.wf_setPoison _ _ h)))
    · exact h
    · exact Memory.wf_readCw _ _ _ _ _ h

theorem Memory.wf_foldl {α : Type} (f : State → α → State) (hf : ∀ s a, Memory.wf s.mem = true → Memory.wf (f s a).mem = true)
    (l : List α) (s : State) (h : Memory.wf s.mem = true) : Memory.wf (l.foldl f s).mem = true := by
  induction l generalizing s with
  | nil => exact h
  | cons a l ih => exact ih _ (hf _ _ h)

/-- A write keeps the canonical form. -/
theorem Memory.wf_writeMem (s : State) (a : Nat) (bs : List Byte) (m : Nat) (h : Memory.wf s.mem = true) :
    Memory.wf (s.writeMem a bs m).mem = true :=
  Memory.wf_put _ _ _ (Memory.wf_foldl _ (fun _ _ => Memory.wf_writeCw _ _ _ _ _) _ _ h)

theorem Memory.wf_foldl_poison (g : Nat → Nat) (l : List Nat) (m : MemSt) (h : Memory.wf m = true) :
    Memory.wf (l.foldl (fun m o => m.setPoison (g o)) m) = true := by
  induction l generalizing m with
  | nil => exact h
  | cons a l ih => exact ih _ (Memory.wf_setPoison _ _ h)

/-- A write of marked bytes keeps the canonical form. -/
theorem Memory.wf_writePoison (s : State) (a : Nat) (bs : List Byte) (ps : List Nat) (m : Nat) (h : Memory.wf s.mem = true) :
    Memory.wf (s.writePoison a bs ps m).mem = true :=
  Memory.wf_foldl_poison _ _ _ (Memory.wf_writeMem _ _ _ _ h)

end Sys2Proof.Machine
end

