-- ==== Sys2Proof/Laws/Ops.lean ====
section
/-! SUPPORT. What the shared operations can do, each said once: occurrences, the decoder, reads and writes of memory, and the issue
of a core's instruction. -/

namespace Sys2Proof.Machine

/-! ### What memory operations and occurrences may change -/

/-- `t` is `s` but for memory, objects, free values, events, DAP reports and what has been sent. -/
def State.MemOnly (s t : State) : Prop :=
  t = { s with mem := t.mem, objs := t.objs, freeCtr := t.freeCtr, ev := t.ev, dap := t.dap, outbox := t.outbox, eth := t.eth }

theorem State.MemOnly.refl (s : State) : s.MemOnly s := rfl
theorem State.MemOnly.trans {s t u : State} (h : s.MemOnly t) (k : t.MemOnly u) : s.MemOnly u := by
  unfold State.MemOnly at *
  rw [k, h]
theorem State.MemOnly.cores {s t : State} (h : s.MemOnly t) : t.cores = s.cores := by rw [h]
theorem State.MemOnly.torus {s t : State} (h : s.MemOnly t) : t.torus = s.torus := by rw [h]
theorem State.MemOnly.job {s t : State} (h : s.MemOnly t) : t.job = s.job := by rw [h]
theorem State.MemOnly.coll {s t : State} (h : s.MemOnly t) : t.coll = s.coll := by rw [h]
theorem State.MemOnly.upd {s t : State} (h : s.MemOnly t) : t.upd = s.upd := by rw [h]
theorem State.MemOnly.pending {s t : State} (h : s.MemOnly t) : t.pending = s.pending := by rw [h]

theorem State.MemOnly.foldl {α : Type} (f : State → α → State) (hf : ∀ (s : State) (x : α), s.MemOnly (f s x)) (xs : List α) (s : State) :
    s.MemOnly (xs.foldl f s) := by
  induction xs generalizing s with
  | nil => exact .refl s
  | cons x xs ih => exact (hf s x).trans (ih _)

theorem State.memOnly_setObj (s : State) (k v : Nat) : s.MemOnly (s.setObj k v) := rfl
theorem State.memOnly_inc32 (s : State) (k : Nat) : s.MemOnly (s.inc32 k) := rfl
theorem State.memOnly_inc64 (s : State) (k : Nat) : s.MemOnly (s.inc64 k) := rfl
theorem State.memOnly_spend (s : State) : s.MemOnly s.spend := rfl
theorem State.memOnly_setMem (s : State) (m : MemSt) : s.MemOnly { s with mem := m } := rfl
theorem State.memOnly_setEv (s : State) (e : EvSt) : s.MemOnly { s with ev := e } := rfl
theorem State.memOnly_setSession (s : State) (i : Nat) (x : Session) : s.MemOnly (s.setSession i x) := rfl

theorem State.memOnly_emit (s : State) (m : Msg) : s.MemOnly (s.emit m) := by
  unfold State.emit; dsimp only; split <;> rfl

/-- A report to one session. -/
theorem State.memOnly_report (s : State) (i src : Nat) (d : BitVec 64) : s.MemOnly (s.report i src d) := by
  unfold State.report State.sendDap; dsimp only; split
  · exact (State.memOnly_setSession s i _).trans (State.memOnly_inc32 _ _)
  · exact (State.memOnly_setSession s i _).trans (State.memOnly_emit _ _)

/-- An occurrence. -/
theorem State.memOnly_raise (s : State) (src : Nat) (d : BitVec 64) : s.MemOnly (s.raise src d) := by
  have h : s.MemOnly ((s.subscribers src).foldl (fun s i => s.report i src d) s) :=
    .foldl _ (fun s i => State.memOnly_report s i src d) _ _
  unfold State.raise; dsimp only
  split <;> split
  · exact (h.trans (State.memOnly_setEv _ _)).trans (State.memOnly_inc32 _ _)
  · exact h.trans (State.memOnly_setEv _ _)
  · exact ((h.trans (State.memOnly_inc64 _ _)).trans (State.memOnly_setEv _ _)).trans (State.memOnly_inc32 _ _)
  · exact (h.trans (State.memOnly_inc64 _ _)).trans (State.memOnly_setEv _ _)

theorem State.memOnly_memLog (s : State) (cw kind sym master : Nat) : s.MemOnly (s.memLog cw kind sym master) :=
  (State.memOnly_setMem s _).trans (State.memOnly_inc32 _ _)
theorem State.memOnly_countCorr (s : State) (cw : Nat) : s.MemOnly (s.countCorr cw) :=
  (State.memOnly_setMem s _).trans (State.memOnly_setObj _ _ _)
theorem State.memOnly_countUncorr (s : State) (cw : Nat) : s.MemOnly (s.countUncorr cw) :=
  (State.memOnly_setMem s _).trans (State.memOnly_setObj _ _ _)

/-- The decoder at one codeword. -/
theorem State.memOnly_readCw (s : State) (cw master kindC kindU : Nat) : s.MemOnly (s.readCw cw master kindC kindU).2 := by
  unfold State.readCw
  split
  · exact .refl s
  · exact .refl s
  · exact ((State.memOnly_setMem s _).trans (State.memOnly_countCorr _ cw)).trans (State.memOnly_memLog _ _ _ _ _)
  · exact (((State.memOnly_spend s).trans (State.memOnly_setMem _ _)).trans (State.memOnly_countCorr _ cw)).trans
      (State.memOnly_memLog _ _ _ _ _)
  · exact (((State.memOnly_spend s).trans (State.memOnly_countUncorr _ cw)).trans (State.memOnly_memLog _ _ _ _ _)).trans
      (State.memOnly_raise _ _ _)

theorem State.memOnly_readCws (master : Nat) (cws : List Nat) (s : State) : s.MemOnly (s.readCws master cws).2 := by
  induction cws generalizing s with
  | nil => exact .refl s
  | cons cw cws ih => exact (State.memOnly_readCw s cw master 1 3).trans (ih _)

/-- A read of memory. -/
theorem State.memOnly_readMem (s : State) (a n master : Nat) : s.MemOnly (s.readMem a n master).2.2 :=
  State.memOnly_readCws _ _ _

theorem State.memOnly_writeCw (s : State) (a n master cw : Nat) : s.MemOnly (s.writeCw a n master cw) := by
  unfold State.writeCw
  split
  · exact State.memOnly_setMem s _
  · split
    · exact State.memOnly_memLog _ _ _ _ _
    · exact ((((State.memOnly_spend s).trans (State.memOnly_setMem _ _)).trans (State.memOnly_countUncorr _ cw)).trans
        (State.memOnly_memLog _ _ _ _ _)).trans (State.memOnly_raise _ _ _)
    · exact .refl s
    · exact State.memOnly_readCw _ _ _ _ _

/-- A write of memory. -/
theorem State.memOnly_writeMem (s : State) (a : Nat) (bs : List Byte) (master : Nat) : s.MemOnly (s.writeMem a bs master) :=
  (State.MemOnly.foldl _ (fun s cw => State.memOnly_writeCw s a bs.length master cw) _ _).trans (State.memOnly_setMem _ _)

theorem State.memOnly_writePoison (s : State) (a : Nat) (bs : List Byte) (ps : List Nat) (master : Nat) :
    s.MemOnly (s.writePoison a bs ps master) := (State.memOnly_writeMem s a bs master).trans (State.memOnly_setMem _ _)

/-! ### The issue of an instruction -/

/-- What a core's command does: nothing; or the context stops at a poisoned word; or the meaning runs on what was fetched. -/
theorem State.issue_cases (s : State) (core : Nat) (c : CtxId) (k : PI → Nat → State → Option State) :
    s.issue core c k = s ∨
    (s.mayIssue core c = true ∧ (s.fetch core c ((s.core core).ctx c).pc).1 = true ∧
      s.issue core c k = (s.fetch core c ((s.core core).ctx c).pc).2.2.modCtx core c (fun y => { y with stopped := true })) ∨
    (∃ i w t, s.mayIssue core c = true ∧ s.fetch core c ((s.core core).ctx c).pc = (false, some (i, w), t) ∧
      k i w t = some (s.issue core c k)) := by
  unfold State.issue
  split
  · rename_i hm
    dsimp only
    split
    · rename_i hp; exact .inr (.inl ⟨hm, hp, rfl⟩)
    · rename_i hp
      split
      · exact .inl rfl
      · rename_i i w hf
        split
        · rename_i t ht
          refine .inr (.inr ⟨i, w, _, hm, ?_, ht⟩)
          rw [← hf, ← Bool.eq_false_iff.mpr hp]
        · exact .inl rfl
  · exact .inl rfl

/-- A context that may not issue changes nothing. -/
theorem State.issue_idle (s : State) (core : Nat) (c : CtxId) (k : PI → Nat → State → Option State) (h : s.mayIssue core c = false) :
    s.issue core c k = s := by simp [State.issue, h]

/-- Any property that the stop and the meaning keep is kept by the command. -/
theorem State.issue_keeps {P : State → Prop} (s : State) (core : Nat) (c : CtxId) (k : PI → Nat → State → Option State) (hs : P s)
    (hstop : P ((s.fetch core c ((s.core core).ctx c).pc).2.2.modCtx core c (fun y => { y with stopped := true })))
    (hk : ∀ i w t, s.fetch core c ((s.core core).ctx c).pc = (false, some (i, w), t) → ∀ u, k i w t = some u → P u) :
    P (s.issue core c k) := by
  rcases State.issue_cases s core c k with h | ⟨-, -, h⟩ | ⟨i, w, t, -, hf, h⟩
  · rw [h]; exact hs
  · rw [h]; exact hstop
  · exact hk i w t hf _ h

end Sys2Proof.Machine
end

