-- ==== Sys2Proof/Tests/Slice0.lean ====
section
/-! SUPPORT. The model's own tests: ill-formed commands are refused, one step of commands on small states, and for every
statement a state and operands that meet its hypotheses. -/

open Sys2Proof Sys2Proof.Machine

namespace Slice0

set_option Elab.async false

/-- The state a step answers, the reset state where it stops. -/
def nx : Out → State
  | .next t => t
  | _ => State.reset

/-- The outcome is the named fault. -/
def ill : Out → Bool
  | .fault .illFormed => true
  | _ => false

/-! ### Ill-formed commands -/

/-- A station's datagram on port 0, with no tag. -/
def dh (session : BitVec 32) (seq : BitVec 64) (tag : List Byte) : DapHdr := ⟨0, false, 5, 6000, 0x4441, 1, 0, session, seq, tag⟩

theorem test_hello_length : ill (exec (.hello (dh 0 0 []) (zeros 103)) State.reset) = true := by decide +kernel
theorem test_proof_key_length : ill (exec (.proof (dh 0 0 []) (zeros 56) (zeros 114)) State.reset) = true := by decide +kernel
theorem test_proof_signature_length : ill (exec (.proof (dh 0 0 []) (zeros 57) (zeros 113)) State.reset) = true := by decide +kernel
theorem test_start_digest_length : ill (exec (.startDigest 1 (zeros 63) 0) State.reset) = true := by decide +kernel
theorem test_request_empty : ill (exec (.memoryRequest 1 0 0 false false 0 0 [] [] []) State.reset) = true := by decide +kernel
theorem test_request_unaligned : ill (exec (.memoryRequest 1 0 0 false false 4 8 [] [] []) State.reset) = true := by decide +kernel
theorem test_request_part_word : ill (exec (.memoryRequest 1 0 0 false false 0 12 [] [] []) State.reset) = true := by decide +kernel
theorem test_request_bytes_missing : ill (exec (.memoryRequest 1 0 0 false true 0 8 (zeros 7) [] []) State.reset) = true := by
  decide +kernel
theorem test_flit_length : ill (exec (.flitReceived 0 (zeros 271) []) State.reset) = true := by decide +kernel
theorem test_mail_length : ill (exec (.cpMail 1 (.raw (zeros 993))) State.reset) = true := by decide +kernel

/-! ### A core's instructions: a running job context of core 0 -/

/-- Core 0 runs a job context whose program begins with the words `ws`. -/
def run0 (ws : List Nat) : State :=
  ((State.reset.setObj Obj.JOB_STATE JOB_RUNNING).modCtx 0 .job (fun y => { y with present := true })).writeMem (istoreAddr 0 0)
    (ws.flatMap (leBytes 8)) 0

/-- The same with a Filler that runs. -/
def fill0 (ws : List Nat) : State :=
  ((State.reset.setObj Obj.JOB_STATE JOB_RUNNING).modCore 0 (fun x =>
    { x with running := .filler, filler := { x.filler with present := true } })).writeMem (istoreAddr 0 0) (ws.flatMap (leBytes 8)) 0

/-- A buffer operand of kind `k`, stride 1, no index, offset 0 (Table 7.3). -/
def ob (k : Nat) : Opnd := ⟨k, 1, 0, 0⟩
/-- No operand. -/
def o7 : Opnd := ⟨7, 0, 0, 0⟩
/-- Its 21 bits. -/
def opBits (o : Opnd) : Nat := o.kind * 2 ^ 18 + o.str * 2 ^ 16 + o.xs * 2 ^ 14 + o.off

/-- Word 0 of class `cls` (Table 7.8), two elements, destination VB0. -/
def w0 (cls op fmt rm gl : Nat) : Nat := cls * 2 ^ 60 + op * 2 ^ 54 + fmt * 2 ^ 50 + rm * 2 ^ 47 + 1 * 2 ^ 35 + gl * 2 ^ 31 + opBits (ob 0) * 2 ^ 6
/-- Word 1: operands A, B and C. -/
def w1 (a b c : Opnd) : Nat := opBits a * 2 ^ 43 + opBits b * 2 ^ 22 + opBits c * 2

/-- Format that the witness of an operation uses: binary32 below 0x11, I32 from there on. -/
def fmtFor (op : Nat) : Nat := if op < 0x11 then 4 else if op = 0x1D ∨ op < 0x20 then 5 else 4

theorem witness_vector_binary : ∀ row ∈ binaryRows,
    let i := PI.va row.2.1 (fmtFor row.2.1) 0 2 0 0 (ob 0) (ob 1) (ob 2) o7
    let s := run0 [w0 4 row.2.1 (fmtFor row.2.1) 0 0, w1 (ob 1) (ob 2) o7]
    Issues s 0 .job i 2 ∧ vecReady s 0 .job i = true ∧ DestOk s 0 .job (ob 0) := by
  decide +kernel

theorem witness_vector_unary : ∀ row ∈ unaryRows,
    let i := PI.va row.2.1 (fmtFor row.2.1) 0 2 0 0 (ob 0) (ob 1) o7 o7
    let s := run0 [w0 4 row.2.1 (fmtFor row.2.1) 0 0, w1 (ob 1) o7 o7]
    Issues s 0 .job i 2 ∧ vecReady s 0 .job i = true ∧ DestOk s 0 .job (ob 0) := by
  decide +kernel

/-- The witness of a statement about one vector instruction: it issues, is ready, and its destination is good. -/
def vecOk (op fmt rm gl : Nat) (a b c : Opnd) : Bool :=
  let i := PI.va op fmt rm 2 gl 0 (ob 0) a b c
  let s := run0 [w0 4 op fmt rm gl, w1 a b c]
  decide (Issues s 0 .job i 2 ∧ vecReady s 0 .job i = true ∧ DestOk s 0 .job (ob 0))

theorem witness_vector_three :
    vecOk 0x05 4 0 0 (ob 1) (ob 2) (ob 3) ∧ vecOk 0x0F 4 0 0 (ob 1) (ob 2) (ob 3) ∧ vecOk 0x10 4 5 0 (ob 1) (ob 2) o7 ∧
      vecOk 0x1D 5 0 0 (ob 1) (ob 2) o7 := by
  decide +kernel

theorem witness_vector_reduce :
    (∀ row ∈ reduceRows, vecOk row.2.1 4 (if row.2.1 < 0x32 then 7 else 0) 1 (ob 1) o7 o7) ∧ vecOk 0x35 4 0 0 (ob 1) o7 o7 := by
  decide +kernel

/-- CVT of two elements from format `src` to `dst`; 32 elements where a side is block-scaled. -/
def cvtOk (src dst rm : Nat) : Bool :=
  let n := if src = 7 ∨ src = 8 ∨ dst = 7 ∨ dst = 8 then 32 else 2
  let i := PI.cvt src dst rm n 0 (ob 0) (ob 1)
  let s := run0 [3 * 2 ^ 60 + dst * 2 ^ 50 + rm * 2 ^ 47 + (n - 1) * 2 ^ 35 + src * 2 ^ 31 + opBits (ob 0) * 2 ^ 6, w1 (ob 1) o7 o7]
  decide (Issues s 0 .job i 2 ∧ vecReady s 0 .job i = true ∧ DestOk s 0 .job (ob 0))

theorem witness_vector_convert :
    cvtOk 5 4 0 ∧ cvtOk 0 4 0 ∧ cvtOk 3 4 0 ∧ cvtOk 4 0 1 ∧ cvtOk 4 3 5 ∧ cvtOk 4 5 4 ∧ cvtOk 4 7 0 ∧ cvtOk 4 8 5 ∧ cvtOk 7 4 0 ∧ cvtOk 8 4 7 := by
  decide +kernel

/-- PERM of two elements of binary32 by the index vector `is`; RCTL has STRICT as given. -/
def perm0 (strict : Nat) (is : List Nat) : State :=
  ((run0 [5 * 2 ^ 60 + 4 * 2 ^ 50 + 1 * 2 ^ 35 + opBits (ob 0) * 2 ^ 6, w1 (ob 1) (ob 2) o7]).modCtx 0 .job (fun y =>
    { y with regs := { y.regs with rctl := BitVec.ofNat 32 strict } })).writeMem (vbAddr 0 2 0) (is.flatMap (leBytes 4)) 0

theorem witness_vector_perm : ∀ x ∈ [(0, [1, 0]), (0, [1, 2]), (1, [2, 0])],
    let i := PI.perm 4 2 0 (ob 0) (ob 1) (ob 2)
    let s := perm0 x.1 x.2
    let y := srcOf s 0 .job 5 2 0 (ob 2)
    let bad := ((List.range 2).zip y.1).filter (fun p => decide (2 ≤ p.2))
    Issues s 0 .job i 2 ∧ vecReady s 0 .job i = true ∧ DestOk s 0 .job (ob 0) ∧
      ((s.core 0).ctx .job).regs.rctl.toNat % 2 = x.1 ∧ (bad = [] ↔ x.2 = [1, 0]) := by
  decide +kernel

/-- XR of selection `sel` on tile 1 (Table 7.10). -/
def xrW (write sel : Nat) : Nat :=
  0xA * 2 ^ 60 + write * 2 ^ 54 + sel * 2 ^ 52 + (if sel = 3 then 0 else 1) * 2 ^ 48 + opBits (ob 1) * 2 ^ 27

theorem witness_exception_records :
    (∀ sel ∈ [0, 1, 2, 3], Issues (run0 [xrW 0 sel]) 0 .job (.xr false sel (if sel = 3 then 0 else 1) (ob 1)) 1 ∧
      0 ≤ opndOff (run0 [xrW 0 sel]) 0 .job (ob 1) ∧ (((run0 [xrW 0 sel]).core 0).tile .job 1).settled = true) ∧
    (∀ sel ∈ [0, 3], Issues (run0 [xrW 1 sel]) 0 .job (.xr true sel (if sel = 3 then 0 else 1) (ob 1)) 1 ∧
      0 ≤ opndOff (run0 [xrW 1 sel]) 0 .job (ob 1)) := by
  decide +kernel

/-- MR (Table 7.10). -/
def mrW (op sel : Nat) : Nat := 0xB * 2 ^ 60 + op * 2 ^ 54 + sel * 2 ^ 52 + (if op = 2 then 0x65 else opBits (ob 1) * 2 ^ 27)

theorem witness_mode_registers :
    (∀ sel ∈ [0, 1, 2, 3], Issues (run0 [mrW 0 sel]) 0 .job (.mr 0 sel (ob 1) 0) 1 ∧ Issues (run0 [mrW 1 sel]) 0 .job (.mr 1 sel (ob 1) 0) 1 ∧
      0 ≤ opndOff (run0 [mrW 0 sel]) 0 .job (ob 1)) ∧
    (∀ sel ∈ [0, 1, 3], Issues (run0 [mrW 2 sel]) 0 .job (.mr 2 sel o7 0x65) 1) ∧
    Issues (run0 [0xC000000012345678]) 0 .job (.dbgMark 0x12345678) 1 ∧ Issues (run0 [0xC04F000000000000]) 0 .job (.dbgBreak 15) 1 := by
  decide +kernel

/-! ### The bed: a tile of two rows and two columns -/

/-- Tile 1 of the job context of core 0 is as given. -/
def tile0 (y : Tile) (s : State) : State := s.modCore 0 (fun x => x.setTile .job 1 y)
/-- A live tile with four accumulators from 8 on. -/
def t22 : Tile := { Tile.reset with base := 8, m := 2, n := 2, live := true, seg := 0x300 }

/-- MM of mode 0 on tile 1, K of 32, operands at pocket units 1 and 2 (Table 7.5). -/
def mmW (init : Nat) : List Nat := [0x4000 * 2 ^ 32 + init * 2 ^ 45 + 31 * 2 ^ 21 + 1 * 2 ^ 9, 2 * 2 ^ 52 + 1 * 2 ^ 40 + 1 * 2 ^ 30]

theorem witness_bed_multiply : ∀ n ∈ [0, 1],
    Issues (tile0 t22 (run0 (mmW n))) 0 .job (.mm 0 1 (n == 1) 0 32 1 0 2 0 1 1) 2 ∧
      ((tile0 t22 (run0 (mmW n))).core 0).lent = false ∧ (((tile0 t22 (run0 (mmW n))).core 0).tile .job 1).tree = [] := by
  decide +kernel

/-- PLD of binary32 from pocket unit 1 with E of -1: a tensor, and a bias vector (Table 7.6). -/
def pldW (tensor : Nat) : List Nat :=
  [1 * 2 ^ 60 + tensor * 2 ^ 54 + 4 * 2 ^ 50 + 1 * 2 ^ 46 + 0xFF * 2 ^ 38 + 1 * 2 ^ 26]

theorem witness_bed_preload : ∀ n ∈ [0, 1],
    Issues (tile0 t22 (run0 (pldW n))) 0 .job (.pld (n == 1) 4 1 (-1) 1 0) 1 ∧
      ((tile0 t22 (run0 (pldW n))).core 0).lent = false ∧ (((tile0 t22 (run0 (pldW n))).core 0).tile .job 1).tree = [] := by
  decide +kernel

/-- DRN of both rows of tile 1 to binary32 at VB0, with and without FREE (Table 7.7). -/
def drnW (free : Nat) : List Nat := [2 * 2 ^ 60 + 1 * 2 ^ 50 + free * 2 ^ 49 + 4 * 2 ^ 42 + 1 * 2 ^ 10, 0]

theorem witness_bed_drain : ∀ n ∈ [0, 1],
    Issues (tile0 t22 (run0 (drnW n))) 0 .job (.drn 1 (n == 1) 0 4 0 false false false 0 2 ⟨0, 0⟩ ⟨0, 0⟩ ⟨0, 0⟩ ⟨0, 0⟩) 2 ∧
      ((tile0 t22 (run0 (drnW n))).core 0).lent = false ∧ (((tile0 t22 (run0 (drnW n))).core 0).tile .job 1).tree = [] ∧
      (((tile0 t22 (run0 (drnW n))).core 0).tile .job 1).segn = 0 := by
  decide +kernel

/-- Element 1 of tile 1 holds `a`, and its tree holds `ts`. -/
def acc1 (a : Int) (ts : List TreeItem) : State := (tile0 { t22 with tree := ts } (run0 [])).modCore 0 (fun x => x.setAcc 9 a)

theorem witness_bed_tree :
    (∀ x ∈ [((2 : Int) ^ 63 - 2, (1 : Int)), (2 ^ 63 - 1, 1), (-(2 ^ 63), -1)],
      takeSum 1 (((acc1 x.1 [.sum 1 x.2 none 0 0, .mark]).core 0).tile .job 1).tree = some (.sum 1 x.2 none 0 0, [.mark]) ∧
        1 ∉ (((acc1 x.1 [.sum 1 x.2 none 0 0, .mark]).core 0).tile .job 1).pinned ∧
        1 ∉ (((acc1 x.1 [.sum 1 x.2 none 0 0, .mark]).core 0).tile .job 1).poisoned ∧
        ((acc1 x.1 [.sum 1 x.2 none 0 0, .mark]).core 0).accAt 9 = x.1) ∧
    takeSum 1 (((acc1 0 [.sum 1 0 (some 3) 1 0]).core 0).tile .job 1).tree = some (.sum 1 0 (some 3) 1 0, []) ∧
    (((acc1 0 [.mark, .sum 1 5 none 0 0]).core 0).tile .job 1).tree = [.mark, .sum 1 5 none 0 0] := by
  decide +kernel

theorem witness_bed_residue : let s := acc1 7 [.sum 1 5 none 0 0]
    takeSum 1 ((s.core 0).tile .job 1).tree = some (.sum 1 5 none 0 0, []) ∧ 1 ∉ ((s.core 0).tile .job 1).pinned ∧
      1 ∉ ((s.core 0).tile .job 1).poisoned := by
  decide +kernel

/-- The job context of core 0 waits at a lend point; its tile 1 is not live. -/
def lendPoint : State := (tile0 { t22 with live := false } (run0 [])).modCtx 0 .job (fun y => { y with wait := .bar 3 0 3 true })

theorem witness_bed_loan :
    ((lendPoint.core 0).job.wait = .bar 3 0 3 true ∧ lendPoint.jobRuns = true ∧ (∀ p ∈ (lendPoint.core 0).tiles, p.2.live = false) ∧
      (lendPoint.core 0).lent = false) ∧
    ((lendPoint.modCore 0 (fun x => { x with lent := true })).core 0).lent = true ∧
    ({ lendPoint with dap := { lendPoint.dap with drain := some (0, 1, 0, 4) } }).dap.drain = some (0, 1, 0, 4) := by
  decide +kernel

/-! ### Moves, transfers and flow -/

theorem witness_copy_units : ∀ x ∈ [(0, false), (1, true)],
    Issues (run0 [6 * 2 ^ 60 + x.1 * 2 ^ 54 + 2 * 2 ^ 51 + 3 * 2 ^ 43 + 4 * 2 ^ 31 + 1 * 2 ^ 19]) 0 .job (.copy x.2 2 3 4 0 0 2) 1 := by
  decide +kernel

/-- A cord transfer of tag 31 of core 0. -/
def cordX : Xfer :=
  ⟨0, 0, .job, 5, 31, true, false, false, 0, 0, 0, 0, 0, 0, true, 0, [], none, none, [0, 0, 0, 0], 0, 0⟩

theorem witness_transfer_start :
    (let s := run0 [6 * 2 ^ 60 + 2 * 2 ^ 54 + 5 * 2 ^ 31 + 31 * 2 ^ 14 + 1 * 2 ^ 13]
     Issues s 0 .job (.dma 5 0 31 true) 1 ∧ 31 ∉ (s.core 0).job.xferTags ∧ 0 < (s.descs 0).1) ∧
    (let s := run0 [6 * 2 ^ 60 + 3 * 2 ^ 54 + 5 * 2 ^ 31]
     Issues s 0 .job (.cord 5 0) 1 ∧ 0 ∉ (s.core 0).job.xferTags ∧ 0 < (s.descs 0).1) ∧
    (let s := (run0 []).takeDesc cordX
     s.xferOf 0 .job 31 = some 0 ∧ s.xfer 0 = some cordX ∧ cordX.cord = true) := by
  decide +kernel

/-- A verdict of 32 bytes with KIND `v`. -/
def verdict0 (v : Nat) : List Byte := zeros 16 ++ [BitVec.ofNat 8 v] ++ zeros 15

theorem witness_flow :
    Issues (run0 [9 * 2 ^ 60 + 7 * 2 ^ 42]) 0 .job (.jmp 7) 1 ∧
    Issues (run0 [9 * 2 ^ 60 + 1 * 2 ^ 54 + 2 * 2 ^ 34 + 4 * 2 ^ 22 + 1 * 2 ^ 20 + 0xFFFF * 2 ^ 4]) 0 .job (.loop 3 4 1 0xFFFF) 1 ∧
    Issues (run0 [9 * 2 ^ 60 + 3 * 2 ^ 54 + 2 * 2 ^ 20 + 0x8000 * 2 ^ 4]) 0 .job (.setx 2 0x8000) 1 ∧
    (∀ v ∈ [1, 2],
      let s := ((run0 [9 * 2 ^ 60 + 2 * 2 ^ 54 + 7 * 2 ^ 42 + 1 * 2 ^ 10]).setObj Obj.ATTEMPTS 1).setDom Obj.LAST_VERDICT (verdict0 v)
      Issues s 0 .job (.brv 7 1) 1 ∧ (s.core 0).job.attempt ≤ s.obj Obj.ATTEMPTS ∧ leAt (s.dom Obj.LAST_VERDICT) 16 1 = v) ∧
    Issues (fill0 [7 * 2 ^ 60 + 4 * 2 ^ 54]) 0 .filler .endF 1 := by
  decide +kernel

/-- BAR number 9 with a scope and a PHASE (Table 7.13). -/
def barW (scope phase : Nat) : Nat := 7 * 2 ^ 60 + 9 * 2 ^ 42 + scope * 2 ^ 40 + phase * 2 ^ 36

theorem witness_bars :
    (∀ x ∈ [(3, 7), (0, 0)], let s := run0 [barW x.1 x.2]
      Issues s 0 .job (.bar 9 x.1 false x.2) 1 ∧ (s.core 0).job.wait = .none ∧ (s.core 0).settled .job = true ∧
        (s.core 0).lent = false ∧ s.barHeld .job = false ∧ s.matrixDone 0 (s.core 0).job.attempt = true) ∧
    (let s := (run0 [barW 3 7]).modCtx 0 .job (fun y => { y with wait := .bar 9 3 7 false })
     (s.core 0).job.wait = .bar 9 3 7 false ∧ s.jobRuns = true ∧ s.joinReady .job 9 3 (s.joinCores 0 .job 3) = true ∧
       s.joinCores 0 .job 3 = [0]) := by
  decide +kernel

/-- A plan of one entry: a sum over the slice of 4 binary32 elements, root at member 0, one issuing core. -/
def plan1 : PlanEntry :=
  { entry := 5, kind := 2, flags := 0, stream := 1, sfmt := 4, pfmt := 4, ofmt := 4, root := 0, issuer := 0, chunkKib := 1, icount := 1
    elems := 4, src := 0, dst := 0, maskFirst := 0, maskCount := 0 }

/-- An image with that plan and nothing else. -/
def image1 : Image :=
  { ownerKey := [], steps := 0, dram := [0, 0, 0, 0], loans := [], plan := [plan1], masks := [], layers := [], pinPlans := [], workOff := []
    workBytes := [0, 0, 0, 0], ledger := 0, lends := [], passes := 1, streams := [], sources := [], channels := [] }

/-- The image is in force. -/
def withImage (im : Image) (s : State) : State := { s with job := { s.job with image := some im } }

theorem witness_steps :
    (let s := withImage image1 (run0 [7 * 2 ^ 60 + 3 * 2 ^ 54])
     let a := s.modCtx 0 .job (fun y => { y with wait := .step, reached := true })
     Issues s 0 .job .step 1 ∧ (s.core 0).settled .job = true ∧ a.stepOk (a.core 0).job = false) ∧
    (let s0 := run0 [7 * 2 ^ 60 + 3 * 2 ^ 54]
     let s := { s0 with upd := { s0.upd with settled := 1 } }
     let a := s.modCtx 0 .job (fun y => { y with wait := .step, reached := true })
     Issues s 0 .job .step 1 ∧ (s.core 0).settled .job = true ∧ a.stepOk (a.core 0).job = true) ∧
    (let s := withImage image1 (run0 [8 * 2 ^ 60 + 5 * 2 ^ 38 + 3 * 2 ^ 33])
     Issues s 0 .job (.cl 5 3 0) 1 ∧ 3 ∉ (s.core 0).job.collTags ∧ s.coll.advance = none ∧ s.plan 5 = some plan1) ∧
    (run0 []).jobRuns = true := by
  decide +kernel

/-! ### A slice of two devices on the X axis; this device is chip 0 -/

/-- Definition of the slice: origin (0, 0, 0), two devices along X, no wrap. -/
def def2 : SliceDef := ⟨7, 0, 1, 0, 0⟩

/-- A jersey of two devices, and the proposal of the slice made here. -/
def proposed2 : State :=
  (((((State.reset.setObj Obj.JERSEY_X 2).setObj Obj.JERSEY_Y 1).setObj Obj.JERSEY_Z 1).setObj Obj.SLICE_ID 7).setObj Obj.EXTENT_M1 1).setObj
    Obj.SLICE_STATE SLICE_PROPOSED

/-- The slice exists; it is in open mode. -/
def created2 : State := proposed2.onCommit 0 def2
def open2 : State := (created2.setObj Obj.SLICE_STATE SLICE_OPEN).setObj Obj.OPEN 1

/-! ### Memory requests, the scrubber, DMA requests -/

/-- The job context of core 0 claims the whole pocket. -/
def pocket0 (s : State) : State := s.modCtx 0 .job (fun y => { y with present := true, pocketUnits := 4096 })

/-- A request of swatch 0's job context for the pocket of core 0. -/
def req (write : Bool) (addr : BitVec 52) (len : Fin 257) : Prop :=
  WellFormed (.memoryRequest 0 9 0x010 true write addr len (zeros (if write then len.val else 0)) [] []) = true

theorem witness_memory_target :
    (∀ x ∈ [(0, 8), (2 ^ 18 - 256, 256)],
      (pocket0 State.reset).targetCheck 0 0x010 true true (pocketAddr 0 x.1) x.2 = none ∧
      (pocket0 State.reset).targetCheck 0 0x010 true false (pocketAddr 0 x.1) x.2 = none) ∧
    req true (BitVec.ofNat 52 (pocketAddr 0 (2 ^ 18 - 256))) 256 ∧ req false (BitVec.ofNat 52 (pocketAddr 0 0)) 8 ∧
    clsOf (pocketAddr 0 0) ≠ 10 ∧ State.reset.chip = 0 ∧
    ((1 : Nat) ≠ State.reset.chip ∧ State.reset.inSlice 1 = false) ∧
    ((1 : Nat) ≠ created2.chip ∧ created2.inSlice 1 = true ∧ created2.isOpen = false) ∧
    (clsOf (5 * 2 ^ 47) ∈ [5, 6, 7] ∧ clsOf (7 * 2 ^ 47) ∈ [5, 6, 7] ∧ 11 ≤ clsOf (11 * 2 ^ 47) ∧ 11 ≤ clsOf (31 * 2 ^ 47)) ∧
    (clsOf (3 * 2 ^ 47 + 0x17FFFFFFF8) < 4 ∧ 0x1800000000 < (3 * 2 ^ 47 + 0x17FFFFFFF8) % 2 ^ 47 + 16) ∧
    (clsOf (9 * 2 ^ 47) = 9 ∧ 9 * 2 ^ 47 % 2 ^ 47 + 8 ≤ 0x2000000) ∧
    (∀ m ∈ [0x010, 0x0CF], State.reset.targetCheck 0 m true true (9 * 2 ^ 47) 8 = some 3) := by
  unfold req; decide +kernel

theorem witness_patrol : let s := State.reset
    (∀ u ∈ [(⟨0, [0]⟩ : Upset), ⟨0, [67]⟩, ⟨BitVec.ofNat 52 (gta 9 0), [3, 4]⟩],
      s.mem.isPoison (cwOf u.addr.toNat) = false ∧ s.mem.symsAt (cwOf u.addr.toNat) = []) := by
  decide +kernel

/-- A read of 512 bytes in two rows from chip `chip`, class 4, by tag 0 of core 0's job context; `issued` bytes are issued. -/
def readX (chip issued : Nat) (rs : List DmaReq) : Xfer :=
  ⟨0, 0, .job, 0, 0, false, false, false, chip * 2 ^ 52 + pocketAddr 0 0x1000, 264, 2, 264, 0x100, 8, true, issued, rs, none, none, [0, 0, 0, 0], 0, 0⟩

/-- The transfer is taken by an open slice's device. -/
def readS (chip issued : Nat) (rs : List DmaReq) : State := (pocket0 open2).takeDesc (readX chip issued rs)

theorem witness_dma_requests :
    (∀ x ∈ [(1, 0), (1, 256), (0, 0), (0, 256)], let s := readS x.1 x.2 []
      s.xferOf 0 .job 0 = some 0 ∧ s.xfer 0 = some (readX x.1 x.2 []) ∧ x.2 < (readX x.1 x.2 []).total ∧ s.mem.poison = [] ∧
        s.mem.symErr = [] ∧ s.isOpen = true ∧ s.inSlice x.1 = true ∧ (s.unicast 1).isSome = true ∧
        (let q := (readX x.1 x.2 []).reqAt x.2
         q.1 / 2 ^ 52 % 4096 = x.1 ∧ q.2.2 = (if x.2 = 0 then 256 else 8) ∧ clsOf (q.1 % 2 ^ 52) ≠ 10 ∧ x.2 + q.2.2 < 528 ∧
           (x.1 = 0 → s.targetCheck s.chip (readX x.1 x.2 []).master true false (q.1 % 2 ^ 52) q.2.2 = none))) ∧
    (let s := nx (execDmaRequestIssue 0 .job 0 (readS 1 0 []))
     s.dma.flights.find? (fun g => g.id == 0) = some ⟨0, 0, 0⟩ ∧ s.xfer 0 = some (readX 1 256 [⟨0, 0, 256, false⟩]) ∧
       s.mem.poison = [] ∧ s.mem.symErr = [] ∧ (zeros 256).length = 256) := by
  decide +kernel

theorem witness_late_reply :
    (let s := nx (execDmaRequestIssue 0 .job 0 (readS 1 0 []))
     s.dma.flights = [⟨0, 0, 0⟩] ∧ s.xfer 0 = some (readX 1 256 [⟨0, 0, 256, false⟩])) ∧
    (let s := nx (execDmaRequestIssue 0 .job 0 (nx (execDmaRequestIssue 0 .job 0 (readS 1 0 []))))
     s.dma.flights = [⟨0, 0, 0⟩, ⟨1, 0, 0⟩] ∧ s.xfer 0 = some (readX 1 264 [⟨0, 0, 256, false⟩, ⟨1, 256, 8, false⟩])) ∧
    (∀ g ∈ State.reset.dma.flights, g.id ≠ 0) := by
  decide +kernel

theorem witness_tag_waits :
    (∀ o ∈ [1, 2], let i := if o = 1 then PI.waitd 0x80000001 else .waitc 0x80000001
      let s := run0 [7 * 2 ^ 60 + o * 2 ^ 54 + 0x80000001 * 2 ^ 22]
      let t := s.modCtx 0 .job (fun y => { y with xferTags := [31], collTags := [0] })
      Issues s 0 .job i 1 ∧ (s.core 0).job.xferTags = [] ∧ (s.core 0).job.collTags = [] ∧ (s.core 0).job.wait = .none ∧
        Issues t 0 .job i 1 ∧ bit 0x80000001 31 = true ∧ bit 0x80000001 0 = true) := by
  decide +kernel

/-! ### Power, time, reset, boot, start, shutdown -/

/-- A power loop at a target, with VCORE_MIN 660, VCORE_MAX 740, PCAP 1000 and a full window of equal samples. -/
def loopAt (now sample : Nat) : State :=
  let s := (((State.reset.setObj Obj.VCORE_NOW now).setObj Obj.VCORE_MIN 660).setObj Obj.VCORE_MAX 740).setObj Obj.PCAP 1000
  { s with pwr := { s.pwr with samples := List.replicate 20 sample } }

/-- The period's sample in W. -/
def watts (p : Nat) : PowerSample := ⟨BitVec.ofNat 32 (1000 * p), 5400, 300, 0, 0, 0, 0, 0, 0⟩

theorem witness_power_period :
    (∀ x ∈ [(700, 0, 2401), (659, 0, 1001), (659, 0, 1000), (660, 0, 1051), (660, 0, 1050), (660, 0, 1001), (740, 960, 1000), (700, 980, 1000)],
      let s := loopAt x.1 x.2.1
      s.up = true ∧ s.gauge.run = none ∧ s.pwr.thermHold = false ∧ min 3000 ((watts x.2.2).mw.toNat / 1000) = x.2.2 ∧
        s.obj Obj.PCAP = 1000 ∧ s.obj Obj.VCORE_MIN = 660 ∧ min (s.obj Obj.VCORE_NOW) (s.obj Obj.VCORE_MAX) = x.1) ∧
    (100 * meanOf ((1000 :: List.replicate 20 960).take 20) ≤ 97 * 1000 ∧ 97 * 1000 < 100 * meanOf ((1000 :: List.replicate 20 980).take 20)) ∧
    (let s := loopAt 660 0
     { s with pwr := { s.pwr with thermHold := true } }.pwr.thermHold = true ∧ s.pwr.hold = false ∧
       { s with pwr := { s.pwr with armed := true } }.pwr.armed = true ∧
       ({ s with gauge := { s.gauge with run := some ⟨3, false, 0, 0, [], []⟩ } } : State).gauge.run.isSome = true) := by
  decide +kernel

theorem witness_row_counters : State.reset.up = true ∧ f32IsNaN 0x7FC00000 = true ∧ f32IsNaN 0x3FC00000 = false ∧
    f32Key (guaranteed State.reset.pwr.railMv (State.reset.obj Obj.PANEL_TJ)) ≤ f32Key 0x40000000 := by
  decide +kernel

theorem witness_second_edges : let s := State.reset
    s.boot.stage ≠ .held ∧ s.obj Obj.PPS_ENABLE = 0 ∧ (s.setObj Obj.PPS_ENABLE 1).obj Obj.PPS_ENABLE = 1 ∧ s.tb.mode ≠ 1 ∧
      s.tb.ppsLost = false ∧ s.tb.onOsc = false ∧ ({ s with tb := { s.tb with onOsc := true } } : State).tb.onOsc = true ∧
      (let t := (s.setObj Obj.PTP_EN 1).setDom Obj.PTP_GM_ID (beBytes 8 77)
       let u := { t with tb := { t.tb with mode := 1, ppsLive := true } }
       u.up = true ∧ u.obj Obj.PTP_EN = 1 ∧ u.obj Obj.TOD_SRC = 0 ∧ u.obj Obj.PTP_DOMAIN = 0 ∧ u.dom Obj.PTP_GM_ID = beBytes 8 77 ∧
         u.now - nsOf u.tb.lastPps = 0) := by
  decide +kernel

/-- Torus port 0 is up, its negation lost, REFCLK counts. -/
def port0 (x : PortSt) (s : State) : State := s.setPort 0 x

theorem witness_refclk :
    (let s := port0 { PortSt.reset with st := 2 } State.reset
     s.boot.stage ≠ .held ∧ s.tb.onOsc = false ∧ (s.port 0).st ≠ 0) ∧
    (let s := port0 { PortSt.reset with st := 4 } State.reset
     let t := { s with tb := { s.tb with onOsc := true } }
     t.tb.onOsc = true ∧ (t.port 0).st = 4 ∧ bit (t.obj Obj.PORT_ENABLE) 0 = true) := by
  decide +kernel

/-- A live member of a federation of two, in the clear; the other's speaker is station 9, port 47211. -/
def fedTwo (s : State) : State :=
  let t := ((((s.setObj Obj.FED_STATE 3).setObj Obj.LIVE_MASK 3).setObj Obj.MEMBER_ID 1).setObj Obj.FED_ID 5).setObj Obj.FED_FLAGS 0
  { t with fed := { t.fed with members := [(0, { Member.unknown with peer := ⟨0, 0, 9, 47211, some 1⟩ })] } }

theorem witness_time_transfer :
    (let s := State.reset.setObj Obj.TIME_MODE 1
     s.up = true ∧ s.tb.mode ≠ s.obj Obj.TIME_MODE ∧ s.obj Obj.TIME_MODE ≠ 2) ∧
    (let t := (fedTwo State.reset).setObj Obj.TIME_MODE 2
     let s := { t with tb := { t.tb with mode := 2, silent := 10 } }
     s.up = true ∧ s.tb.mode = 2 ∧ s.obj Obj.TIME_MODE = 2 ∧ s.obj Obj.FED_STATE ≠ 0 ∧ s.tb.burst = [] ∧ s.refMember = some 0 ∧
       s.refPeer 0 = some ⟨0, 0, 9, 47211, some 1⟩ ∧ bit (s.obj Obj.FED_FLAGS) 1 = false ∧ 10 ≤ s.tb.silent ∧ s.obj Obj.TIME_STATE ≠ 4) := by
  decide +kernel

theorem witness_input_power : let s := State.reset
    ({ s with board := { s.board with overvolt := true } } : State).board.overvolt = true ∧
    ({ s with board := { s.board with inputOk := false } } : State).board.inputOk = false ∧ s.board.regsOn = true := by
  decide +kernel

/-- Every junction and the collar at one temperature, the plate at another. -/
def heat (junction plate : Nat) : State :=
  (((((State.reset.setObj Obj.PANEL_TJ junction).setObj (Obj.PANEL_TJ + 1) junction).setObj (Obj.PANEL_TJ + 2) junction).setObj
    (Obj.PANEL_TJ + 3) junction).setObj Obj.COLLAR_TJ junction).setObj Obj.TPLATE plate

theorem witness_temperature_and_board :
    (heat 0x42BE0000 0).up = true ∧ c95 ≤ (heat 0x42BE0000 0).hottest ∧ c60 ≤ f32Key ((heat 0 0x42700000).obj Obj.TPLATE) ∧
    ((heat 0x42B7FFFF 0x4263FFFF).hottest < c92 ∧ f32Key ((heat 0x42B7FFFF 0x4263FFFF).obj Obj.TPLATE) < c57) ∧
    ((heat 0x42BDFFFF 0x426FFFFF).hottest < c95 ∧ f32Key ((heat 0x42BDFFFF 0x426FFFFF).obj Obj.TPLATE) < c60 ∧
      c92 ≤ (heat 0x42B80000 0).hottest) ∧
    (c100 ≤ (heat 0x42C80000 0).hottest ∧ (heat 0x42C1FFFF 0).hottest < c97 ∧ c97 ≤ (heat 0x42C20000 0).hottest ∧
      (heat 0x42C7FFFF 0).hottest < c100) ∧
    (State.reset.board.i2cPtr = 0 ∧ ({ State.reset.board with i2cPtr := 9 } : BoardSt).i2cPtr = 9) ∧
    (let s := { State.reset with board := { State.reset.board with ppsOutEn := true } }
     s.up = true ∧ s.board.ppsOutEn = true ∧ 1 ≤ s.obj Obj.TB_STATE ∧ s.obj Obj.TB_STATE ≤ 4) := by
  decide +kernel

/-- The device is held in reset, with RESET_N and FL_PROG_N as given. -/
def held0 (resetN flProgN : Bool) : State :=
  { State.reset with boot := { State.reset.boot with stage := .held }, board := { State.reset.board with resetN := resetN, flProgN := flProgN } }

theorem witness_reset_pins :
    (∀ r ∈ [true, false], ∀ f ∈ [true, false], let s := held0 r f
      s.boot.stage = .held ∧ s.board.inputOk = true ∧ s.board.regsOn = true ∧ s.board.regsOk = true ∧ s.board.tripped = false ∧
        s.board.resetN = r ∧ s.board.flProgN = f) ∧
    (0x3000 : BitVec 16).toNat / 4096 % 4 = 3 ∧ (0x2FFF : BitVec 16).toNat / 4096 % 4 = 2 := by
  decide +kernel

/-- The mask ROM runs with BOOT_SEL as given, and both banks hold no image. -/
def rom0 (sel : Nat) (st : Stage) : State :=
  { State.reset with
    boot := { State.reset.boot with stage := st, straps := BitVec.ofNat 16 (sel * 4096) }
    flash := { State.reset.flash with banks := [(0, zeros 1), (1, zeros 1)] } }

theorem witness_bank_fallback : ∀ sel ∈ [0, 1, 2],
    (rom0 sel .rom).boot.stage = .rom ∧ (rom0 sel .rom).bootSel = sel ∧
      (rom0 sel .rom).flash.order.find? (fun k => (rom0 sel .rom).fwReason false ((rom0 sel .rom).bankBytes k) == 0) = none := by
  decide +kernel

/-- Ethernet boot in progress: an offer of `total` bytes from station 9, and the segments held. -/
def eth0 (total : Nat) (segs : List (Nat × List Byte)) (s : State) : State :=
  { s with boot := { s.boot with offer := some ⟨9, 47212, total⟩, segs := segs } }

/-- A boot datagram from station 9. -/
def bootD (kind : Nat) (body : List Byte) : Dgram := ⟨0, 9, 47212, withCrc (bootMagic kind ++ body)⟩

theorem witness_boot :
    ((rom0 0 .rom).boot.stage = .rom ∧ (rom0 0 .rom).bootSel ≠ 2) ∧
    ((rom0 1 .ethBoot).boot.stage = .ethBoot ∧ (rom0 1 .ethBoot).boot.offer = none ∧ (rom0 1 .ethBoot).bootSel = 1 ∧ (rom0 0 .ethBoot).bootSel ≠ 1) ∧
    (∃ b, (bootD 2 []).port.val = 0 ∧ bootBody 2 (bootD 2 (beBytes 4 6 ++ beBytes 4 0)).bytes = some b ∧ b.length = 8 ∧ (rom0 1 .ethBoot).flash.floorSecver ≤ beAt b 4 4) ∧
    (∃ b, (bootD 3 []).port.val = 0 ∧ bootBody 3 (bootD 3 (beBytes 4 5 ++ [1])).bytes = some b ∧ (bootD 3 []).peer = 9 ∧ 5 ≤ b.length ∧ b.length ≤ 8196 ∧
      beAt b 0 4 + (b.length - 4) ≤ 6 ∧ (eth0 6 [] (rom0 1 .ethBoot)).boot.offer = some ⟨9, 47212, 6⟩) ∧
    (let s := eth0 6 [(5, [1])] (rom0 1 .ethBoot)
     missing s.boot.segs 6 (2 * s.boot.segs.length + 2) 0 ≠ []) ∧
    (let s := eth0 6 [(2, zeros 4), (0, zeros 2)] (rom0 1 .ethBoot)
     missing s.boot.segs 6 (2 * s.boot.segs.length + 2) 0 = [] ∧ s.fwReason false (assemble s.boot.segs 6) ≠ 0) := by
  refine ⟨by decide +kernel, by decide +kernel, ⟨beBytes 4 6 ++ beBytes 4 0, by decide +kernel⟩, ⟨beBytes 4 5 ++ [1], by decide +kernel⟩,
    by decide +kernel, by decide +kernel⟩

/-- Header of a firmware image without code, of this revision, SECVER 0, signed by the key of ID `id`; then a signature. -/
def image0 (id sig : List Byte) : List Byte :=
  leBytes 4 0x48574657 ++ leBytes 2 1 ++ leBytes 2 0 ++ leBytes 8 (State.reset.obj Obj.ID_REV) ++ leBytes 4 0 ++ leBytes 4 0 ++ id ++ zeros 32 ++ sig

/-- The root keys are open constants; an image whose header is right, and that one of them signs, is valid. -/
theorem witness_valid_image (k : Nat) (h : rootNamed 1 (zeros 8) = some k)
    (v : ed448phVerify (Config.rootKey k) (digest64 ((image0 (zeros 8) (zeros 114)).take (64 + 0))) (zeros 114) = true) :
    State.reset.fwReason false (image0 (zeros 8) (zeros 114)) = 0 := by
  have e : slice (image0 (zeros 8) (zeros 114)) 24 8 = zeros 8 := by decide +kernel
  have d : (image0 (zeros 8) (zeros 114)).drop (64 + 0) = zeros 114 := by decide +kernel
  have n : leAt (image0 (zeros 8) (zeros 114)) 20 4 = 0 := by decide +kernel
  unfold State.fwReason
  rw [n, e, h]
  dsimp only
  rw [if_neg (by decide +kernel), if_neg (by decide +kernel), if_neg (by decide +kernel), d, if_pos v]

/-- The firmware runs with one Gauge record of a RESULT, its digest right, of this firmware. -/
def recorded (st : Stage) (recs : List (List Byte × List Byte)) : State :=
  { State.reset with boot := { State.reset.boot with stage := st }, flash := { State.reset.flash with records := recs } }

/-- A record that holds RESULT 0 and this firmware's digest makes a quick start. -/
theorem witness_quick_start :
    ({ recorded .firmware [(zeros 240, digest64 (zeros 240))] with boot := { State.reset.boot with fwDigest := zeros 64 } } : State).startKind = 0 := by
  unfold State.startKind
  dsimp only [recorded]
  rw [if_neg (fun h => h rfl)]
  decide +kernel

/-- A die with nothing to report. -/
def die0 : DieResult := ⟨0, 0, 0, 0, 0, 0, 0, 0, [], []⟩
/-- A full start's run at a die. -/
def runAt (die : Nat) : State :=
  { State.reset with boot := { State.reset.boot with stage := .fullStart }, gauge := { State.reset.gauge with run := some ⟨4, false, 0, die, [], []⟩ } }

theorem witness_start_test :
    ((recorded .firmware []).boot.stage = .firmware ∧ (recorded .firmware []).startKind ≠ 0 ∧ 1500 ≤ (recorded .firmware []).obj Obj.PCAP) ∧
    (((recorded .firmware []).setObj Obj.PCAP 1499).startKind ≠ 0 ∧ ((recorded .firmware []).setObj Obj.PCAP 1499).obj Obj.PCAP < 1500) ∧
    (∀ n ∈ [3, 4], (runAt n).gauge.run = some ⟨4, false, 0, n, [], []⟩ ∧ (runAt n).gauge.shut = false ∧ (runAt n).sliceState = SLICE_NONE) ∧
    (let s := { runAt 2 with gauge := { (runAt 2).gauge with run := some ⟨3, false, 0, 2, [], []⟩, shut := true } }
     s.gauge.run = some ⟨3, false, 0, 2, [], []⟩ ∧ s.gauge.shut = true ∧ 1500 ≤ s.obj Obj.PCAP) ∧
    (let s := recorded .memory []
     s.boot.stage = .memory ∧ s.gauge.run = none ∧ s.boot.shutAtReady = false ∧ s.obj Obj.GAUGE_STATE ≠ 3 ∧ s.board.shutdownReqN = true) := by
  decide +kernel

/-- A ready device with a shutdown that waits for its job. -/
def shutting (j : Nat) : State :=
  let s := ((recorded .ready []).setObj Obj.JOB_STATE j).setObj Obj.GAUGE_STATE 1
  { s with gauge := { s.gauge with shut := true, grace := true } }

theorem witness_shutdown :
    ((recorded .ready []).boot.stage = .ready ∧ (recorded .ready []).gauge.shut = false ∧ (recorded .ready []).boot.shutAtReady = false ∧ (recorded .ready []).gauge.run = none) ∧
    ((recorded .memory []).boot.stage = .memory ∧ (recorded .memory []).gauge.shut = false ∧ (recorded .memory []).boot.shutAtReady = false) ∧
    ((shutting JOB_RUNNING).gauge.shut = true ∧ (shutting JOB_RUNNING).gauge.grace = true ∧ (shutting JOB_RUNNING).obj Obj.GAUGE_STATE = 1 ∧
      (shutting JOB_RUNNING).committing = false ∧ (shutting JOB_RUNNING).moving = false) ∧
    (let s := { State.reset with service := some ⟨[], 0⟩, flash := { State.reset.flash with lc := 3 } }
     s.service.isSome = true ∧ s.flash.lc = 3) := by
  decide +kernel


/-! ### Requests of a DAP session -/

/-- Session 0 lives with class `cls`; station 5 holds it, with handshake number 1 and a key of zeros. -/
def sess (cls : Nat) (s : State) : State :=
  s.setSession 0 { Session.free with
    live := true, cls := cls, handshake := 1, key := zeros 64, peer := 5, peerPort := 6000, pub := zeros 57, keyId := zeros 8, idle := 30 }

/-- The device after a start that is complete. -/
def ready : State := { State.reset with boot := { State.reset.boot with stage := .ready } }

/-- The datagram of a request of session 0 with a SEQ, with the tag that the session's key gives. -/
def hdrAt (s : State) (b : DapBody) (seq : Nat) : DapHdr :=
  let x := s.session 0
  let v := BitVec.ofNat 32 (x.value 0)
  let q := BitVec.ofNat 64 seq
  ⟨0, true, 5, 6000, 0x4441, 1, BitVec.ofNat 16 (bodyBytes b).2.length, v, q,
    (dapSeal (x.key.take 32) (bodyBytes b).1 v.toNat q.toNat (bodyBytes b).2).2⟩

/-- That of its next request. -/
def hdr (s : State) (b : DapBody) : DapHdr := hdrAt s b (s.session 0).next

/-- DAP is accepted, the length fits, session 0 lives and holds no request. -/
def canTake (s : State) (b : DapBody) : Bool :=
  s.dapOn && decide ((bodyBytes b).2.length < 2 ^ 16) && (s.session 0).live && decide ((s.session 0).value 0 < 2 ^ 32) &&
    decide ((s.session 0).value 0 % 8 = 0) && decide ((s.session 0).next < 2 ^ 64) && decide ((s.session 0).held = [])

theorem slot_zero (s : State) (b : DapBody) (h : canTake s b = true) : (hdr s b).session.toNat % 8 = 0 := by
  simp only [canTake, Bool.and_eq_true, decide_eq_true_eq] at h
  obtain ⟨⟨⟨⟨⟨⟨-, -⟩, -⟩, hv⟩, hz⟩, -⟩, -⟩ := h
  show (BitVec.ofNat 32 ((s.session 0).value 0)).toNat % 8 = 0
  rw [BitVec.toNat_ofNat, Nat.mod_eq_of_lt hv]; exact hz

theorem valid_of (s : State) (b : DapBody) (q : Nat) (h : canTake s b = true) : Valid s (hdrAt s b q) b := by
  have e : (hdrAt s b q).session.toNat % 8 = 0 := slot_zero s b h
  simp only [canTake, Bool.and_eq_true, decide_eq_true_eq] at h
  obtain ⟨⟨⟨⟨⟨⟨h1, h2⟩, h3⟩, hv⟩, hz⟩, -⟩, -⟩ := h
  unfold Valid
  rw [e]
  refine ⟨h1, rfl, ?_, h3, ?_, rfl⟩
  · show (true && true && decide ((BitVec.ofNat 16 (bodyBytes b).2.length).toNat = (bodyBytes b).2.length)) = true
    rw [BitVec.toNat_ofNat, Nat.mod_eq_of_lt h2]; simp
  · show _ = (BitVec.ofNat 32 ((s.session 0).value 0)).toNat
    rw [BitVec.toNat_ofNat, Nat.mod_eq_of_lt hv]

theorem due_of (s : State) (b : DapBody) (h : canTake s b = true) : Due s (hdr s b) b := by
  have e := slot_zero s b h
  refine ⟨valid_of s b _ h, ?_, ?_⟩ <;> rw [e]
  · simp only [canTake, Bool.and_eq_true, decide_eq_true_eq] at h
    show (BitVec.ofNat 64 (s.session 0).next).toNat = _
    rw [BitVec.toNat_ofNat, Nat.mod_eq_of_lt h.1.2]
  · simp only [canTake, Bool.and_eq_true, decide_eq_true_eq] at h
    exact h.2

/-- The request can be taken, is of a row, and passes the checks before the row's own. -/
def askOk (s : State) (b : DapBody) (key v : Nat) : Bool :=
  canTake s b && decide (s.obj Obj.GAUGE_STATE ≠ 3) && decide (rowOf b = some (key, v)) && s.allows (s.session 0).cls key (written b) true &&
    (match b with
     | .write ix sub ty val => (match Obj.find ix.toNat sub.toNat with
        | some d => decide (ty.toNat = d.ty.code) && decide (val.length = d.ty.bytes) && d.rng.admits (ofBe val)
        | none => false)
     | .apply .. => true
     | _ => false)

theorem asked_of (s : State) (b : DapBody) (key v : Nat) (h : askOk s b key v = true) : Asked s (hdr s b) b key v := by
  simp only [askOk, Bool.and_eq_true, decide_eq_true_eq] at h
  obtain ⟨⟨⟨⟨h1, h2⟩, h3⟩, h4⟩, h5⟩ := h
  refine ⟨due_of s b h1, h2, h3, ?_, ?_⟩
  · rw [slot_zero s b h1]; exact h4
  · cases b <;> simp at h5 ⊢
    case write ix sub ty val =>
      split at h5
      · rename_i d hd
        simp only [Bool.and_eq_true, decide_eq_true_eq] at h5
        exact ⟨d, hd, h5.1.1, h5.1.2, h5.2⟩
      · cases h5

/-- The APPLY of a group. -/
def applyB (ix : Nat) : DapBody := .apply (BitVec.ofNat 16 ix) 0xFF 1

/-- Something of the group is staged and every candidate lies in its range, besides. -/
def applyOk (s : State) (ix : Nat) : Bool :=
  askOk s (applyB ix) (ix * 256 + 0xFF) 0 && (s.session 0).stagedIn ix && decide (s.firstBad 0 ix = none)

theorem applies_of (s : State) (ix : Nat) (h : applyOk s ix = true) : Applies s (hdr s (applyB ix)) (applyB ix) ix := by
  simp only [applyOk, Bool.and_eq_true, decide_eq_true_eq] at h
  obtain ⟨⟨h1, h2⟩, h3⟩ := h
  have e : (hdr s (applyB ix)).session.toNat % 8 = 0 := by
    refine slot_zero s _ ?_
    simp only [askOk, Bool.and_eq_true] at h1
    exact h1.1.1.1.1
  refine ⟨asked_of s _ _ _ h1, ?_, ?_⟩ <;> rw [e] <;> assumption

/-- A WRITE of a value of `n` bytes. -/
def writeB (key n v : Nat) : DapBody :=
  .write (BitVec.ofNat 16 (key / 256)) (BitVec.ofNat 8 (key % 256))
    (match Obj.find (key / 256) (key % 256) with | some d => BitVec.ofNat 8 d.ty.code | none => 0) (beBytes n v)

/-! DAP_SESSIONS and DAP_DATA -/

/-- A HELLO or a PROOF of station 5 of `n` bytes for a session value. -/
def hand (n : Nat) (session : Nat) (tag : List Byte) : DapHdr := ⟨0, true, 5, 6000, 0x4441, 1, BitVec.ofNat 16 n, BitVec.ofNat 32 session, 0, tag⟩

/-- A CHALLENGE with handshake number 3 waits. -/
def chal3 : Challenge := ⟨3, zeros 104, zeros 176, zeros 56, 0, 5, 6000⟩
def challenged : State := { ready with dap := { ready.dap with challenges := [chal3] } }

theorem witness_dap_sessions :
    ((zeros 104).length = 104 ∧ ready.dapOn = true ∧ ready.obj Obj.GAUGE_STATE ≠ 3 ∧ dapFormOk (hand 104 0 []) 104 = true ∧
      (hand 104 0 []).session = 0 ∧ ready.flash.lc ≠ 4 ∧ ready.dapServes 0 true = true) ∧
    (let s := { ready with flash := { ready.flash with lc := 4 } }; s.dapOn = true ∧ s.obj Obj.GAUGE_STATE ≠ 3 ∧ s.flash.lc = 4) ∧
    ((zeros 57).length = 57 ∧ (zeros 114).length = 114 ∧ challenged.dapOn = true ∧ challenged.obj Obj.GAUGE_STATE ≠ 3 ∧
      challenged.dapServes 0 true = true ∧ challenged.classOf (zeros 57) = some 5 ∧
      (List.range 8).find? (fun k => !(challenged.session k).live) = some 0 ∧
      ∀ tag, dapFormOk (hand 176 24 tag) 176 = true ∧ (hand 176 24 tag).session.toNat = 8 * chal3.number ∧
        challenged.dap.challenges.find? (fun q => decide (8 * q.number = (hand 176 24 tag).session.toNat)) = some chal3) ∧
    (challenged.dap.challenges.find? (fun q => q.number == (3 : BitVec 29).toNat) = some chal3) ∧
    ((sess 2 ready).session 0).live = true ∧ (sess 2 ready).dapOn = true := by
  exact ⟨by decide +kernel, by decide +kernel, ⟨by decide +kernel, by decide +kernel, by decide +kernel, by decide +kernel,
    by decide +kernel, by decide +kernel, by decide +kernel, fun _ => ⟨rfl, rfl, rfl⟩⟩, by decide +kernel, by decide +kernel⟩

/-- Session 0 as `f` changes it. -/
def withSess (f : Session → Session) (s : State) : State := s.setSession 0 (f (s.session 0))

/-- A READ, and the object it names. -/
def readB (key : Nat) : DapBody := .read (BitVec.ofNat 16 (key / 256)) (BitVec.ofNat 8 (key % 256)) 0 false
def objDef (key : Nat) : ObjDef := (Obj.find (key / 256) (key % 256)).getD ⟨0, .u8, .RO, .any⟩

/-- Session 0 of an operator has a block write of four bytes to `key` open, with `segs`. -/
def opened (key : Nat) (segs : List (Nat × List Byte)) : State :=
  withSess (fun x => { x with wopen := some ⟨key, 4, segs⟩ }) (sess 2 ready)
/-- It has a snapshot of four bytes. -/
def snapped : State := withSess (fun x => { x with ropen := some (zeros 4) }) (sess 2 ready)

/-- The same state with the digest left open: a close whose digest is right is due. -/
theorem due_close (key : Nat) (segs : List (Nat × List Byte)) (dg : List Byte) (h : dg.length = 64)
    (k : canTake (opened key segs) (.blkWclose 0 0 0 (zeros 64)) = true) : canTake (opened key segs) (.blkWclose 0 0 0 dg) = true := by
  have e : (bodyBytes (.blkWclose 0 0 0 dg)).2.length = (bodyBytes (.blkWclose 0 0 0 (zeros 64))).2.length := by
    simp [bodyBytes, reqBytes, h, zeros]
  unfold canTake at k ⊢
  rw [e]; exact k

theorem witness_dap_read : let s := sess 2 ready
    (∀ key ∈ [Obj.FED_STATE, Obj.OVERRUNS], let d := objDef key
      Obj.find (key / 256) (key % 256) = some d ∧ s.allows 2 d.key 0 (d.acc == .RC) = true ∧ ObjDef.isBytes d = false ∧ errOf d.key = none ∧
        (s.shows 0 d).length ≤ 8192) ∧
    (objDef Obj.FED_STATE).acc ≠ .RC ∧ (objDef Obj.OVERRUNS).acc = .RC ∧
    Obj.find (Obj.ATT_REPORT / 256) (Obj.ATT_REPORT % 256) = some (objDef Obj.ATT_REPORT) ∧
    s.allows 2 Obj.ATT_REPORT 0 ((objDef Obj.ATT_REPORT).acc == .RC) = true ∧
    Due s (hdr s (readB Obj.FED_STATE)) (readB Obj.FED_STATE) ∧ Due s (hdr s (readB Obj.OVERRUNS)) (readB Obj.OVERRUNS) ∧
    Due s (hdr s (readB Obj.ATT_REPORT)) (readB Obj.ATT_REPORT) :=
  ⟨by decide +kernel, by decide +kernel, by decide +kernel, by decide +kernel, by decide +kernel, due_of _ _ (by decide +kernel),
    due_of _ _ (by decide +kernel), due_of _ _ (by decide +kernel)⟩

/-- A write's hypotheses, for a numeric object of access `a` and a value. -/
def writeOk (s : State) (key v : Nat) (a : Acc) : Bool :=
  let d := objDef key
  let b := writeB key d.ty.bytes v
  canTake s b && decide (Obj.find (key / 256) (key % 256) = some d) && decide (rowOf b = none) && s.allows (s.session 0).cls d.key v true &&
    !ObjDef.isBytes d && d.rng.admits v && decide (d.acc = a) && (d.ty != .bool || decide (v ≤ 1)) && !s.directBarred d.key

theorem witness_dap_write : let s := sess 4 ready
    writeOk s Obj.TOPK 64 .ST = true ∧ writeOk s Obj.DEBUG_EN 1 .RW = true ∧ writeOk s Obj.FED_STATE 0 .RO = true ∧
      Due s (hdr s (writeB Obj.TOPK 2 64)) (writeB Obj.TOPK 2 64) :=
  ⟨by decide +kernel, by decide +kernel, by decide +kernel, due_of _ _ (by decide +kernel)⟩

theorem witness_dap_blocks : let s := sess 2 ready
    (let d := objDef Obj.FW_IMAGE
     Obj.find 0x7100 1 = some d ∧ s.allows 2 d.key 0 true = true ∧ d.acc = .WO ∧ d.ty = .domain ∧ 4 ≤ ObjDef.maxBytes d ∧
       s.admitsBytes d.key = St.OK ∧ ∀ i, i < 8 → i ≠ 0 → (s.session i).wopen = none) ∧
    Due s (hdr s (.blkWopen 0x7100 1 0 4)) (.blkWopen 0x7100 1 0 4) ∧
    Due (opened Obj.FW_IMAGE []) (hdr (opened Obj.FW_IMAGE []) (.blkWdata 0 0 0 0 (zeros 4))) (.blkWdata 0 0 0 0 (zeros 4)) ∧
    (∀ key ∈ [Obj.FW_IMAGE, Obj.RS_PLAN], let t := opened key [(0, zeros 4)]
      ((t.session 0).wopen = some ⟨key, 4, [(0, zeros 4)]⟩ ∧ missing [(0, zeros 4)] 4 4 0 = [] ∧
        Obj.find (key / 256) (key % 256) = some (objDef key) ∧ t.admitsBytes key = St.OK) ∧
      ∀ dg, dg.length = 64 → Due t (hdr t (.blkWclose 0 0 0 dg)) (.blkWclose 0 0 0 dg)) ∧
    (objDef Obj.FW_IMAGE).acc ≠ .ST ∧ (objDef Obj.RS_PLAN).acc = .ST ∧
    (Due s (hdr s (.blkRopen 0x4000 0x20 0)) (.blkRopen 0x4000 0x20 0)) ∧
    (snapped.session 0).ropen = some (zeros 4) ∧
    Due snapped (hdr snapped (.blkRdata 0 0 0 3 1)) (.blkRdata 0 0 0 3 1) ∧ Due snapped (hdr snapped (.blkRclose 0 0 0)) (.blkRclose 0 0 0) := by
  refine ⟨by decide +kernel, due_of _ _ (by decide +kernel), due_of _ _ (by decide +kernel), ?_, by decide +kernel, by decide +kernel,
    due_of _ _ (by decide +kernel), by decide +kernel, due_of _ _ (by decide +kernel), due_of _ _ (by decide +kernel)⟩
  intro key hk
  simp only [List.mem_cons, List.not_mem_nil, or_false] at hk
  rcases hk with rfl | rfl
  · exact ⟨by decide +kernel, fun dg h => due_of _ _ (due_close _ _ dg h (by decide +kernel))⟩
  · exact ⟨by decide +kernel, fun dg h => due_of _ _ (due_close _ _ dg h (by decide +kernel))⟩

/-- A stored response of SEQ 1 in session 0, which waits for 2. -/
def stored1 : State := withSess (fun x => { x with next := 2, stored := [⟨1, 0, 0, 0, 0, 0, []⟩] }) (sess 2 ready)

theorem witness_dap_other : let s := sess 2 ready
    Due s (hdr s (.subscribe 0 0 0 (zeros 64))) (.subscribe 0 0 0 (zeros 64)) ∧ (zeros 64).length = 64 ∧
    Due s (hdr s (.keepalive 0 0 0)) (.keepalive 0 0 0) ∧
    (stored1.session 0).stored.find? (fun q => q.seq == 1) = some ⟨1, 0, 0, 0, 0, 0, []⟩ ∧ 1 < (stored1.session 0).next ∧
    (∀ q ∈ [1, 2, 66], Valid stored1 (hdrAt stored1 (.keepalive 0 0 0) q) (.keepalive 0 0 0)) ∧
    Due s (hdr s .close) .close ∧ Due s (hdr s (.reportAck 1)) (.reportAck 1) :=
  ⟨due_of _ _ (by decide +kernel), by decide +kernel, due_of _ _ (by decide +kernel), by decide +kernel, by decide +kernel,
    fun _ _ => valid_of _ _ _ (by decide +kernel), due_of _ _ (by decide +kernel), due_of _ _ (by decide +kernel)⟩

/-- The attestation report is short enough to be read. -/
theorem att_short (s : State) (slot : Nat) : (s.attReport slot).length ≤ 8192 := by
  have le : ∀ n v, (leBytes n v).length = n := by
    intro n; induction n with
    | zero => intro v; rfl
    | succ k ih => intro v; simp [leBytes, ih]
  have be : ∀ n v, (beBytes n v).length = n := by intro n v; simp [beBytes, le]
  have pad : ∀ n bs, (padTo n bs).length = n := by intro n bs; simp [padTo, zeros]; omega
  have z : ∀ n, (zeros n).length = n := by intro n; simp [zeros]
  have sg : ∀ k m, (ed448Sign k m).length = 114 := by intro k m; simp [ed448Sign, C448.sign, le]; exact le _ _
  have kid : deviceKeyId.length ≤ 8 := by unfold deviceKeyId keyIdOf; exact List.length_take_le ..
  have tk : ∀ n (bs : List Byte), (bs.take n).length ≤ n := fun n bs => List.length_take_le ..
  unfold State.attReport
  simp only [List.length_append, be, z, pad, sg, List.length_take]
  split <;> split <;> simp only [List.length_take, z, pad] <;> omega

theorem witness_att_report (s : State) : let d := objDef Obj.ATT_REPORT
    Obj.find (Obj.ATT_REPORT / 256) (Obj.ATT_REPORT % 256) = some d ∧ (s.shows 0 d).length ≤ 8192 :=
  ⟨by decide +kernel, att_short s 0⟩

/-! ### Commands by a write: job, slice, federation, snapshot, device -/

/-- A WRITE of a one-byte command, taken and of its row. -/
def cmd (key v : Nat) : DapBody := writeB key 1 v

/-- The command is asked of `s`. -/
def asks (s : State) (key v : Nat) : Bool := askOk s (cmd key v) key v

theorem asked (s : State) (key v : Nat) (h : asks s key v = true) : Asked s (hdr s (cmd key v)) (cmd key v) key v := asked_of _ _ _ _ h

/-- The slice of two devices, ready for DAP, with a job in state `j`; session 0 is an owner's. -/
def jobAt (j : Nat) (s : State) : State :=
  let t := s.setObj Obj.JOB_STATE j
  sess 3 { t with boot := { t.boot with stage := .ready }, flash := { t.flash with lc := 2 } }

/-- The norm-anchor device's verdict is being committed. -/
def committing (s : State) : State := { s with upd := { s.upd with verdict := some (0, 0) } }

theorem witness_job_commands :
    (asks (jobAt JOB_EMPTY created2) Obj.JOB_COMMAND 1 = true ∧ (jobAt JOB_EMPTY created2).flash.lc = 2 ∧
      (jobAt JOB_EMPTY created2).jobState = JOB_EMPTY ∧ (jobAt JOB_EMPTY created2).obj Obj.DEGRADED ≠ 1 ∧
      (jobAt JOB_EMPTY created2).sliceState = SLICE_CREATED) ∧
    (asks (jobAt JOB_RUNNING open2) Obj.JOB_COMMAND 1 = true ∧ (jobAt JOB_RUNNING open2).jobState = JOB_RUNNING) ∧
    (∀ j ∈ [JOB_LOADED, JOB_STOPPED], let s := jobAt j open2
      asks s Obj.JOB_COMMAND 2 = true ∧ s.jobState = j ∧ s.obj Obj.TRAPPED = 0 ∧ s.isOpen = true ∧ s.job.starts = []) ∧
    (asks (jobAt JOB_EMPTY open2) Obj.JOB_COMMAND 2 = true ∧ (jobAt JOB_EMPTY open2).jobState = JOB_EMPTY) ∧
    (∀ n ∈ [0, 1], let s := (jobAt JOB_RUNNING open2).setObj Obj.NORM_ANCHOR n
      asks s Obj.JOB_COMMAND 3 = true ∧ s.jobState = JOB_RUNNING ∧ s.isAnchor = decide (n = 0)) ∧
    asks (jobAt JOB_LOADED open2) Obj.JOB_COMMAND 3 = true ∧
    (let s := jobAt JOB_RUNNING open2
     asks s Obj.JOB_COMMAND 4 = true ∧ s.committing = false ∧ s.moving = false) ∧
    (let s := committing (jobAt JOB_RUNNING open2)
     asks s Obj.JOB_COMMAND 4 = true ∧ s.committing = true) ∧
    (∀ j ∈ [JOB_LOADED, JOB_STOPPED, JOB_REFUSED, JOB_EMPTY, JOB_RUNNING],
      asks (jobAt j open2) Obj.JOB_COMMAND 5 = true ∧ (jobAt j open2).jobState = j) := by
  decide +kernel

/-- The slice seen from its other device, chip 1. -/
def created2far : State := ((proposed2.setObj Obj.CHIP 1).onCommit 0 def2)
/-- Session 0 is an operator's instead. -/
def oper (s : State) : State := withSess (fun x => { x with cls := 2 }) s
/-- An image in force whose exchange areas are in order: no block takes part in a federation. -/
def imaged (j : Nat) (s : State) : State := withImage image1 (jobAt j s)

theorem witness_group_commands :
    (let s := oper (jobAt JOB_EMPTY created2far)
     asks s Obj.SLICE_COMMAND 1 = true ∧ s.sliceState = SLICE_CREATED ∧ s.coordinator s.sliceDef ≠ s.chip) ∧
    (let s := oper (jobAt JOB_EMPTY created2)
     asks s Obj.SLICE_COMMAND 1 = true ∧ s.sliceState = SLICE_CREATED ∧ s.coordinator s.sliceDef = s.chip ∧ s.inSlice s.chip = true ∧
       s.torus.opening = false ∧ s.chip ∈ s.membersOf s.sliceDef) ∧
    (asks (oper (jobAt JOB_EMPTY open2)) Obj.SLICE_COMMAND 1 = true ∧ (oper (jobAt JOB_EMPTY open2)).sliceState ≠ SLICE_CREATED) ∧
    (let s := oper (jobAt JOB_RUNNING open2)
     asks s Obj.SLICE_COMMAND 2 = true ∧ s.sliceState = SLICE_OPEN ∧ s.committing = false ∧ s.moving = false) ∧
    (let s := oper (jobAt JOB_EMPTY created2)
     asks s Obj.SLICE_COMMAND 3 = true ∧ s.sliceState = SLICE_CREATED ∧ s.jobIdle = true) ∧
    (asks (oper (jobAt JOB_LOADED created2)) Obj.SLICE_COMMAND 3 = true ∧ (oper (jobAt JOB_LOADED created2)).jobIdle = false) ∧
    (let s := imaged JOB_LOADED open2
     (∀ v ∈ [1, 2], asks s Obj.COMMAND_4000 v = true) ∧ s.mayBegin = true ∧ s.exchOk = true) ∧
    (let s := jobAt JOB_LOADED open2
     asks s Obj.COMMAND_4000 1 = true ∧ s.mayBegin = true ∧ s.exchOk = false) ∧
    (∀ f ∈ [0, 1, 3], let s := (jobAt JOB_LOADED open2).setObj Obj.FED_STATE f
      asks s Obj.COMMAND_4000 3 = true ∧ s.obj Obj.FED_STATE = f) ∧
    (∀ n ∈ [0, 1], let s := (imaged JOB_LOADED open2).setObj Obj.NORM_ANCHOR n
      asks s Obj.SNAP_COMMAND 1 = true ∧ s.snap.ident = none ∧ s.job.image.isSome = true ∧ s.isAnchor = decide (n = 0)) ∧
    (let t := imaged JOB_LOADED open2
     let s := { t with snap := { t.snap with agreed := true } }
     asks s Obj.SNAP_COMMAND 2 = true ∧ s.snap.agreed = true) := by
  decide +kernel

theorem witness_device_commands : let s := sess 4 ready
    askOk s (cmd Obj.CLEAR 1) Obj.CLEAR 0 = true ∧ asks s Obj.FW_COMMAND 1 = true ∧ s.fwReason false (s.dom Obj.FW_IMAGE) ≠ 0 ∧
    (asks s Obj.FW_COMMAND 2 = true ∧ s.flash.pending = none) ∧
    (let t := { s with flash := { s.flash with pending := some 1 } }; asks t Obj.FW_COMMAND 2 = true ∧ t.flash.pending ≠ none) ∧
    asks s Obj.FW_COMMAND 3 = true ∧
    (asks s Obj.GAUGE_COMMAND 1 = true ∧ s.gauge.shut = false ∧ s.boot.shutAtReady = false ∧ s.gauge.run = none ∧ s.boot.stage = .ready) ∧
    (let t := { s with boot := { s.boot with stage := .memory } }; asks t Obj.GAUGE_COMMAND 1 = true ∧ t.boot.stage = .memory) ∧
    (∀ p ∈ [1500, 1499], let t := s.setObj Obj.PCAP p
      asks t Obj.GAUGE_COMMAND 2 = true ∧ t.gaugeFree = true ∧ t.obj Obj.PCAP = p) ∧
    (let t := s.setObj Obj.JOB_STATE JOB_LOADED; asks t Obj.GAUGE_COMMAND 2 = true ∧ t.gaugeFree = false) ∧
    (∀ l ∈ [0, 3, 2], let t := { s with flash := { s.flash with lc := l } }
      asks t Obj.GAUGE_COMMAND 3 = true ∧ t.flash.lc = l ∧ t.gaugeFree = true) ∧
    askOk s (writeB Obj.TOD_NEXT 8 5) Obj.TOD_NEXT 0 = true ∧ askOk s (writeB Obj.CLOSE_SLOT 1 0) Obj.CLOSE_SLOT 0 = true ∧
    askOk s (writeB Obj.PORT_ENABLE 1 62) Obj.PORT_ENABLE 0 = true ∧
    (bit 62 0 = false ∧ bit 62 5 = true ∧ s.portBarred 5 = false ∧ (s.port 5).st = 0 ∧
      (let t := s.setPort 5 { s.port 5 with trying := false }; (t.port 5).st = 0 ∧ (t.port 5).trying = false)) := by
  decide +kernel

/-! ### APPLY -/

/-- Session 0 with staged values (object, bytes). -/
def staged (vs : List (Nat × List Byte)) (s : State) : State := withSess (fun x => { x with staging := vs }) s
/-- A session of class `c` on a ready device with staged values. -/
def group (c : Nat) (vs : List (Nat × List Byte)) : State := staged vs (sess c ready)

/-- Every group's APPLY, with one value staged (and what another group needs besides). -/
def applyCases : List (State × Nat) :=
  [(group 2 [(Obj.PCAP, beBytes 2 900)], 0x2000), (group 2 [(Obj.EVENT_EN, [0])], 0x2003), (group 2 [(Obj.SESSION_IDLE, beBytes 4 90)], 0x1100),
   (group 3 [(Obj.CLIP_MODE, [1])], 0x3300), (group 3 [(Obj.TOPK, beBytes 2 64)], 0x4100), (group 3 [(Obj.S_MAX, [1])], 0x4200),
   (group 3 [(Obj.FEED_TIMEOUT, beBytes 4 20)], 0x3100), (group 2 [(Obj.PTP_DOMAIN, [3])], 0x1300),
   (group 3 [(Obj.STREAM_RING, beBytes 2 300)], 0x5000), (group 3 [(Obj.FED_ID, beBytes 4 9)], 0x4000), (group 2 [(Obj.JERSEY_X, [2])], 0x2100)]

theorem witness_apply_takes :
    (∀ x ∈ applyCases, applyOk x.1 x.2 = true) ∧
    (let c := (group 2 [(Obj.PCAP, beBytes 2 900)]).cand 0
     c Obj.VCORE_MIN ≤ c Obj.VCORE_MAX ∧ c Obj.VCORE_MAX % 5 = 0 ∧ c Obj.VCORE_MIN % 5 = 0) ∧
    (let c := (group 3 [(Obj.CLIP_MODE, [1])]).cand 0; fGt (c Obj.CLIP) (c Obj.ABS_LIMIT) = false) ∧
    (let s := group 3 [(Obj.TOPK, beBytes 2 64)]; s.cand 0 Obj.TOPK ≤ s.obj Obj.K_LIMIT) ∧
    (group 3 [(Obj.FEED_TIMEOUT, beBytes 4 20)]).job.image = none ∧
    (let c := (group 2 [(Obj.PTP_DOMAIN, [3])]).cand 0; c Obj.TIME_MODE ≠ 1 ∧ c Obj.TIME_MODE ≠ 2) ∧
    (let s := group 3 [(Obj.STREAM_RING, beBytes 2 300)]
     s.jobState = JOB_EMPTY ∧ s.cand 0 Obj.STREAM_MODE = 0 ∧ s.cand 0 Obj.STREAM_KEY_SLOT = 0xFF ∧ s.cand 0 Obj.SNAP_EVERY = 0) ∧
    (let s := group 3 [(Obj.FED_ID, beBytes 4 9)]
     s.obj Obj.FED_STATE = 0 ∧ s.candF 0 Obj.H_MIN ≤ s.candF 0 Obj.H_MAX) ∧
    (let s := group 2 [(Obj.JERSEY_X, [2])]
     let m := s.cand 0 Obj.AXIS_MAP
     let axis := fun a => bits m (3 * a + 1) (3 * a)
     let size := fun a => nth 0 [s.cand 0 Obj.JERSEY_X, s.cand 0 Obj.JERSEY_Y, s.cand 0 Obj.JERSEY_Z] a
     s.sliceState = SLICE_NONE ∧ m < 512 ∧ size 0 * size 1 * size 2 ≤ 2048 ∧ axis 0 ≠ axis 1 ∧ axis 0 ≠ axis 2 ∧ axis 1 ≠ axis 2 ∧
       ∀ a, a < 3 → axis a ≠ 3 ∧ nib s.chip (axis a) < size a ∧ (bit (s.cand 0 Obj.JERSEY_WRAP) a = true → 3 ≤ size a)) := by
  decide +kernel

/-- An image of nothing, under which every re-shard plan of nothing is in order; and such a plan of step 5, epoch 9. -/
def plan0 : List Byte := leBytes 8 5 ++ leBytes 1 9 ++ zeros 23

/-- An OWN session's key slot 0 to be cleared or filled. -/
def keySlot0 (clear : Nat) : State := group 3 [(Obj.KS_SLOT, [0]), (Obj.KS_CLEAR, [BitVec.ofNat 8 clear]), (Obj.KS_BLOB, zeros 132)]

/-- A provisioned device; an operator asks for FIELD. -/
def toField (c : Nat) : State :=
  let s := group c [(Obj.LC_TARGET, [2])]
  { s with flash := { s.flash with lc := 1, keys := [(0, ⟨1, zeros 57⟩), (1, ⟨2, zeros 57⟩)] } }

/-- The slice of two devices is proposed by an operator of chip `n`. -/
def propose (n id : Nat) : State :=
  staged [(Obj.SLICE_ID, beBytes 2 id), (Obj.ORIGIN, beBytes 2 0), (Obj.EXTENT_M1, beBytes 2 1)]
    (sess 2 (((ready.setObj Obj.JERSEY_X 2).setObj Obj.CHIP n).setObj Obj.DEGRADED 0))

/-- An owner's debug read of an accumulator or a buffer of core 0, granted. -/
def debugs (vs : List (Nat × List Byte)) : State := (group 3 vs).setObj Obj.DEBUG_GRANT 1
/-- The accumulator of core 0's tile 0, two elements. -/
def drains (live settled : Bool) : State :=
  (debugs [(Obj.DDR_COUNT, beBytes 2 2)]).modCtx 0 .job (fun y => y)
    |>.modCore 0 (fun x => x.setTile .job 0 { x.tile .job 0 with live := live, n := 2, m := 1, tree := if settled then [] else [.mark] })

theorem witness_apply_acts :
    (∀ e ∈ [0, 1], let s := group 2 [(ethKey Obj.SPEED e, [2])]
      applyOk s (0x1200 + e) = true ∧ (let f := fun k => s.cand 0 (ethKey k e)
        f Obj.SPEED ≠ 0 ∧ f Obj.SPEED ≠ s.obj (ethKey Obj.SPEED e) ∧ s.tb.onOsc = false ∧ f Obj.IPV4_ADDR = 0 ∧ f Obj.IPV4_GW = 0 ∧
          ofBe (padTo 16 (s.candB 0 (ethKey Obj.IPV6_ADDR e))) = 0 ∧ ofBe (padTo 16 (s.candB 0 (ethKey Obj.IPV6_GW e))) = 0 ∧
          s.obj Obj.FRAG_PAYLOAD + 110 ≤ f Obj.MAX_FRAME ∧ f Obj.PTP_EN ≠ 1)) ∧
    (let s := ((group 3 [(Obj.WINDOW, beBytes 2 32)]).setObj Obj.FED_STATE 3).setObj Obj.FED_ID 9
     applyOk s 0x4000 = true ∧ s.obj Obj.FED_STATE ≠ 0 ∧ s.candF 0 Obj.H_MIN ≤ s.candF 0 Obj.H_MAX ∧
       (∀ k ∈ fedFixed, s.cand 0 k = s.obj k) ∧ ∀ k ∈ [Obj.SEEDS, Obj.EXCH_AREA], s.candB 0 k = s.dom k) ∧
    (let s := group 2 [(Obj.EVT_SRC, beBytes 2 0x40)]; applyOk s 0x2400 = true ∧ Ev.listed (s.cand 0 Obj.EVT_SRC) = true ∧
      0x40 ≤ s.cand 0 Obj.EVT_SRC) ∧
    (let s := group 2 [(Obj.EVT_SRC, beBytes 2 0x1FF)]; applyOk s 0x2400 = true ∧ Ev.listed (s.cand 0 Obj.EVT_SRC) = false) ∧
    applyOk (group 3 [(Obj.HP_SET, [3])]) 0x3200 = true ∧
    (∀ j ∈ [JOB_EMPTY, JOB_RUNNING], let s := (group 3 [(Obj.XCH_TARGET, beBytes 2 7)]).setObj Obj.JOB_STATE j
      applyOk s 0x6000 = true ∧ s.cand 0 Obj.TENSION_EXPORT ≠ 1 ∧ s.jobRuns = decide (j = JOB_RUNNING)) ∧
    (let s := group 5 [(Obj.KEY_SLOT, [3]), (Obj.KEY_ROLE, [0])]
     applyOk s 0x1002 = true ∧ s.job.image = none ∧ s.flash.lc = 0 ∧ s.cand 0 Obj.KEY_ROLE = 0) := by
  decide +kernel

theorem witness_apply_acts_slots :
    (∀ x ∈ [0, 1], let s := keySlot0 x
      applyOk s 0x5100 = true ∧ ((s.session 0).stagedAt Obj.KS_SLOT).isSome = true ∧ bit (s.obj Obj.FED_FLAGS) 1 = false ∧
        s.obj Obj.STREAM_MODE = 0 ∧ s.snap.ident = none ∧ s.cand 0 Obj.KS_CLEAR = x) ∧
    (let s := toField 2
     applyOk s 0x1001 = true ∧ s.flash.lc = 1 ∧ s.cand 0 Obj.LC_TARGET = 2 ∧ (s.session 0).cls = 2 ∧ s.flash.hasRole 2 16 = true ∧
       s.jobState = JOB_EMPTY ∧ s.candB 0 Obj.LC_TOKEN = []) ∧
    (let s := toField 5
     applyOk s 0x1001 = true ∧ s.flash.lc = 1 ∧ s.cand 0 Obj.LC_TARGET = 2 ∧ (s.session 0).cls ≠ 2) ∧
    (let t := toField 2
     let s := { t with flash := { t.flash with lc := 2 } }
     applyOk s 0x1001 = true ∧ s.flash.lc = 2 ∧ s.cand 0 Obj.LC_TARGET = 2) := by
  decide +kernel

theorem witness_apply_acts_plans :
    (let s := withImage { image1 with plan := [] } ((group 3 [(Obj.RS_PLAN, plan0)]).setObj Obj.JOB_STATE JOB_LOADED)
     let im := { image1 with plan := [] }
     let p := rsPlanOf (s.candB 0 Obj.RS_PLAN)
     applyOk s 0x3102 = true ∧ s.job.image = some im ∧ s.jobState = JOB_LOADED ∧ s.resh.phase < 3 ∧ p.whole = true ∧
       s.obj Obj.COMMITTED + 0 ≤ p.stepAt ∧ p.epoch ≠ s.obj Obj.EPOCH ∧ p.roots.all (s.rootOk im) = true ∧ p.outs = [] ∧
       s.arrivalsOk im p = true) ∧
    (let s := (group 3 [(Obj.RS_PLAN, plan0)]).setObj Obj.JOB_STATE JOB_CHECKING
     let u := withImage image1 s
     applyOk u 0x3102 = true ∧ u.job.image = some image1 ∧ u.jobState = JOB_CHECKING) ∧
    (let s := staged [(Obj.SLICE_ID, beBytes 2 7)] (sess 2 { created2 with boot := { created2.boot with stage := .ready } })
     applyOk s 0x2200 = true ∧ s.obj Obj.DEGRADED = 0 ∧ s.sliceState ≠ SLICE_NONE) ∧
    (let s := (propose 1 7).setObj Obj.JERSEY_X 1
     applyOk s 0x2200 = true ∧ s.obj Obj.DEGRADED = 0 ∧ s.sliceState = SLICE_NONE ∧ (s.sliceCheck (s.candSlice 0)).isSome = true) ∧
    (let s := propose 1 7
     applyOk s 0x2200 = true ∧ s.obj Obj.DEGRADED = 0 ∧ s.sliceState = SLICE_NONE ∧ s.sliceCheck (s.candSlice 0) = none ∧
       s.coordinator (s.candSlice 0) ≠ s.chip) := by
  decide +kernel

theorem witness_apply_acts_debug :
    (∀ r ∈ [true, false], let s := drains true r
      let c := s.cand 0
      let y := (s.core (c Obj.DDR_CORE)).tile .job (c Obj.DDR_TILE)
      applyOk s 0xC010 = true ∧ c Obj.DDR_CORE < 12288 ∧ c Obj.DDR_TILE < 16 ∧ y.live = true ∧ c Obj.DDR_FIRST + c Obj.DDR_COUNT ≤ y.size ∧
        y.settled = r) ∧
    (let s := debugs [(Obj.VBR_COUNT, beBytes 2 16)]
     applyOk s 0xC020 = true ∧ s.cand 0 Obj.VBR_CORE < 12288 ∧ s.cand 0 Obj.VBR_FIRST + s.cand 0 Obj.VBR_COUNT ≤ 16384) ∧
    (let s := group 2 [(Obj.VCORE_MAX, beBytes 2 620), (Obj.VCORE_MIN, beBytes 2 650)]
     applyOk s 0x2000 = true ∧ s.cand 0 Obj.VCORE_MAX < s.cand 0 Obj.VCORE_MIN) := by
  decide +kernel

/-! ### Torus ports and the slice -/

/-- Port 0 of the slice's device, as `f` changes it. -/
def portIs (f : PortSt → PortSt) (s : State) : State := s.setPort 0 (f (s.port 0))

theorem witness_port_training :
    (let x := (portIs (fun x => { x with trying := true, signal := false, st := 1 }) open2).port 0
     x.trying = true ∧ x.signal = false ∧ x.st = 1) ∧
    (let s := portIs (fun x => { x with trying := false, st := 4 }) open2
     (s.port 0).st = 4 ∧ (s.port 0).trying = false ∧ s.tb.onOsc = false) ∧
    (let s := portIs (fun x => { x with trying := true, signal := true, st := 1 }) open2
     (s.port 0).signal = true ∧ (s.port 0).st = 1 ∧ s.expectedPeer (s.roleOf 0) = some 1 ∧ oppositeRole (s.roleOf 0) = 2 ∧
       s.expectedPeer (s.roleOf 0) ≠ some 5 ∧ s.roleOf 0 = 1) ∧
    (let s := portIs (fun x => { x with ident := true, st := 1 }) open2
     (s.port 0).st = 1 ∧ (s.port 0).ident = true) ∧
    ((portIs (fun x => { x with st := 2 }) open2).port 0).st = 2 ∧
    (let s := portIs (fun x => { x with st := 5 }) State.reset
     (s.port 0).st = 5 ∧ s.sliceState < 3) ∧
    (let s := portIs (fun x => { x with st := 5 }) open2
     (s.port 0).st = 5 ∧ s.sliceState = SLICE_OPEN ∧ (s.slicePorts s.sliceDef).contains 0 = true ∧ s.committing = false ∧ s.moving = false) := by
  decide +kernel

/-- Flits of a packet of one flit with header `h`, on a channel. -/
def flit1 (vc : Nat) (h : PktHdr) : Flit := ⟨vc, 0, true, true, padTo 256 h.bytes, []⟩
/-- A slice packet of two devices to `dest`. -/
def pkt (dest kind : Nat) : PktHdr := ⟨dest, 1, 7, kind, 0x10, 1, 0x0DA, []⟩
/-- Port 0 is up with a flit to send again, or one waiting. -/
def upPort (resend : Option Nat) (replay outq : List Flit) : State :=
  portIs (fun x => { x with st := 2, resend := resend, replay := replay, outq := outq, credits := [(0, 4), (2, 4), (4, 4), (6, 4)] }) open2
/-- A whole packet waits at port 0. -/
def waiting (s : State) (f : Flit) : State := portIs (fun x => { x with inbox := [[f]] }) s

theorem witness_flits :
    ((upPort none [] []).port 0).st = 2 ∧ ((upPort none [] []).port 0).nak = false ∧ ((upPort none [] []).port 0).naks.length < 32 ∧
    ((upPort none [] []).port 0).resend = none ∧ ((upPort none [] []).port 0).pick = none ∧
    ((upPort none [] [flit1 1 (pkt 1 1)]).port 0).pick = some (flit1 1 (pkt 1 1)) ∧
    ((upPort (some 0) [flit1 1 (pkt 1 1)] []).port 0).replay[0]? = some (flit1 1 (pkt 1 1)) ∧
    (zeros 272).length = 272 := by
  decide +kernel

theorem witness_packets :
    (let s := waiting open2 (flit1 1 (pkt 1 9))
     let h := PktHdr.of (flit1 1 (pkt 1 9)).payload
     (s.port 0).inbox = [[flit1 1 (pkt 1 9)]] ∧ ¬ (h.kind = 0 ∧ h.dest = s.chip) ∧ s.admits h 1 = false) ∧
    (let s := waiting open2 (flit1 0 (pkt 1 0))
     let h := PktHdr.of (flit1 0 (pkt 1 0)).payload
     (s.port 0).inbox = [[flit1 0 (pkt 1 0)]] ∧ h.kind = 0 ∧ h.dest ≠ s.chip ∧ s.admits h 0 = true) ∧
    (let s := waiting open2 (flit1 3 (pkt 0 0))
     let h := PktHdr.of (flit1 3 (pkt 0 0)).payload
     (s.port 0).inbox = [[flit1 3 (pkt 0 0)]] ∧ h.kind = 0 ∧ h.dest = s.chip ∧ (flit1 3 (pkt 0 0)).vc = 3 ∧ s.ofSlice h = true) ∧
    (∀ n ∈ [0, 63, 64], let q : MgmtIn := ⟨1, 1, 0, 6, 1⟩
      let s := { open2 with torus := { open2.torus with mgmtWait := [q], mgmtQ := List.replicate n q } }
      s.torus.mgmtWait = [q] ∧ s.torus.mgmtQ.length = n) := by
  decide +kernel

/-- The slice proposed here, with the proposals received; the same in creation or opening. -/
def proposals (ps : List (Nat × SliceDef)) (s : State) : State := { s with torus := { s.torus with proposals := ps } }
def opening2 (n : Nat) (ready : List Nat) : State :=
  let s := ((proposed2.setObj Obj.CHIP n).onCommit 0 def2).setObj Obj.SLICE_STATE SLICE_OPENING
  { s with torus := { s.torus with opening := n == 0, ready := ready } }

theorem witness_slice_messages :
    (let s := proposed2
     s.sliceState = SLICE_PROPOSED ∧ s.coordinator s.sliceDef = s.chip ∧ s.sliceDef = def2 ∧ s.membersOf def2 = [0, 1] ∧ s.torus.proposals = []) ∧
    (let s := proposals [(0, def2)] proposed2
     s.sliceState = SLICE_PROPOSED ∧ s.coordinator s.sliceDef = s.chip ∧ s.sliceDef = def2 ∧ s.chip ∈ s.membersOf def2 ∧
       s.torus.proposals = [(0, s.sliceDef)] ∧ s.chip ∈ s.torus.proposals.map Prod.fst) ∧
    (let s := proposed2.setObj Obj.CHIP 1
     s.sliceState = SLICE_PROPOSED ∧ s.coordinator s.sliceDef = 0) ∧
    (created2.coordinator created2.sliceDef = created2.chip ∧ created2.inSlice 1 = true ∧ created2.sliceState = SLICE_CREATED ∧
      created2.torus.opening = false ∧ created2.chip ∈ created2.membersOf created2.sliceDef) ∧
    (created2far.sliceState = SLICE_CREATED ∧ created2far.coordinator created2far.sliceDef = 0 ∧ created2far.chip = 1 ∧
      created2far.slicePortsUp = false ∧ (created2far.setPort 1 { created2far.port 1 with st := 2 }).slicePortsUp = true) ∧
    (∀ r ∈ [[], [0]], let s := opening2 0 r
      s.torus.opening = true ∧ s.coordinator s.sliceDef = s.chip ∧ s.inSlice 1 = true ∧ s.membersOf s.sliceDef = [0, 1] ∧ s.torus.ready = r ∧
        s.sliceState = SLICE_OPENING) ∧
    (let s := opening2 1 []
     s.sliceState = SLICE_OPENING ∧ s.coordinator s.sliceDef = 0) ∧
    (let s := open2
     s.inSlice 1 = true ∧ s.sliceState = SLICE_OPEN ∧ s.job.closeWaits = none ∧ s.committing = false ∧ s.moving = false) ∧
    (zeros 992).length ≤ 992 := by
  decide +kernel

/-- A port's address: 10.0.0.1. -/
def addressed : State := State.reset.setObj Obj.IPV4_ADDR 0x0A000001

theorem witness_ethernet_frames :
    addressed.boot.stage ≠ .held ∧
    (addressed.holdsV4 0 0x0A000001 = true ∧ addressed.holdsV4 0 0x0A000002 = false) ∧
    (∀ l ∈ [0, 1], ∀ sp ∈ [0, 2], let s := ((addressed.setObj Obj.LINK_STATE l).setObj Obj.SPEED sp)
      s.tb.onOsc = false ∧ s.obj (ethKey Obj.LINK_STATE 0) < 2 ∧ s.obj (ethKey Obj.SPEED 0) = sp) ∧
    (addressed.setObj Obj.LINK_STATE 3).obj Obj.LINK_STATE ≠ 0 := by
  decide +kernel

/-! ### Collectives -/

/-- With the tree entry of the entry's root, which LOAD makes. -/
def treed (p : PlanEntry) (s : State) : State :=
  { s with torus := { s.torus with routes := putRoutes s.torus.routes 0 4096 [s.treeEntry s.sliceDef (posOfIndex s.sliceDef p.root)] } }

/-- The slice in open mode seen from chip `n`, norm anchor member 0, with an image of one plan entry. -/
def open2at (n : Nat) (p : PlanEntry) : State :=
  let s := (((proposed2.setObj Obj.CHIP n).onCommit 0 def2).setObj Obj.SLICE_STATE SLICE_OPEN).setObj Obj.OPEN 1
  treed p (withImage { image1 with plan := [p] } (s.setObj Obj.NORM_ANCHOR 0))

/-- A slice of three devices along X, seen from its middle one. -/
def open3 (p : PlanEntry) : State :=
  let s := ((State.reset.setObj Obj.JERSEY_X 3).setObj Obj.CHIP 1).setObj Obj.SLICE_ID 7
  let t := ((s.setObj Obj.EXTENT_M1 2).setObj Obj.SLICE_STATE SLICE_PROPOSED).onCommit 0 ⟨7, 0, 2, 0, 0⟩
  treed p (withImage { image1 with plan := [p] } ((t.setObj Obj.SLICE_STATE SLICE_OPEN).setObj Obj.OPEN 1))

/-- Issue 0 of the entry, executed by its core, with chunk 0 as given. -/
def issue0 (ch : ChunkSt) : Issue := ⟨5, 0, 0, [(0, 0)], [(0, 3)], [(0, ch)], false⟩
def issued (ch : ChunkSt) (s : State) : State := { s with coll := { s.coll with issues := [issue0 ch] } }
def slotted (r : SlotRec) (s : State) : State := { s with coll := { s.coll with slots := [(2, r)] } }
/-- Four elements of binary32 1.0. -/
def ones : ChunkVal := ⟨4, List.replicate 4 0x3F800000, [], false, 0xFFFF, 0⟩
/-- Collective header of chunk 0 of issue 0, entry 5. -/
def ch0 (res : Nat) : CollHdr := { chunkHdr plan1 0 0 0 with form := 4, res := BitVec.ofNat 8 res }

/-- The hypotheses on every state of a hop. -/
abbrev hopBase (s : State) (p : PlanEntry) (x : Issue) : Prop :=
  s.isOpen = true ∧ s.plan 5 = some p ∧ s.issueOf 5 0 = some x ∧ s.coll.issues = [x] ∧ s.mem.poison = [] ∧ s.mem.symErr = []

theorem witness_collective_hops :
    ((ch0 0).entry.toNat = 5 ∧ (ch0 0).issue.toNat = 0 ∧ (ch0 0).chunk.toNat = 0) ∧
    (let s := issued ChunkSt.fresh (open2at 0 plan1)
     let r : SlotRec := ⟨5, 1, 1, 9, 9, 0, 5⟩
     let full := { s with coll := { s.coll with slots := (2, r) :: (3, r) :: (rangeFrom 64 320).map (fun i => (i, r)) } }
     hopBase s plan1 (issue0 ChunkSt.fresh) ∧ s.coll.waiting = [] ∧ s.coll.slots = [] ∧ (issue0 ChunkSt.fresh).started plan1 = true ∧
       s.freeReserved plan1.stream = some 2 ∧ plan1.stream < 32 ∧
       hopBase full plan1 (issue0 ChunkSt.fresh) ∧ full.freeReserved plan1.stream = none ∧ full.freeShared = none ∧
       full.coll.slots.all (fun q => q.2.port != 0) = true) ∧
    (let q : Creq := ⟨0, 5, 1, 0, 0, 0⟩
     let t := issued ChunkSt.fresh (open2at 0 plan1)
     let s := { t with coll := { t.coll with waiting := [q] } }
     hopBase s plan1 (issue0 ChunkSt.fresh) ∧ s.nextGrant = some (q, 2) ∧ s.plan q.entry = some plan1) := by
  decide +kernel

theorem witness_collective_chunks :
    (∀ u ∈ [1, 2], let ch := { ChunkSt.fresh with up := u }
      let s := issued ch (open2at 1 plan1)
      hopBase s plan1 (issue0 ch) ∧ s.roleOf 1 = 2 ∧ s.hopOf plan1 (issue0 ch) 0 2 = some (u, true) ∧
        (s.sendVal plan1 (issue0 ch) 0 2).isSome = true) ∧
    (∀ res ∈ [0, 1], let s := slotted ⟨5, 1, 1, 0, 0, 0, 0⟩ (issued ChunkSt.fresh (open2at 0 plan1))
      hopBase s plan1 (issue0 ChunkSt.fresh) ∧ s.slotOf 5 0 0 (fun r => r.port == 0 && (r.role == 1 || r.role == 3)) = some 2 ∧
        s.roleOf 0 ≠ (s.treeOf plan1).1 ∧ Sparse.get (fun _ => none) ChunkSt.fresh.ops (s.roleOf 0) = none ∧
        (resOf (zeros 256) = (ch0 res).res.toNat ↔ res = 0) ∧ plan1.elemsIn 0 * fmtWidth (ch0 res).form.toNat ≤ (zeros 256).length ∧
        (ch0 res).epoch.toNat = (issue0 ChunkSt.fresh).epoch ∧
        Sparse.get (fun _ => 0) ChunkSt.fresh.fails (s.roleOf 0) + 1 < s.obj Obj.RESEND_LIMIT) := by
  decide +kernel

/-- A chunk half folded: the local part added, the child's operand here. -/
def half : ChunkSt := { ChunkSt.fresh with acc := some ones, used := 1, ops := [(1, some ones)] }
/-- A folded chunk. -/
def whole : ChunkSt := { ChunkSt.fresh with acc := some ones, used := 2, val := some ones, done := true }
def planF : PlanEntry := { plan1 with flags := 2 }
/-- The entry with root at member `r`. -/
def planR (r : Nat) : PlanEntry := { plan1 with root := r }

theorem witness_folding :
    (let s := issued ChunkSt.fresh (open2at 0 plan1)
     hopBase s plan1 (issue0 ChunkSt.fresh) ∧ (issue0 ChunkSt.fresh).started plan1 = true ∧ s.isLeaf plan1 0 = false ∧ 0 < plan1.nChunks ∧
       s.foldTurn plan1 5 0 0 = true ∧ s.operands plan1 0 = [0, 1] ∧ ChunkSt.fresh.used = 0 ∧ ChunkSt.fresh.acc = none) ∧
    (let s := issued half (open2at 0 plan1)
     hopBase s plan1 (issue0 half) ∧ s.isLeaf plan1 0 = false ∧ s.foldTurn plan1 5 0 0 = true ∧ s.operands plan1 0 = [0, 1] ∧
       s.isRoot plan1 = true ∧ half.kept = none) ∧
    (let s := issued half (open3 (planR 1))
     hopBase s (planR 1) (issue0 half) ∧ s.isLeaf (planR 1) 0 = false ∧ s.foldTurn (planR 1) 5 0 0 = true ∧ s.operands (planR 1) 0 = [0, 1, 2]) ∧
    (let s := issued half (open3 (planR 0))
     hopBase s (planR 0) (issue0 half) ∧ s.isLeaf (planR 0) 0 = false ∧ s.foldTurn (planR 0) 5 0 0 = true ∧ s.operands (planR 0) 0 = [0, 1] ∧
       s.isRoot (planR 0) = false) := by
  decide +kernel

theorem witness_retract :
    (let s := slotted ⟨5, 1, 2, 0, 0, 0, 0⟩ (issued whole (open2at 0 planF))
     hopBase s planF (issue0 whole) ∧ s.slotOf 5 0 0 (fun r => r.role == 2) = some 2 ∧ planF.fuse = true ∧ planF.kind = 2 ∧
       s.isRoot planF = true ∧ whole.done = true ∧ whole.kept = none ∧ s.obj Obj.NORM_ANCHOR = s.deviceIndex) ∧
    (let s := issued ChunkSt.fresh (open2at 1 plan1)
     hopBase s plan1 (issue0 ChunkSt.fresh) ∧ s.roleOf 1 = (s.treeOf plan1).1 ∧ s.operands plan1 0 ≠ []) ∧
    (let ch := { whole with down := [(1, 3)] }
     let s := issued ch (open2at 0 plan1)
     hopBase s plan1 (issue0 ch) ∧ (issue0 ch).done = false ∧ s.rolesDone plan1 (issue0 ch) = true) := by
  decide +kernel

/-! ### The verdict, the commit, what a slice agrees on -/

/-- A job runs in the slice on chip 0, which is the norm anchor, with an image of layers. -/
def running (ls : List Layer) : State :=
  withImage { image1 with plan := [], layers := ls } ((open2.setObj Obj.JOB_STATE JOB_RUNNING).setObj Obj.NORM_ANCHOR 0)
/-- A layer of one block of one element. -/
def layer1 (k : Nat) : Layer := ⟨k, 0, 0, 4, 4, 1, 1, k, 1, 9, 0, 0, 0, 0, 0, 0⟩
/-- The verdict arrives: words of its record. -/
def verdictW (committed v : Nat) (poison : Bool) : ChunkVal := ⟨4, [0, 0, committed, 0, v] ++ List.replicate 11 0, [], poison, 0xFFFF, 0⟩
def arrives (v : ChunkVal) (s : State) : State := { s with coll := { s.coll with verdictIn := some v } }
/-- The verdict in force: commit with scale 1.0; the shadows of both layers are formed. -/
def commits (done : List Nat) (s : State) : State :=
  { s with upd := { s.upd with verdict := some (0, fOne), committed := done, shadows := [(0, fOne), (1, fOne)] } }
/-- Record 0 is resident, pinned or not. -/
def resident0 (pins : Nat) (s : State) : State := s.writeMem (ledgerAddr 0) (leBytes 8 (2 ^ 4) ++ leBytes 8 (pins * 2 ^ 56) ++ zeros 16) 0

theorem witness_step_verdict :
    ((running []).leafReady = true ∧ (running []).upd.journal = [] ∧ (running []).mem.poison = [] ∧ (running []).mem.symErr = []) ∧
    (let t := running []
     let s := { t with coll := { t.coll with normSum := some ones }, upd := { t.upd with leaf := true } }
     s.coll.normSum = some ones ∧ s.obj Obj.NORM_ANCHOR = s.deviceIndex ∧ s.coll.retracts = [] ∧ s.upd.leaf = true) ∧
    (∀ x ∈ [(0, 2, true), (5, 2, false), (0, 2, false), (0, 0, false)], let v := verdictW x.1 x.2.1 x.2.2
      let s := arrives v (running [layer1 0])
      s.coll.verdictIn = some v ∧ s.upd.lost = false ∧ s.jobRuns = true ∧ s.committing = false ∧ s.moving = false ∧ v.poison = x.2.2 ∧
        v.bad = [] ∧ leAt (bytesOfElems 4 v.els) 8 8 = x.1 ∧ s.obj Obj.COMMITTED = 0 ∧ leAt (bytesOfElems 4 v.els) 16 1 = x.2.1 ∧ s.layers ≠ []) ∧
    (let s := running [layer1 0]
     s.layers.find? (fun k => k.layer == 0) = some (layer1 0) ∧ (layer1 0).gradIssues ≤ Sparse.get (fun _ => 0) s.coll.rootDone 9 ∧
       s.upd.shadows = [] ∧ s.upd.leaf = false ∧ s.committing = false ∧ s.jobRuns = true ∧ s.earlier (layer1 0) = []) := by
  decide +kernel

theorem witness_layer_commit :
    (∀ n ∈ [0, 1], let s := resident0 n (commits [] (running [layer1 0, layer1 1]))
      s.layers.find? (fun k => k.layer == 0) = some (layer1 0) ∧ s.upd.verdict = some (0, fOne) ∧ s.upd.committed = [] ∧
        s.earlier (layer1 0) = [] ∧ (s.upd.shadows.find? (fun q => q.1 == 0)).map Prod.snd = some fOne ∧ s.liveRecs (layer1 0) = [0] ∧
        (s.liveRecs (layer1 0)).filter (fun i => 0 < Rec.pins (s.record i)) = (if n = 1 then [0] else []) ∧
        recField (s.record 0) 0 0 0 = 0 ∧
        (s.liveRecs (layer1 0)).any s.heldBySnap = false ∧ s.obj Obj.STREAM_MODE ≠ 1 ∧
        (layer1 1 ∈ s.layers ∧ (layer1 1).layer ≠ 0 ∧ (layer1 1).layer ∉ s.upd.committed)) ∧
    (let s := resident0 0 (commits [1] (running [layer1 0, layer1 1]))
     s.layers.find? (fun k => k.layer == 0) = some (layer1 0) ∧ 0 ∉ s.upd.committed ∧ s.earlier (layer1 0) = [] ∧
       s.liveRecs (layer1 0) = [0] ∧ Rec.pins (s.record 0) = 0 ∧ ∀ k ∈ s.layers, k.layer = 0 ∨ k.layer ∈ s.upd.committed) ∧
    (let s := (commits [] (running [layer1 0])).writeMem (ledgerAddr 0) (leBytes 8 (2 ^ 4 + 1) ++ leBytes 8 (2 ^ 56) ++ zeros 16) 0
     (s.liveRecs (layer1 0)).filter (fun i => 0 < Rec.pins (s.record i)) = [0] ∧ recField (s.record 0) 0 0 0 = 1 ∧
       s.upd.verdict = some (0, fOne)) ∧
    5 ∈ ({ State.reset with upd := { State.reset.upd with stalled := [5] } } : State).upd.stalled := by
  decide +kernel

/-- The slice's device with a job in state `j`, norm anchor `n`, re-shard state `rs` and phase `ph`. -/
def sharing (j n rs ph : Nat) : State :=
  let s := ((open2.setObj Obj.JOB_STATE j).setObj Obj.NORM_ANCHOR n).setObj Obj.RS_STATE rs
  { s with resh := { s.resh with phase := ph } }

theorem witness_agreement :
    (sharing JOB_CHECKING 0 0 0).jobState = JOB_CHECKING ∧
    (zeros 64).length = 64 ∧ open2.inSlice 1 = true ∧ (sharing JOB_LOADED 0 0 0).jobState ≠ JOB_STARTING ∧
    (let s := (sharing JOB_STARTING 0 0 0).setDom Obj.DIGEST (zeros 64)
     s.jobState = JOB_STARTING ∧ s.inSlice 1 = true ∧ zeros 63 ++ [1] ≠ s.dom Obj.DIGEST ∧ zeros 64 = s.dom Obj.DIGEST ∧
       s.obj Obj.COMMITTED = 0 ∧ s.job.starts = [] ∧ s.others = [1]) ∧
    (let s := sharing JOB_RUNNING 0 0 0
     s.inSlice 1 = true ∧ s.isAnchor = true ∧ s.jobRuns = true ∧ s.committing = false ∧ s.moving = false ∧ s.jobState = JOB_RUNNING) ∧
    (∀ n ∈ [0, 1], let s := sharing JOB_LOADED n 1 0
      s.obj Obj.RS_STATE = 1 ∧ s.resh.phase = 0 ∧ s.obj Obj.COMMITTED = s.obj Obj.RS_AT ∧ s.atBoundary = true ∧ s.isOpen = true ∧
        s.isAnchor = decide (n = 0) ∧ s.resh.digests = [] ∧ 1 ∈ s.membersOf s.sliceDef ∧ 1 ≠ s.chip) ∧
    (let s := sharing JOB_LOADED 1 1 1
     s.anchorChip = 1 ∧ s.obj Obj.RS_STATE = 1 ∧ s.resh.phase = 1) ∧
    (let s := sharing JOB_LOADED 0 1 1
     s.isAnchor = true ∧ s.obj Obj.RS_STATE = 1 ∧ s.resh.phase = 1) ∧
    (let t := sharing JOB_LOADED 0 2 3
     let s := { t with coll := { t.coll with advance := some 9 } }
     s.coll.advance = some 9 ∧ s.drained = true ∧ s.resh.phase = 3) ∧
    ((sharing JOB_LOADED 0 3 6).resh.phase = 6 ∧ (sharing JOB_LOADED 0 3 6).allDone = true) ∧
    (let t := (sharing JOB_LOADED 0 3 5).setDom Obj.RS_PLAN (leBytes 8 0 ++ zeros 8 ++ leBytes 4 1 ++ zeros 12 ++ zeros 16)
     let s := { t with coll := { t.coll with issues := [⟨0, 0, 0, [], [], [], false⟩] } }
     s.resh.phase = 5 ∧ s.movesDone = false) := by
  decide +kernel

/-! ### The Fleler Exchange Protocol -/

/-- A header and payload as they arrive from station 9 on port 0. -/
def dg (h : FxpHdr) (payload : List Byte) : Dgram := ⟨0, 9, 47211, h.datagram payload⟩
/-- A header of a type from member `m`, chip 0, to member 1, chip 0, of federation 5. -/
def fx (ty m : Nat) : FxpHdr := ⟨0x4658, 1, ty, 0, m, 1, 5, 0, 0, 0, 1, 0, 1, 0, 0, 0⟩
/-- That of a data server or an export server. -/
def sx (ty : Nat) (s : State) : FxpHdr := { fx ty 0xFF with dstMember := s.selfMember, fedId := if isFeedTy ty then 0 else s.obj Obj.EXPORT_ID, srcChip := 0xFFFF }

/-- Header, payload and the state after the checks. -/
def hOf (d : Dgram) : FxpHdr := FxpHdr.of d.bytes
def bOf (d : Dgram) : List Byte := d.bytes.drop 40
def tOf (s : State) (d : Dgram) : State := ((s.frameIn d.port.val).fxpTake d.bytes).2
/-- The datagram passes the checks. -/
def took (s : State) (d : Dgram) (ty : Nat) : Bool :=
  s.up && decide (((s.frameIn d.port.val).fxpTake d.bytes).1 = some (hOf d, bOf d)) && decide ((hOf d).ty = ty)

theorem takes_of (s : State) (d : Dgram) (ty : Nat) (k : took s d ty = true) : Takes s d ty (hOf d) (bOf d) (tOf s d) := by
  simp only [took, Bool.and_eq_true, decide_eq_true_eq] at k
  exact ⟨k.1.1, Prod.ext k.1.2 rfl, k.2⟩

/-- The state after a fragment that makes its transfer whole. -/
def cOf (s : State) (d : Dgram) : State := ((tOf s d).rxData (stationOf d (hOf d)) (hOf d) (d.bytes.drop 40) (bOf d)).2
def completed (s : State) (d : Dgram) (ty : Nat) (bs : List Byte) : Bool :=
  took s d ty && decide (((tOf s d).rxData (stationOf d (hOf d)) (hOf d) (d.bytes.drop 40) (bOf d)).1 = some bs)

theorem completes_of (s : State) (d : Dgram) (ty : Nat) (bs : List Byte) (k : completed s d ty bs = true) :
    Completes s d ty (hOf d) bs (cOf s d) := by
  simp only [completed, Bool.and_eq_true, decide_eq_true_eq] at k
  exact ⟨bOf d, tOf s d, takes_of s d ty k.1, Prod.ext k.2 rfl⟩

/-- Member 1 of federation 5 with FED_STATE `st` and one layer; it runs a job; this device is its speaker. -/
def fed1 (st : Nat) : State := (fedTwo (running [layer1 0])).setObj Obj.FED_STATE st
/-- Record 0 is a federation block of ID 8, valid and resident. -/
def block0 (s : State) : State := s.writeMem (ledgerAddr 0) (leBytes 8 (8 * 2 ^ 24 + 2 ^ 5 + 2 ^ 4 + 2) ++ zeros 24) 0
/-- SHAKE256 of nothing, 16 bytes (FIPS 202): the block set of a member without blocks. -/
def noBlocks : List Byte := [0x46, 0xb9, 0xdd, 0x2b, 0x0b, 0xa8, 0x8d, 0x13, 0x23, 0x3b, 0x3f, 0xeb, 0x74, 0x3e, 0xeb, 0x24]
def joinBody (s : State) : List Byte := noBlocks ++ zeros 4 ++ beBytes 4 fOne ++ beBytes 2 (s.obj Obj.K_LIMIT) ++ beBytes 2 47211 ++ beBytes 16 9 ++ zeros 20

theorem witness_membership_drops : let s := fed1 3
    s.up = true ∧ bit (s.obj Obj.FED_FLAGS) 1 = false ∧ (zeros 40).length = 40 ∧ (FxpHdr.of (zeros 40)).magic ≠ 0x4658 ∧
    (let b := (fx 0x05 0).front ++ zeros 4
     let h := FxpHdr.of b
     (40 ≤ b.length ∧ h.length = (b.drop 40).length ∧ h.magic = 0x4658 ∧ h.version = 1) ∧ h.crc ≠ fxpCrc (b.take 36) (b.drop 40)) ∧
    (let d := dg { fx 0x05 0 with fedId := 6 } []
     let h := hOf d
     (40 ≤ d.bytes.length ∧ h.length = (bOf d).length ∧ h.magic = 0x4658 ∧ h.version = 1) ∧ h.crc = fxpCrc (d.bytes.take 36) (bOf d) ∧
       s.fedOk h = false) := by
  decide +kernel

theorem witness_membership_joins :
    (let s := fed1 1
     s.up = true ∧ s.isAnchor = true ∧ s.obj Obj.FED_STATE = 1) ∧
    (let s := fed1 3
     let d := dg (fx 0x01 0) (joinBody s)
     took s d 0x01 = true ∧ (tOf s d).speaks = true ∧ (hOf d).srcMember < 64 ∧ (tOf s d).refuseReason (hOf d) (bOf d) = some 1) ∧
    (let s := fed1 3
     let d := dg (fx 0x01 2) (joinBody s)
     took s d 0x01 = true ∧ (tOf s d).speaks = true ∧ (hOf d).srcMember < 64 ∧ (tOf s d).refuseReason (hOf d) (bOf d) = none) ∧
    (let s := fed1 1
     let d := dg (fx 0x02 0) (zeros 60)
     completed s d 0x02 (zeros 60) = true ∧ (cOf s d).isAnchor = true ∧ (cOf s d).obj Obj.FED_STATE = 1) ∧
    (let s := fed1 1
     let d := dg (fx 0x03 0) [3, 0, 0, 0]
     took s d 0x03 = true ∧ (tOf s d).isAnchor = true ∧ (tOf s d).obj Obj.FED_STATE = 1) ∧
    (let s := fed1 3
     let d := dg (fx 0x04 0) (zeros 32)
     completed s d 0x04 (zeros 32) = true ∧ (cOf s d).isAnchor = true ∧ (cOf s d).obj Obj.FED_STATE = 3 ∧ (hOf d).srcMember < 64 ∧
       (hOf d).srcMember ≠ (cOf s d).selfId ∧ ((cOf s d).member 0).peer.addr ≠ 0 ∧ bit ((cOf s d).obj Obj.DEPARTED_MASK) 0 = false) := by
  decide +kernel

theorem witness_membership_view :
    (let s := fed1 3
     s.up = true ∧ s.isAnchor = true ∧ 2 ≤ s.obj Obj.FED_STATE) ∧
    (let s := ((fed1 3).setObj Obj.LIVE_MASK 5).setDom Obj.HEAD_DIGEST (zeros 16)
     let u := { s with fed := { s.fed with members := [(0, { Member.unknown with peer := ⟨0, 0, 9, 47211, some 1⟩ })] } }
     let d := dg (fx 0x05 0) (beBytes 4 0 ++ zeros 29)
     took u d 0x05 = true ∧ (tOf u d).isAnchor = true ∧ 2 ≤ (tOf u d).obj Obj.FED_STATE ∧ (tOf u d).knownMembers.contains 0 = true ∧
       (tOf u d).isLiveMember 0 = true ∧ (tOf u d).fed.chain = [] ∧ beAt (bOf d) 0 4 = (tOf u d).obj Obj.HEAD_ROUND ∧
       slice (bOf d) 4 16 = (tOf u d).dom Obj.HEAD_DIGEST ∧ (tOf u d).coordinates = false) ∧
    (let t := ((fed1 3).setObj Obj.LIVE_MASK 7).setObj Obj.HEAD_ROUND 1
     let s := { t with fed := { t.fed with reports := [(1, 1, 1)] } }
     s.up = true ∧ s.isAnchor = true ∧ s.isLiveMember 0 = true ∧ (0 : Nat) ≠ s.selfId ∧ s.fed.own = none ∧
       coordIn (clrBit (s.obj Obj.LIVE_MASK) 0) s.toClose ≠ some s.selfId) ∧
    (let s := fed1 3
     let d := dg (fx 0x06 0) []
     took s d 0x06 = true ∧ (tOf s d).isAnchor = true ∧ (tOf s d).knownMembers.contains 0 = true) ∧
    (let s := fed1 3
     let d := dg (fx 0x40 0) (zeros 24)
     took s d 0x40 = true ∧ (bOf d).length = 24) ∧
    (let s := fed1 3
     let d := dg (fx 0x41 0) (zeros 40)
     let t := { s with tb := { s.tb with probes := [((stationOf d (hOf d)).key, 0, 0, 0)] } }
     took t d 0x41 = true ∧ (bOf d).length = 40 ∧ beAt (bOf d) 4 1 ≠ 1 ∧ (tOf t d).now ≤ beAt (bOf d) 8 8 + 1000000000 ∧
       (tOf t d).tb.probes.contains ((stationOf d (hOf d)).key, beAt (bOf d) 0 4, beAt (bOf d) 4 1, beAt (bOf d) 8 8) = true ∧
       Sparse.get (fun _ => none) (tOf t d).fxp.rtt (stationOf d (hOf d)).key = none) := by
  decide +kernel

/-- Member 0 as this member knows it: its speaker on chip 0. -/
def peer0 : Peer := ⟨0, 0, 9, 47211, none⟩
def knows (m : Member) (s : State) : State := { s with fed := { s.fed with members := [(0, m)] } }
def spoken : Member := { Member.unknown with peer := peer0 }
/-- Keep and pool records of block 8, whose Ledger record is 0; a void record of it. -/
def kept0 : KeepRec := ⟨0, 0, 0, 16⟩
def pooled0 : PoolRec := ⟨0, 0, 0, 0, 0, 0⟩
def void8 : List Byte := voidRec 8
/-- Transfer 1 from member 0, chip 0, as it is received; that to it. -/
def rx0 (frags : Nat) : RxXfer := ⟨peer0, 0, 0, 1, 0x10, 0, 0, frags, [], [], [], false, false⟩
def tx0 (frags : List (List Byte)) : TxXfer := ⟨peer0, 0x10, 0, 0, 1, 5, 0, frags, 4, false, 1, [0], [], []⟩
def taking (x : RxXfer) (s : State) : State := { s with fxp := { s.fxp with rx := [x] } }
def sending (x : TxXfer) (s : State) : State := { s with fxp := { s.fxp with tx := [x] } }
/-- Block 8, count 1. -/
def run8 : List Byte := beBytes 5 8 ++ zeros 3 ++ beBytes 4 1

theorem witness_rounds_contribution : let s := block0 (((fed1 3).setObj Obj.COMMITTED 16).setObj Obj.H_NOW 16)
    bit (s.obj Obj.FED_FLAGS) 1 = false ∧ s.jobRuns = true ∧ s.obj Obj.FED_STATE = 3 ∧ s.fed.inRound = false ∧
      s.fed.mark + s.obj Obj.H_NOW ≤ s.obj Obj.COMMITTED ∧ s.committing = false ∧ s.upd.shadows = [] ∧ s.fed.accepted = [] ∧ s.fedRecs = [0] := by
  decide +kernel

theorem witness_rounds_delta :
    (let s := block0 ((knows { spoken with map := [⟨8, 1, 0, 47211, 9⟩] } (fed1 3)).setObj Obj.POOL_SLOTS 0)
     let d := dg (fx 0x10 0) void8
     took s d 0x10 = true ∧ 2 ≤ (tOf s d).obj Obj.FED_STATE ∧ (tOf s d).rxOf 0 0 1 = none ∧
       ((tOf s d).reserve 0 0 ((tOf s d).sharedRecs 0 0)).isNone = true) ∧
    (let t := taking (rx0 1) (block0 (knows spoken (fed1 3)))
     let s := { t with fed := { t.fed with pool := [pooled0] } }
     let d := dg (fx 0x10 0) void8
     let r := (tOf s d).rxData (stationOf d (hOf d)) (hOf d) (d.bytes.drop 40) (bOf d)
     took s d 0x10 = true ∧ (tOf s d).rxOf 0 0 1 = some (rx0 1) ∧ r.1 = some void8 ∧ blockRecs 16 void8 = [void8] ∧ void8.length = 16 ∧
       r.2.recOfBlock (beAt void8 0 5) = some 0 ∧ r.2.mem.poison = [] ∧ r.2.mem.symErr = [] ∧
       r.2.fed.pool.find? (fun y => y.member == 0 && y.origin == 0 && y.idx == 0) = some pooled0) := by
  decide +kernel

theorem witness_rounds_parity :
    (let s := taking (rx0 17) (knows spoken (fed1 3))
     let d := dg { fx 0x11 0 with frags := 17 } (zeros 12)
     took s d 0x11 = true ∧ (tOf s d).rxOf 0 0 1 = some (rx0 17) ∧ (rx0 17).done = false ∧
       ({ rx0 17 with parity := Sparse.put (rx0 17).parity 0 (bOf d) } : RxXfer).rebuild 0 ((tOf s d).obj Obj.FRAG_PAYLOAD) = none) ∧
    (let s := taking (rx0 17) (knows spoken (fed1 3))
     let full := s.obj Obj.FRAG_PAYLOAD
     let d := dg { fx 0x11 0 with frag := 1, frags := 17 } (beBytes 8 (16 * full + 4) ++ [1, 2, 3, 4])
     took s d 0x11 = true ∧ (tOf s d).rxOf 0 0 1 = some (rx0 17) ∧
       ({ rx0 17 with parity := Sparse.put (rx0 17).parity 1 (bOf d) } : RxXfer).rebuild 1 ((tOf s d).obj Obj.FRAG_PAYLOAD) = some (16, [1, 2, 3, 4]) ∧
       (tOf s d).protect (rx0 17).ty = none ∧ (rx0 17).has 0 = false) := by
  decide +kernel

theorem witness_rounds_acknowledged :
    (let s := sending (tx0 [[]]) (knows spoken (fed1 3))
     let d := dg (fx 0x12 0) (beBytes 4 1 ++ beBytes 4 16 ++ zeros 12)
     took s d 0x12 = true ∧ ((tOf s d).member 0).peer.chip ≠ 0xFFFF ∧ (tOf s d).fed.own = none ∧
       (tOf s d).txOf (stationOf d (hOf d)).key 1 = some (tx0 [[]])) ∧
    (let s := taking { rx0 2 with fresh := true } (fed1 3)
     s.up = true ∧ s.rxOf 0 0 1 = some { rx0 2 with fresh := true }) ∧
    (let s := sending (tx0 [[1, 2, 3, 4]]) (fed1 3)
     s.txOf peer0.key 1 = some (tx0 [[1, 2, 3, 4]]) ∧ (tx0 [[1, 2, 3, 4]]).out.contains 0 = true ∧ s.protect 0x10 = none ∧
       Sparse.get (fun _ => 0) (tx0 [[1, 2, 3, 4]]).resends 0 < 64) := by
  decide +kernel

theorem witness_rounds_requests :
    (∀ ks ∈ [[], [kept0]], let t := block0 (knows spoken (fed1 3))
      let s := { t with fed := { t.fed with keeps := ks } }
      let d := dg (fx 0x13 0) run8
      took s d 0x13 = true ∧ 2 ≤ (tOf s d).obj Obj.FED_STATE ∧ (tOf s d).mem.poison = [] ∧ (tOf s d).mem.symErr = [] ∧
        (tOf s d).recsInRun 8 1 = [0] ∧ (tOf s d).fed.keeps.find? (fun y => y.origin == 0 && y.idx == 0) = ks.head?) ∧
    (∀ n ∈ [0, 1], let s := (fed1 3).setObj Obj.NORM_ANCHOR n
      let d := dg (fx 0x14 0) run8
      took s d 0x14 = true ∧ (tOf s d).obj Obj.FED_STATE = 3 ∧ (tOf s d).isAnchor = decide (n = 0)) ∧
    (let s := knows spoken (fed1 3)
     let d := dg { fx 0x20 0 with round := 1 } (zeros 8)
     took s d 0x20 = true ∧ (tOf s d).isAnchor = true ∧ 2 ≤ (tOf s d).obj Obj.FED_STATE ∧ (tOf s d).knownMembers.contains 0 = true) := by
  decide +kernel

/-- A member that has contributed to round 1. -/
def contributed (s : State) : State :=
  { s with fed := { s.fed with closing := true, members := [(1, { Member.unknown with contrib := some 1 })] } }

theorem witness_rounds_close :
    (let s := contributed (((fed1 3).setObj Obj.LIVE_MASK 2).setObj Obj.S_MAX 2)
     s.up = true ∧ s.speaks = true ∧ s.fed.closing = true ∧ s.candidates s.toClose ≠ [] ∧ s.topRound < s.toClose ∧ s.coordinates = true) ∧
    (let t := contributed ((((fed1 3).setObj Obj.LIVE_MASK 6).setObj Obj.S_MAX 2).setObj Obj.HEAD_ROUND 1)
     let s := { t with fed := { t.fed with reports := [(1, 1, 1)] } }
     s.up = true ∧ s.speaks = true ∧ s.fed.closing = true ∧ s.candidates s.toClose ≠ [] ∧ s.topRound < s.toClose ∧
       s.coordinates = false ∧ s.isLiveMember s.selfId = true) := by
  decide +kernel

/-- Round 1 with the zero digest as parent, issued by member 0; it names `n` contributions, the first that of member 0, origin 0. -/
def close1 (n : Nat) : Manifest := ⟨1, 0x21, zeros 17 ++ [BitVec.ofNat 8 n] ++ zeros (46 + 12 * n), List.replicate 16 1⟩
def queued (x : Manifest) (s : State) : State := { s with fed := { s.fed with inRound := true, queue := [x], chain := [x] } }

theorem witness_rounds_manifests :
    (let s := (knows spoken (fed1 3)).setDom Obj.HEAD_DIGEST (zeros 16)
     let d := dg { fx 0x21 0 with round := 1 } (zeros 64)
     completed s d 0x21 (zeros 64) = true ∧ (cOf s d).isAnchor = true ∧ 2 ≤ (cOf s d).obj Obj.FED_STATE ∧ (cOf s d).fed.chain = [] ∧
       (hOf d).round = (cOf s d).topRound + 1 ∧ (cOf s d).digestOf (cOf s d).topRound = some ((zeros 64).take 16)) ∧
    (∀ n ∈ [0, 1], let s := queued (close1 n) (block0 (knows spoken (fed1 3)))
      s.up = true ∧ s.fed.fork = none ∧ s.obj Obj.FED_STATE = 3 ∧
        s.fed.queue.find? (fun y => y.round == s.obj Obj.HEAD_ROUND + 1) = some (close1 n) ∧ s.mergeOk (close1 n) = true ∧
        (s.lacking (close1 n) = [] ↔ n = 0) ∧ s.fedRecs.any s.heldBySnap = false) ∧
    (let s := queued (close1 0) (knows spoken (fed1 3))
     let d := dg { fx 0x22 0 with round := 1 } []
     took s d 0x22 = true ∧ (tOf s d).isAnchor = true ∧ (tOf s d).knownMembers.contains 0 = true ∧
       (tOf s d).fed.chain.find? (fun y => y.round == (hOf d).round) = some (close1 0) ∧ (tOf s d).fxp.tx = [] ∧ (tOf s d).protect 0x21 = none) := by
  decide +kernel

/-- Member 2 has closed round 2 on the round-1 head that this member holds. -/
def other2 : Manifest := ⟨2, 0x21, zeros 64, List.replicate 16 2⟩
def forked : State :=
  let t := (((fed1 4).setObj Obj.LIVE_MASK 6).setObj Obj.HEAD_ROUND 1).setDom Obj.HEAD_DIGEST (zeros 16)
  { t with fed := { t.fed with others := [(2, other2)], members := [(2, { Member.unknown with head := some (2, other2.digest, 0, 3) })] } }

theorem witness_rounds_forks :
    (let s := forked
     s.up = true ∧ s.isAnchor = true ∧ s.obj Obj.FED_STATE = 4 ∧ s.fed.fork = none ∧ s.forkSides = some (1, [⟨[1], []⟩, ⟨[2], [other2]⟩]) ∧
       coordIn (membersMask [1, 2]) (1 + 2) = some s.selfId ∧ s.fed.sideRecs ≠ [⟨[1], []⟩, ⟨[2], [other2]⟩].map (s.sideRec 1)) ∧
    (let s := (knows spoken (fed1 3)).setDom Obj.HEAD_DIGEST (zeros 16)
     let d := dg { fx 0x23 0 with round := 1 } (zeros 64)
     completed s d 0x23 (zeros 64) = true ∧ (cOf s d).isAnchor = true ∧ (cOf s d).obj Obj.FED_STATE = 3 ∧ (cOf s d).fed.fork = none ∧
       (cOf s d).fed.chain = [] ∧ (cOf s d).obj Obj.HEAD_ROUND < (hOf d).round ∧
       (cOf s d).digestOf (beAt (zeros 64) 20 4) = some ((zeros 64).take 16) ∧ beAt (zeros 64) 17 1 ≠ 1) := by
  decide +kernel

/-- A state record of block 8 with the arrays of `kinds`, cut short. -/
def state8 (kinds : Nat) : List Byte := beBytes 5 8 ++ beBytes 1 kinds ++ zeros 12

theorem witness_rounds_state :
    (let s := block0 (knows spoken (fed1 3))
     let d := dg (fx 0x30 0) run8
     took s d 0x30 = true ∧ (tOf s d).obj Obj.FED_STATE = 3 ∧ (tOf s d).mem.poison = [] ∧ (tOf s d).mem.symErr = [] ∧
       (tOf s d).recsInRun (beAt (bOf d) 0 5) (beAt (bOf d) 8 4) ≠ []) ∧
    (let t := block0 (knows spoken (fed1 2))
     let s := { t with fed := { t.fed with reports := [(0, 2, 0)] } }
     let d := dg (fx 0x31 0) (state8 7)
     completed s d 0x31 (state8 7) = true ∧ stateRecs (state8 7).length (state8 7) = [state8 7] ∧
       (cOf s d).recOfBlock (beAt (state8 7) 0 5) = some 0 ∧ (cOf s d).obj Obj.FED_STATE = 2 ∧ (cOf s d).wholeHere = true ∧
       beAt (state8 7) 5 1 % 8 = 7) ∧
    (let t := block0 (knows spoken (fed1 4))
     let s := { t with fed := { t.fed with sideRecs := [zeros 4 ++ beBytes 8 1 ++ zeros 20] } }
     let d := dg (fx 0x31 0) (state8 1)
     completed s d 0x31 (state8 1) = true ∧ stateRecs (state8 1).length (state8 1) = [state8 1] ∧
       (cOf s d).recOfBlock (beAt (state8 1) 0 5) = some 0 ∧ (cOf s d).obj Obj.FED_STATE = 4 ∧
       sideOf (cOf s d).sidesNow (hOf d).srcMember = some 0 ∧ beAt (state8 1) 5 1 % 8 = 1) := by
  decide +kernel

/-! ### The input feed, the stream, snapshots -/

/-- One stream of one sample of four tokens, one channel of one position. -/
def stream0 : FeedStream := ⟨0, 0, 1, 1, 1, 4, 0⟩
def source0 : FeedSource := ⟨1, 0, 0, 0, 1, 0⟩
def chan0 : ChanRec := ⟨0, 0, 0, 1, 4, 1, 0, 0, 0, 2 ^ 20⟩
/-- The slot holds its sample's length when known, and its tokens with it. -/
def feeding (l : Option Nat) : State :=
  let s := (withImage { image1 with plan := [], streams := [stream0], sources := [source0], channels := [chan0] } (running [])).setDom Obj.ENDPOINT
    (beBytes 16 9 ++ leBytes 2 47211 ++ zeros 6)
  let x : FeedSlot := ⟨0, l, match l with | some n => [(0, n)] | none => []⟩
  { s with feed := { s.feed with runs := [(0, ⟨1, 1, [(0, x)], 0, none⟩)], chans := [(0, ⟨1, 0, 0, 0, 0, 0⟩)] } }
/-- Request 1 for the length of sample 0 is outstanding. -/
def req0 (s : State) : FeedReq := ⟨1, 0, s.selfMember, 0, 0, 0, 0, 0⟩
def requested : State :=
  let s := feeding none
  { s with feed := { s.feed with reqs := [req0 s] } }

theorem witness_streams_rows :
    (∀ l ∈ [none, some 4], let s := feeding l
      s.channel 0 = some chan0 ∧ s.jobRuns = true ∧ (s.chan 0).st = 1 ∧ (s.chan 0).filled < s.passes ∧ s.feed.replay = false ∧
        s.feedStream chan0.stream = some stream0 ∧ (match s.nextRow stream0 chan0 with | .inl _ => true | .inr _ => false) = l.isSome ∧
        s.obj Obj.FEED_STATE ≠ 3) ∧
    ((feeding none).feed.reqs.length < (feeding none).obj Obj.FETCH_AHEAD ∧ (feeding none).nextReq stream0 = some (0, 0, 0) ∧
      locate ((feeding none).feedSources stream0) 0 = some (source0, 0)) := by
  decide +kernel

theorem witness_streams_requests :
    (let s := requested
     let d := dg (sx 0x51 s) (zeros 28)
     took s d 0x51 = true ∧ (tOf s d).feed.reqs.find? (fun q =>
        let p := endpointOf ((tOf s d).dom (Obj.ENDPOINT + q.ep))
        q.num == (hOf d).xfer && p.addr == d.peer && p.port == d.peerPort.toNat && q.member == (hOf d).dstMember) = some (req0 s) ∧
       (bOf d).length = 28 + 4 * (req0 s).count ∧ (tOf s d).feedStream 0 = some stream0) ∧
    (let s := requested
     s.feed.reqs.find? (fun x => x.ep == 0 && x.num == 1) = some (req0 s) ∧ s.feedStream 0 = some stream0 ∧
       locate (s.feedSources stream0) 0 = some (source0, 0)) := by
  decide +kernel

theorem witness_streams_sent :
    (let s := ((State.reset.setObj Obj.STREAM_MODE 1).setObj Obj.STREAM_OFFSET 8).setObj Obj.STREAM_KEY_SLOT 0xFF
     s.obj Obj.STREAM_MODE ≠ 0 ∧ s.stream.sent < s.obj Obj.STREAM_OFFSET ∧ s.obj Obj.STREAM_KEY_SLOT = 0xFF) ∧
    (∀ n ∈ [0, 1], let s := State.reset
      let d := dg (sx 0x61 s) (beBytes 8 n)
      took s d 0x61 = true ∧ (beAt (bOf d) 0 8 = n) ∧ (tOf s d).obj Obj.STREAM_DURABLE = 0 ∧ (tOf s d).stream.reach = 0 ∧ (tOf s d).stream.backlog = []) ∧
    (let s := State.reset
     let d := dg (sx 0x62 s) (zeros 8)
     took s d 0x62 = true ∧ (tOf s d).obj Obj.STREAM_DURABLE ≤ beAt (bOf d) 0 8 ∧ beAt (bOf d) 0 8 ≤ (tOf s d).obj Obj.STREAM_OFFSET) := by
  decide +kernel

/-- A snapshot of identity (0, 0) is in progress, or the boundary is agreed; slot 0 holds a key for snapshots. -/
def snapshot (id : Option (Nat × Nat)) : State :=
  let s := (withImage { image1 with plan := [] } (sharing JOB_LOADED 0 0 0)).setObj Obj.SNAP_SEG_BYTES 4
  let t := s.setKeySlot 0 ⟨zeros 16, 2, [], 0⟩
  { t.setObj Obj.SNAP_KEY_SLOT 0 with snap := { t.snap with ident := id, agreed := true, content := some 1, segs := 2, text := [1, 2, 3, 4] } }

theorem witness_streams_snapshots :
    (∀ id ∈ [none, some (0, 0)], let s := snapshot id
      s.snap.agreed = true ∧ s.obj Obj.COMMITTED = s.obj Obj.SNAP_AT ∧ s.atBoundary = true ∧ s.job.image.isSome = true ∧ s.snap.ident = id) ∧
    (let s := snapshot (some (0, 0))
     s.snap.content = some 1 ∧ s.snap.seg < s.snap.segs ∧ s.obj Obj.SNAP_SEG_BYTES ≤ s.snap.text.length ∧
       s.slotAllows (s.obj Obj.SNAP_KEY_SLOT) 1 = true ∧ (s.keySlot (s.obj Obj.SNAP_KEY_SLOT)).counter < 2 ^ 32 ∧
       ({ s with snap := { s.snap with seg := 2 } } : State).snap.segs ≤ 2) ∧
    (∀ v ∈ [0, 1], let s := snapshot (some (0, 0))
      let d := dg (sx 0x64 s) (zeros 12 ++ beBytes 4 (v * 2 ^ 24))
      took s d 0x64 = true ∧ (tOf s d).snap.ident = some (beAt (bOf d) 0 4, beAt (bOf d) 4 8) ∧ beAt (bOf d) 12 1 = v) := by
  decide +kernel

/-! ### The cipher engine and the control processors -/

/-- Slot 0 holds a key for every use. -/
def keyed : State := (withImage { image1 with plan := [], dram := [65536, 0, 0, 0] } ready).setKeySlot 0 ⟨zeros 16, 7, [], 0⟩
/-- One whole message of 16 bytes in panel 0. -/
def oneMsg (slot : Fin 64) : CipherReq := ⟨slot, 0, false, true, true, 0, 0, 16, 0, 4096, 8192, 0, 0⟩

theorem witness_cipher :
    ((oneMsg 0).first = true ∧ (oneMsg 0).last = true ∧ (oneMsg 0).aadLen = 0 ∧ 1 ≤ (oneMsg 0).length.toNat) ∧
    (let s := keyed
     s.mem.poison = [] ∧ s.mem.symErr = [] ∧ s.up = true ∧ s.slotAllows 1 0 = false ∧ s.slotAllows 0 0 = true ∧
       (s.keySlot 0).counter < 2 ^ 32 ∧ s.targetCheck s.chip 0x0D9 false false 0 16 = none ∧ clsOf 0 ≠ 10 ∧
       s.targetCheck s.chip 0x0D9 false true 4096 16 = none ∧ s.targetCheck s.chip 0x0D9 false true 8192 16 = none ∧
       s.targetCheck s.chip 0x0D9 false false 8192 16 = none ∧ clsOf 8192 ≠ 10 ∧
       s.targetCheck s.chip 0x0D9 false true 4096 16 = none ∧ s.targetCheck s.chip 0x0D9 false false 0 132 = none) ∧
    (let x : CipherSusp := ⟨0, 4096, 16, true, 8192, ⟨0, 0, 0, false, zeros 12, [], [], [], false⟩⟩
     let s := { keyed with cipher := { keyed.cipher with suspended := [x] } }
     s.cipher.suspended = [x] ∧ x.ctx.decrypt = false ∧ x.ctx.poisoned = false ∧ x.last = true ∧ 1 ≤ x.left ∧
       s.targetCheck s.chip 0x0D9 false false 0 16 = none ∧ s.targetCheck s.chip 0x0D9 false true 4096 16 = none ∧
       s.targetCheck s.chip 0x0D9 false true 8192 16 = none) := by
  decide +kernel

/-- One occurrence of a link event is pending at CP 0, which is online. -/
def online (s : State) : State := { s with ev := s.ev.writeCp 0 2 }
def raised1 : State := (online State.reset).raise Ev.CIPHER_DONE 7

theorem witness_delivery :
    raised1.cpRuns 0 = true ∧ (raised1.ev.best (raised1.ev.cp 0)).isSome = true ∧ State.reset.cpRuns 0 = true ∧
      State.reset.ev.best (State.reset.ev.cp 0) = none ∧ State.reset.ev.held = [] ∧
      (let s := { raised1 with ev := raised1.ev.ack 0 }
       s.cpRuns 0 = true ∧ (∃ y ∈ (s.ev.cp 0).active, y.1 = Ev.CIPHER_DONE)) ∧
      (∀ y ∈ (raised1.ev.cp 0).active, y.1 ≠ 5) ∧
      (raised1.ev.cp 0).sleeping = false ∧ (raised1.ev.cp 0).pend ≠ [] ∧ (State.reset.ev.cp 0).sleeping = false ∧ (State.reset.ev.cp 0).pend = [] ∧
      (let s := nx (exec (.sleep 0) (online State.reset))
       s.up = true ∧ (s.ev.cp 0).sleeping = true ∧ ((s.raise Ev.CIPHER_DONE 7).ev.cp 0).sleeping = false) := by
  decide +kernel

/-! ### The queue and the invariant -/

theorem witness_queue :
    State.reset.pending = [] ∧ State.reset.boot.stage ≠ .held ∧ ({ State.reset with boot := { State.reset.boot with stage := .held } } : State).boot.stage = .held ∧
      Memory.wf State.reset.mem = true ∧ Memory.wf (block0 State.reset).mem = true ∧ (nx (step { block0 State.reset with pending := [.evdone 0 5] })).ev ≠ State.reset.ev := by
  decide +kernel

/-! ### Worked examples of the manual -/

/-- 3.14159274 in each narrower format (worked example of 04). -/
theorem test_narrow_pi :
    fcvt b32 b16 .rne 0x40490FDB = (0x4248, Fl.NX) ∧ fcvt b32 w16 .rne 0x40490FDB = (0x4049, Fl.NX) ∧
      toShort g8 .rne false false 0 0x40490FDB = (0x42, Fl.NX) ∧ toShort v8 .rne false false 0 0x40490FDB = (0x45, Fl.NX) ∧
      toShort v8 .rtz false false 0 0x40490FDB = (0x44, Fl.NX) ∧ (toShort v8 (.sr 0x9C40) false false 0 0x40490FDB).1 = 0x45 ∧
      (toShort v8 (.sr 0x1000) false false 0 0x40490FDB).1 = 0x44 := by
  decide +kernel

/-- Carry, overflow, subnormal result, zero (worked example of 04). -/
theorem test_narrow_edges :
    toShort g8 .rne false false 0 0xC47A0000 = (0xE4, Fl.NX) ∧
      toShort v8 .rne false false 0 0x43FA0000 = (0x7F, Fl.CSAT ||| Fl.OF ||| Fl.NX) ∧
      toShort v8 .rne true false 0 0x43FA0000 = (0x80, Fl.NAVG ||| Fl.OF ||| Fl.NX) ∧
      fcvt b32 b16 .rne 0x4788B800 = (0x7C00, Fl.OF ||| Fl.NX) ∧ fcvt b32 b16 .rtz 0x4788B800 = (0x7BFF, Fl.OF ||| Fl.NX) ∧
      toShort v8 .rne false false 0 0x3BA3D70A = (0x03, Fl.UF ||| Fl.NX) ∧ toShort v8 .rne false false 0 0xBA000000 = (0, Fl.UF ||| Fl.NX) := by
  decide +kernel

/-- A BV8 group and a BQ8 group (worked example of 04). -/
theorem test_block_groups :
    (let xs := [0x3F400000, 0xBC23D70A, 0x3F333333, 0x358637BD] ++ List.replicate 28 0
     let r := toBlocks v8 false (.mode .rne) 1 [xs]
     r.1.take 5 = [0x7C, 0xCA, 0x7B, 0, 0] ∧ r.2.1 = [0xF7] ∧ r.2.2.1 = Fl.UF ||| Fl.NX) ∧
    v8.widen (-9) 0xCA = (0xBC200000, 0) ∧
    (let r := toBlocks bq8 false (.mode .rne) 1 [0x40400000 :: 0xBF000000 :: List.replicate 30 0]
     r.1.take 2 = [0xF8, 0xFF] ∧ r.2.1 = [0xF9]) := by
  decide +kernel

/-- A sum in tree order (worked example of 06). -/
theorem test_tree_sum : treeFold (fadd b32 .rne) 3 (0x4B800000 :: List.replicate 5 0x3F800000) = (0x4B800002, Fl.NX) := by decide +kernel

/-- Encoding an MM (worked example of 07). -/
theorem test_decode_mm :
    decodePI 0x0004A0E07FE00000 0x4000100400000000 = some (.mm 1 2 true 7 1024 0 0 0x400 0 16 16, 2) ∧
      decodePI 0x000480007FE00000 0x4000100400000000 = some (.mm 1 2 false 0 1024 0 0 0x400 0 16 16, 2) := by
  decide +kernel

/-- One device of a jersey of lengths x, y, z, with its slice in force. -/
def jersey (x y z chip wrap : Nat) : State :=
  ((((State.reset.setObj Obj.JERSEY_X x).setObj Obj.JERSEY_Y y).setObj Obj.JERSEY_Z z).setObj Obj.JERSEY_WRAP wrap).setObj Obj.CHIP chip

/-- The tree entry of chip 0x011 for root 0x001 in a 4 x 2 slice (worked example of 10). -/
theorem test_tree_entry : let d : SliceDef := ⟨5, 0, 0x013, 0, 0⟩
    let w := (jersey 4 2 1 0x011 0).treeEntry d 0x001
    bit w 63 = true ∧ bits w 62 61 = 1 ∧ bits w 60 49 = 0x001 ∧ bits w 48 46 = 4 ∧ bits w 45 40 = 3 ∧ bits w 39 37 = 2 := by
  decide +kernel

/-- The way from (1, 2, 0) to (14, 1, 5) in the wrapped slice 5 (worked example of 09). -/
theorem test_wrapped_route : let d : SliceDef := ⟨5, 0, 0x73F, 5, 0⟩
    (∀ x ∈ [(0x021, 2, false), (0x020, 2, true), (0x02F, 2, false), (0x02E, 4, false), (0x01E, 6, true), (0x71E, 6, false), (0x61E, 6, false)],
      (jersey 16 16 8 x.1 7).routeIn d ((jersey 16 16 8 x.1 7).posOfChip x.1) 0x51E = (x.2.1, x.2.2)) ∧
    (jersey 16 16 8 0x021 7).hops d 0x51E 20 0x021 = 7 := by
  decide +kernel

/-- The coding of a commit's difference words: a literal, a run of zeros, a literal (worked example of 16, with a shorter run). -/
theorem test_code_words :
    codeWords 21 (0x00FFC000 :: List.replicate 18 0 ++ [0x10]) = [0x80, 0, 0, 0xFF, 0xC0, 0, 0, 0x11, 0x80, 0, 0, 0, 0, 0x10] := by
  decide +kernel

/-- Steering towards an exchange share of 5 % (worked example of 17), and the coordinator of round 1,000 (worked example of 02). -/
theorem test_choose_h :
    chooseH 2400000000 300000000 64 50 32 256 = 128 ∧ chooseH 2400000000 300000000 128 50 32 256 = 160 ∧
      coordIn (membersMask [0, 3, 5, 12, 40, 41, 63]) 1000 = some 40 := by
  decide +kernel

/-- EVACK of EV_STEP_SKIPPED (worked example of 17). -/
theorem test_evack :
    (let s := nx (execEvack 0 ((online State.reset).raise Ev.STEP_SKIPPED 0))
     (s.ev.cp 0).ackRead = 0xD063000000000001#64 ∧ (s.ev.cp 0).cppri = 21) := by
  decide +kernel

/-- CRC-32C of the check string "123456789", the check value that the algorithm is published with. -/
theorem test_crc32c : crc32c (ascii "123456789") = 0xE3069283 := by decide +kernel

end Slice0
end

section
/-! The issue of an instruction from clean memory: what a fetch gives where no codeword is poisoned or has symbols in error,
and what a core's command then answers. -/

namespace Sys2Proof.Machine

theorem MemSt.marked_of_clean (m : MemSt) (a n : Nat) (hp : m.poison = []) (he : m.symErr = []) : m.marked a n = [] := by
  simp [MemSt.marked, hp, he]

/-- A core's read of clean memory gives the bytes that stand there and changes nothing. -/
theorem State.coreRead_of_clean (s : State) (core : Nat) (c : CtxId) (a n : Nat) (hp : s.mem.poison = []) (he : s.mem.symErr = []) :
    s.coreRead core c a n = (s.mem.read a n, [], s) := by
  simp [State.coreRead, State.readMem, MemSt.marked_of_clean s.mem a n hp he, State.readCws]

/-- A fetch from clean memory decodes the two words at the program counter and changes nothing. -/
theorem State.fetch_of_clean (s : State) (core : Nat) (c : CtxId) (pc : Nat) {i : PI} {w : Nat} (hp : s.mem.poison = [])
    (he : s.mem.symErr = []) (hd : decodePI (s.wordsAt core pc).1 (s.wordsAt core pc).2 = some (i, w)) :
    s.fetch core c pc = (false, some (i, w), s) := by
  have hd' : decodePI (ofLe (s.mem.read (istoreAddr core pc) 8)) (s.wordsAt core pc).2 = some (i, w) := hd
  by_cases hw : w = 1 <;> simp [State.fetch, State.coreRead_of_clean _ _ _ _ _ hp he, hd', hw]

/-- The command of an instruction that its context issues answers what the instruction means, or the same state where it waits. -/
theorem State.issue_of_issues {s : State} {core : Nat} {c : CtxId} {i : PI} {w : Nat} (k : PI → Nat → State → Option State)
    (h : Issues s core c i w) : s.issue core c k = (k i w s).getD s := by
  obtain ⟨hm, hp, he, hd⟩ := h
  simp only [State.issue, hm, State.fetch_of_clean s core c _ hp he hd]
  cases k i w s <;> rfl

/-- A change of one context leaves everything else as it was. -/
theorem State.onlyCtx_modCtx (s : State) (core : Nat) (c : CtxId) (f : Ctx → Ctx) :
    OnlyCtx s (s.modCtx core c f) core c (f ((s.core core).ctx c)) :=
  ⟨rfl, rfl, State.core_setCore s core _, fun _ hj => State.core_setCore_of_ne s _ hj⟩

end Sys2Proof.Machine
end

section
/-! WAITD and WAITC (R171): the wait on the tags of a mask, and the core that a waiting job context keeps. -/

namespace Sys2Proof.Machine

/-- A context at a wait of `w` words for the tags of a mask: it stays while one of the tags is held, and goes on when none is. -/
def State.awaitTags (s : State) (core : Nat) (c : CtxId) (w mask : Nat) (tags : List Nat) : State :=
  if tags.any (bit mask) then s else s.advance core c w

theorem State.awaitTags_of_held (s : State) (core : Nat) (c : CtxId) (w : Nat) {mask : Nat} {tags : List Nat}
    (h : ∃ tag ∈ tags, bit mask tag = true) : s.awaitTags core c w mask tags = s :=
  if_pos (List.any_eq_true.mpr h)

theorem State.awaitTags_of_free (s : State) (core : Nat) (c : CtxId) (w : Nat) {mask : Nat} {tags : List Nat}
    (h : ∀ tag ∈ tags, bit mask tag = false) : s.awaitTags core c w mask tags = s.advance core c w :=
  if_neg (by simpa using h)

/-- An effect that has no answer while a tag is held, and else goes on, awaits the tags. -/
theorem State.getD_ite_advance (s : State) (core : Nat) (c : CtxId) (w mask : Nat) (tags : List Nat) :
    (if tags.any (bit mask) then none else some (s.advance core c w)).getD s = s.awaitTags core c w mask tags := by
  unfold State.awaitTags; split <;> rfl

theorem exec_waitd_of_issues {s : State} {core : CoreId} {c : CtxId} {mask w : Nat} (h : Issues s core.val c (.waitd mask) w) :
    exec (.waitd core c) s = .next (s.awaitTags core.val c w mask ((s.core core.val).ctx c).xferTags) := by
  change Host.Outcome.next (s.issue core.val c (waitdEffect core.val c)) = _
  rw [State.issue_of_issues _ h, waitdEffect, State.getD_ite_advance]

theorem exec_waitc_of_issues {s : State} {core : CoreId} {c : CtxId} {mask w : Nat} (h : Issues s core.val c (.waitc mask) w) :
    exec (.waitc core c) s = .next (s.awaitTags core.val c w mask ((s.core core.val).ctx c).collTags) := by
  change Host.Outcome.next (s.issue core.val c (waitcEffect core.val c)) = _
  rw [State.issue_of_issues _ h, waitcEffect, State.getD_ite_advance]

/-- A command that awaits tags: it changes nothing while one of them is held; when none is, its context goes on, and nothing else
changes. -/
theorem awaitTags_outcome {s : State} {core : Nat} {c : CtxId} {w mask : Nat} {tags : List Nat} {o : Out}
    (h : o = .next (s.awaitTags core c w mask tags)) :
    ((∃ tag ∈ tags, bit mask tag = true) → o = .next s) ∧
    ((∀ tag ∈ tags, bit mask tag = false) →
      ∃ t, o = .next t ∧ OnlyCtx s t core c (((s.core core).ctx c).advance w) ∧ SameBytes s t) := by
  subst h
  refine ⟨fun held => ?_, fun free => ?_⟩
  · rw [State.awaitTags_of_held s core c w held]
  · rw [State.awaitTags_of_free s core c w free]
    exact ⟨_, rfl, State.onlyCtx_modCtx s core c _, fun _ => rfl⟩

theorem State.running_of_mayIssue {s : State} {core : Nat} {c : CtxId} (h : s.mayIssue core c = true) :
    s.jobRuns = true ∧ ((s.core core).ctx c).present = true ∧ (s.core core).running = c := by
  simp only [State.mayIssue, Bool.and_eq_true, beq_iff_eq] at h
  obtain ⟨⟨⟨⟨⟨⟨⟨hruns, hpresent⟩, -⟩, -⟩, -⟩, -⟩, -⟩, hrunning⟩ := h
  exact ⟨hruns, hpresent, hrunning⟩

/-- A job context that waits at neither a BAR nor a STEP does not wait in the sense of Table 7.14, so its core keeps to it. -/
theorem State.nextCtx_of_job_unwaiting (s : State) (core : Nat) {x : CoreSt} (hrun : x.running = .job) (hpres : x.job.present = true)
    (hwait : x.job.wait = .none) : s.nextCtx core x = .job := by
  have hbusy : s.jobWaits core x = false := by simp [State.jobWaits, hwait]
  simp [State.nextCtx, hrun, hpres, hbusy]

/-- A job context that may issue and waits at neither a BAR nor a STEP keeps its core at a switch. -/
theorem contextSwitch_keeps_job {s : State} {core : CoreId} (hm : s.mayIssue core.val .job = true)
    (hwait : (s.core core.val).job.wait = .none) :
    ∃ t, exec (.contextSwitch core) s = .next t ∧ (t.core core.val).running = .job := by
  obtain ⟨hruns, hpres, hrun⟩ := State.running_of_mayIssue hm
  refine ⟨s.modCore core.val (fun x => { x with running := s.nextCtx core.val x }), ?_, ?_⟩
  · change Host.Outcome.next _ = _
    rw [if_pos hruns]
  · rw [State.core_modCore]
    exact s.nextCtx_of_job_unwaiting core.val hrun hpres hwait

/-- Settles O21. Both waits are one wait on a list of tags, and only a context at a BAR or a STEP gives its core to the Filler. -/
theorem tagWaits : Obligations.TagWaits := by
  intro s core c w mask
  refine ⟨fun h => awaitTags_outcome (exec_waitd_of_issues h), fun h => awaitTags_outcome (exec_waitc_of_issues h), ?_⟩
  exact fun h hwait => contextSwitch_keeps_job (h.elim And.left And.left) hwait

end Sys2Proof.Machine
end

section
/-! The event controller's rules: one control processor's record after a write, a completion and an occurrence, CPPRI as R426 gives
it, and the ways an occurrence is routed. -/

namespace Sys2Proof.Machine

@[simp] theorem EvSt.cp_setCp (e : EvSt) (c : Nat) (p : CpSt) : (e.setCp c p).cp c = p := Sparse.get_set_self _ _ _ _

theorem EvSt.cp_setCp_of_ne (e : EvSt) {j c : Nat} (p : CpSt) (h : j ≠ c) : (e.setCp c p).cp j = e.cp j :=
  Sparse.get_set_of_ne _ _ _ h

/-- A field of the controller other than the CPs' records says nothing about a CP. -/
theorem EvSt.cp_congr {e f : EvSt} (h : e.cps = f.cps) (c : Nat) : e.cp c = f.cp c :=
  congrArg (fun m => Sparse.get (fun _ => CpSt.reset) m c) h

/-! ### CPPRI (R426) -/

/-- CPPRI is FLOOR with no active source, else the greater of FLOOR and one more than the highest active priority. -/
theorem CpSt.cppri_cases (p : CpSt) : (p.active = [] ∧ p.cppri = p.floor) ∨
    ∃ y ∈ p.active, (∀ z ∈ p.active, z.2 ≤ y.2) ∧ p.cppri = max p.floor (y.2 + 1) := by
  match hact : p.active with
  | [] => exact .inl ⟨rfl, by simp [CpSt.cppri, hact]⟩
  | a :: as =>
    obtain ⟨m, hm⟩ := Option.isSome_iff_exists.mp (List.isSome_max?_of_ne_nil (l := (a :: as).map Prod.snd) (by simp))
    obtain ⟨hmem, hle⟩ := List.max?_eq_some_iff.mp hm
    obtain ⟨y, hy, rfl⟩ := List.mem_map.mp hmem
    refine .inr ⟨y, hy, fun z hz => hle z.2 (List.mem_map_of_mem hz), ?_⟩
    have hfold : (a :: as).foldl (fun b x => max b x.2) 0 = y.2 := by
      rw [← List.foldl_map, List.foldl_max, hm]
      simp
    simp [CpSt.cppri, hact, hfold, Nat.add_comm]

/-- R426 as bounds: FLOOR for an idle CP; at least FLOOR and above every active priority; and no greater than one of these makes it. -/
theorem CpSt.cppri_spec (p : CpSt) : (p.active = [] → p.cppri = p.floor) ∧
    (∀ y ∈ p.active, y.2 + 1 ≤ p.cppri ∧ p.floor ≤ p.cppri) ∧ (p.cppri = p.floor ∨ ∃ y ∈ p.active, p.cppri = y.2 + 1) := by
  obtain ⟨hidle, hfloor⟩ | ⟨y, hy, hmax, hcppri⟩ := p.cppri_cases
  · exact ⟨fun _ => hfloor, by simp [hidle], .inl hfloor⟩
  · refine ⟨fun hidle => absurd hy (by simp [hidle]), fun z hz => ?_, ?_⟩
    · have hle := hmax z hz
      omega
    · obtain hle | hle := Nat.le_total (y.2 + 1) p.floor
      · exact .inl (hcppri.trans (Nat.max_eq_left hle))
      · exact .inr ⟨y, hy, hcppri.trans (Nat.max_eq_right hle)⟩

/-! ### Completion -/

/-- A source active at the CP becomes inactive there, whatever priority it was delivered with. -/
theorem EvSt.cp_finish_of_active {e : EvSt} {c src : Nat} (h : ∃ y ∈ (e.cp c).active, y.1 = src) :
    (e.finish c src).cp c = { e.cp c with
      active := (e.cp c).active.filter (fun y => decide (y.1 ≠ src)), completions := (e.cp c).completions + 1 } := by
  have hany : (e.cp c).active.any (fun a => a.1 == src) = true := by simpa using h
  have hfilter : (fun a : Nat × Nat => a.1 != src) = fun y => decide (y.1 ≠ src) := funext fun _ => Bool.eq_iff_iff.mpr (by simp)
  simp [EvSt.finish, hany, hfilter]

theorem EvSt.cp_finish_of_inactive {e : EvSt} {c src : Nat} (h : ∀ y ∈ (e.cp c).active, y.1 ≠ src) :
    (e.finish c src).cp c = { e.cp c with completions := (e.cp c).completions + 1, spurious := (e.cp c).spurious + 1 } := by
  have hany : (e.cp c).active.any (fun a => a.1 == src) = false := List.any_eq_false.mpr (by simpa using h)
  simp [EvSt.finish, hany]

theorem EvSt.cp_finish_of_ne (e : EvSt) {j c : Nat} (src : Nat) (h : j ≠ c) : (e.finish c src).cp j = e.cp j := by
  unfold EvSt.finish
  dsimp only
  split <;> exact e.cp_setCp_of_ne _ h

/-! ### Routing (R425) -/

theorem EvSt.cp_giveTo_self (e : EvSt) (c src : Nat) (d : BitVec 64) : (e.giveTo c src d).cp c =
    { e.cp c with pend := joinPend src d (e.cp c).pend, raised := (e.cp c).raised + 1, sleeping := false, given := some e.order } :=
  EvSt.cp_setCp _ _ _

theorem EvSt.cp_giveTo_of_ne (e : EvSt) {j c : Nat} (src : Nat) (d : BitVec 64) (h : j ≠ c) : (e.giveTo c src d).cp j = e.cp j :=
  EvSt.cp_setCp_of_ne _ _ h

/-- An occurrence is raised at one CP, or no CP changes: it is held at its source, or it overruns a count. -/
theorem EvSt.route_cases (e : EvSt) (src : Nat) (d : BitVec 64) :
    (∃ c, (e.route src d).1 = e.giveTo c src d) ∨ (e.route src d).1.cps = e.cps := by
  unfold EvSt.route
  split
  next c _ =>
    split
    next q _ =>
      split
      · exact .inr rfl
      · exact .inl ⟨c, rfl⟩
    next => exact .inr rfl
  next =>
    split
    next c _ => exact .inl ⟨c, rfl⟩
    next =>
      split
      · exact .inr rfl
      · exact .inr rfl

/-! ### An occurrence (R424) -/

@[simp] theorem State.report_ev (s : State) (i src : Nat) (d : BitVec 64) : (s.report i src d).ev = s.ev := by
  unfold State.report State.sendDap
  dsimp only
  split <;> simp

/-- The controller that counts one occurrence more of a source. -/
def EvSt.countOcc (e : EvSt) (src : Nat) : EvSt :=
  { e with occ := Sparse.set (fun _ => 0) e.occ src (counted (0x24000100 + src) 32 (Sparse.get (fun _ => 0) e.occ src + 1)) }

/-- The DAP reports of an occurrence leave the controller alone: it counts the occurrence and routes it. -/
theorem State.raise_ev (s : State) (src : Nat) (d : BitVec 64) : (s.raise src d).ev = ((s.ev.countOcc src).route src d).1 := by
  have h : ((s.subscribers src).foldl (fun s i => s.report i src d) s).ev = s.ev :=
    State.foldl_keeps State.ev _ (fun _ _ => State.report_ev ..) _ _
  unfold State.raise EvSt.countOcc
  dsimp only
  split <;> split <;> simp [h]

/-- What an occurrence does to one CP: it is raised there and wakes it (R428), or the CP's record stays. -/
theorem State.cp_raise_cases (s : State) (src : Nat) (d : BitVec 64) (c : Nat) :
    (∃ given, (s.raise src d).ev.cp c = { s.ev.cp c with
      pend := joinPend src d (s.ev.cp c).pend, raised := (s.ev.cp c).raised + 1, sleeping := false, given := given }) ∨
    (s.raise src d).ev.cp c = s.ev.cp c := by
  rw [State.raise_ev]
  obtain ⟨b, hgive⟩ | hsame := (s.ev.countOcc src).route_cases src d
  · rw [hgive]
    by_cases hc : c = b
    · subst hc
      exact .inl ⟨_, EvSt.cp_giveTo_self _ c src d⟩
    · exact .inr (EvSt.cp_giveTo_of_ne _ src d hc)
  · exact .inr (EvSt.cp_congr hsame c)

/-! ### The commands of a control processor -/

theorem State.cpRuns_iff (s : State) (c : Nat) : s.cpRuns c = true ↔ s.up = true ∧ (s.ev.cp c).sleeping = false := by
  simp [State.cpRuns]

theorem State.not_cpRuns_of_sleeping {s : State} {c : Nat} (h : (s.ev.cp c).sleeping = true) : ¬ s.cpRuns c = true := by
  simp [State.cpRuns, h]

theorem exec_evdone_of_cpRuns {s : State} {c : CpId} (h : s.cpRuns c.val = true) (v : Word64) :
    exec (.evdone c v) s = .next { s with ev := s.ev.finish c.val (v.toNat % 512) } :=
  congrArg Host.Outcome.next (if_pos h)

theorem exec_sleep_of_idle {s : State} {c : CpId} (hr : s.cpRuns c.val = true) (hp : (s.ev.cp c.val).pend = []) :
    exec (.sleep c) s = .next { s with ev := s.ev.setCp c.val { s.ev.cp c.val with sleeping := true } } :=
  congrArg Host.Outcome.next (if_pos ⟨hr, hp⟩)

theorem exec_sleep_of_pending {s : State} {c : CpId} (hp : (s.ev.cp c.val).pend ≠ []) : exec (.sleep c) s = .next s :=
  congrArg Host.Outcome.next (if_neg fun h => hp h.2)

/-- A control processor that does not run executes none of its commands. -/
theorem exec_of_not_cpRuns {s : State} {c : CpId} (h : ¬ s.cpRuns c.val = true) :
    exec (.evack c) s = .next s ∧ exec (.sleep c) s = .next s ∧ (∀ v, exec (.evdone c v) s = .next s) ∧
      ∀ v, exec (.evcpWrite c v) s = .next s :=
  ⟨congrArg Host.Outcome.next (if_neg h), congrArg Host.Outcome.next (if_neg fun k => h k.1),
    fun _ => congrArg Host.Outcome.next (if_neg h), fun _ => congrArg Host.Outcome.next (if_neg h)⟩

end Sys2Proof.Machine
end

section
/-! EVDONE (R427), and the sleep of a control processor (R428). -/

namespace Sys2Proof.Machine

/-- Settles O59. A completion writes one CP's record, and what CPPRI then is R426 says of any record. -/
theorem eventCompletion : Obligations.EventCompletion := by
  intro s c v hruns n p stay
  refine ⟨_, exec_evdone_of_cpRuns hruns v, rfl, fun j hj => s.ev.cp_finish_of_ne n hj, fun hactive => ?_, fun hinactive => ?_⟩
  · have hcp := EvSt.cp_finish_of_active hactive
    refine ⟨hcp, ?_⟩
    rw [hcp]
    exact CpSt.cppri_spec { p with active := stay, completions := p.completions + 1 }
  · exact EvSt.cp_finish_of_inactive hinactive

/-- Settles O60. A CP that does not run executes none of its commands, and an occurrence that is routed to a CP clears its SLEEPING. -/
theorem sleepAndWake : Obligations.SleepAndWake := by
  intro s c hup p
  refine ⟨fun hawake hnone => ?_, fun _ hpend => exec_sleep_of_pending hpend,
    fun hsleep => exec_of_not_cpRuns (State.not_cpRuns_of_sleeping hsleep), fun src d => ?_⟩
  · have hruns : s.cpRuns c.val = true := (s.cpRuns_iff c.val).mpr ⟨hup, hawake⟩
    exact ⟨_, exec_sleep_of_idle hruns hnone, rfl, EvSt.cp_setCp _ _ _, fun j hj => s.ev.cp_setCp_of_ne _ hj⟩
  · obtain ⟨given, hraised⟩ | hsame := s.cp_raise_cases src d c.val
    · exact .inl (by simp [hraised, p])
    · exact .inr (by simp [hsame, p])

end Sys2Proof.Machine
end
